-- ==== Sys2Proof/Word.lean ====
section
/-!
DEFINITION. The words of the Goriton: bytes, 32-bit lanes and instruction words, 64-bit scalars, and the two
plainest readings of a word (R6, R7).
-/
namespace Sys2Proof

/-- One byte of memory (R7). -/
abbrev Byte := BitVec 8

/-- A 32-bit vector lane, an instruction word, or a clause header. -/
abbrev Word := BitVec 32

/-- A 64-bit scalar register, an address, or a lane mask (R9). -/
abbrev DWord := BitVec 64

/-- Field [lo + n - 1 : lo] of a 32-bit word, as an `n`-bit value (R6). -/
def Word.field (w : Word) (lo n : Nat) : BitVec n := BitVec.ofNat n (w.toNat / 2 ^ lo)

/-- `bits(x, hi, lo)` of a 64-bit value as an unsigned number (R12). -/
def DWord.bits (x : DWord) (hi lo : Nat) : Nat := x.toNat / 2 ^ lo % 2 ^ (hi + 1 - lo)

end Sys2Proof
end

