-- ==== Sys2Proof/Syntax.lean ====
section
/-!
DEFINITION. The syntax of the Goriton's instruction set: one constructor of `Instr` for every row of the opcode table,
and the operand types of the rows that are the device's own steps.
-/
namespace Sys2Proof

/-- A wave named by its core (the 9 bits of `coreid`, R127) and its wave slot, 0 to 31 (R129). -/
structure WaveRef where
  core : Nat
  slot : Nat
  deriving DecidableEq, Repr

/-- Who writes a kick or status register (R97, R99). -/
inductive Origin where
  | host
  | controlCore
  deriving DecidableEq, Repr

/-- What the physical world answers during the start-up steps of R26: whether the mask-ROM start completes, the HBM
stacks and the control memory that fail training, whether the record and the firmware images are read from flash, and the compute
dies that release. -/
structure StartupInputs where
  romStarts : Bool
  hbmFailed : BitVec 8
  controlFailed : Bool
  flashReads : Bool
  imagesRead : Bool
  diesReleased : BitVec 2
  deriving DecidableEq, Repr

/-- A VI descriptor as the monitor writes it (R28), without the fields that hardware keeps. -/
structure ViDesc where
  asidBase : Nat
  asidCnt : Nat
  qcount : Nat
  prioMax : Nat
  pinWin : Nat
  pinQuota : Nat
  tenBase : Nat
  tenSize : Nat
  ctlBase : Nat
  ctlSize : Nat
  capBase : DWord
  svBudget : Nat
  visState : Nat := 1
  deriving DecidableEq, Repr

/-- A barrier of a team or of a reach (R403): the grid, the team or reach number, the level, the barrier number. -/
structure BarrierRef where
  grid : Nat
  reachLevel : Bool
  group : Nat
  number : Nat
  deriving DecidableEq, Repr

/-- The status with which an asynchronous operation completes (R310, R425 code 0x12). -/
inductive OpStatus where
  | success
  | remoteAbort
  | peerLost
  | lostPacket
  | viAbsent
  | hostLinkDown
  | mismatch
  | rillAbsent
  deriving DecidableEq, Repr

/-- A fabric packet (R355): its header fields (`top` is FHVC[7]) with its end-to-end CRC, its payload, the port that it is placed on or
arrives on, whether the link's authentication tag agrees, and its packet counter (R363). -/
structure FabPacket where
  vc : Nat
  relayed : Bool
  flits : Nat
  src : Nat
  dst : Nat
  op : Nat
  vi : Nat
  seq : Nat
  asid : Nat
  strmCore : Nat
  strmSlot : Nat
  strm : Nat
  len : Nat
  addr : Nat
  tag : Nat
  opnd : List DWord
  payload : List Byte
  poisoned : Bool
  port : Nat
  tagOk : Bool
  top : Bool := false
  crc : Word := 0
  ctr : Nat := 0
  deriving DecidableEq, Repr

/-- A training capability record (R360): `lanesTop` is CRLANES[7:4]. -/
structure CapRecord where
  pkg : Nat
  port : Nat
  dom : Nat
  peer : Nat
  lanes : BitVec 4
  speed : Nat
  width : Nat
  laneMap : BitVec 8
  attempt : Nat
  crc : Word := 0
  lanesTop : BitVec 4 := 0
  reserved : BitVec 128 := 0
  deriving DecidableEq, Repr

/-- What an SPDM 1.3 message on VC4 does to the exchange of a port (R362, R363, R364). -/
inductive SpdmStep where
  | progress
  | finish
  | fail
  | keyUpdate
  deriving DecidableEq, Repr

/-- The content of a link-state packet (R359, R364, R471). -/
structure LinkReport where
  sender : Nat
  runCommanded : Bool
  bundles : List Nat
  deriving DecidableEq, Repr

/-- A message on the sector ring (R415). `flit` numbers count the header. -/
structure RingMsg where
  cls : Nat
  hi : Bool
  escape : Bool
  flits : Nat
  dst : Nat
  ccw : Bool
  org : Nat
  vi : Nat
  dep : Nat
  sep : Nat
  dch : Nat
  sch : Nat
  seq : Nat
  payload : List Byte
  deriving DecidableEq, Repr

/-- The target of a plain register write (R422, R413): a privileged register of a wave, or a byte offset of an
endpoint's register page. -/
inductive RegTarget where
  | priv (w : WaveRef) (n : Nat)
  | endpoint (ep off : Nat)
  deriving DecidableEq, Repr

/-- What the upstream host reaches through the endpoint (R99, R399): tensor or control memory by physical address, or
an offset of a VI's kick page; and what a control core reaches beside these: an offset of a VI's fault page (R371). -/
inductive HostTarget where
  | tensor (a : Nat)
  | control (a : Nat)
  | kickPage (vi off : Nat)
  | faultPage (vi off : Nat)
  | endpoint (ep off : Nat)
  deriving DecidableEq, Repr

/-- Where a poison bit lies (R466): a sector of memory, or a sector of a core's local store. -/
inductive PoisonPlace where
  | mem (key : Nat)
  | localStore (core off : Nat)
  deriving DecidableEq, Repr

/-- An engine that reports to the pre-emption collector (R450). -/
inductive Engine where
  | core (c : Nat)
  | matrix (c : Nat)
  | copy
  | gather
  | collective
  | keepers
  | ferry
  deriving DecidableEq, Repr

/-- The state that the partition monitor writes into a wave stopped in hypervisor mode or halted for debug (R443, R447); `priv` are
scalar privileged registers by their numbers (R422). -/
structure WaveRewrite where
  pc : DWord
  ridx : Nat
  mid : Bool
  mode : Nat
  exm : DWord
  scalars : List (Nat × DWord)
  vectors : List (Nat × Word)
  preds : List (Nat × DWord) := []
  fpc : Option DWord := none
  priv : List (Nat × DWord) := []
  deriving DecidableEq, Repr

/-- The one instruction type: a constructor for every row of the opcode table. Rows with a word carry the fields of
the word (R159, R171 to R179, R288); rows that are the device's own steps carry who acts and on what (chapter 95). -/
inductive Instr where
  /-- POWER_GOOD (R26). -/
  | powerGood (i : StartupInputs)
  /-- STARTUP_STEP_TIMEOUT (R27). -/
  | startupStepTimeout (step : Nat)
  /-- POWER_REMOVAL (R22). -/
  | powerRemoval
  /-- UPSTREAM_HOT_RESET (R36). -/
  | upstreamHotReset
  /-- LINK_DOWN (R36). -/
  | linkDown
  /-- FUNCTION_LEVEL_RESET (R38). -/
  | functionLevelReset (vi : Nat)
  /-- OPERATING_POINT_LOWER (R19). -/
  | operatingPointLower (block : Nat)
  /-- OPERATING_POINT_RAISE (R19). -/
  | operatingPointRaise (block : Nat)
  /-- OPERATING_POINT_CEILING (R19). -/
  | operatingPointCeiling (block point : Nat)
  /-- VI_BUILD (R29). -/
  | viBuild (vi : Nat) (d : ViDesc)
  /-- VI_START (R30). -/
  | viStart (vi : Nat)
  /-- FREEZE_REQUEST (R31). -/
  | freezeRequest (vi : Nat)
  /-- VI_RESUME (R31). -/
  | viResume (vi : Nat)
  /-- VI_TEARDOWN (R30). -/
  | viTeardown (vi : Nat)
  /-- TEARDOWN_COMPLETE (R30). -/
  | teardownComplete (vi : Nat)
  /-- SUPERVISOR_BUDGET_EXPIRY (R440). -/
  | supervisorBudgetExpiry (w : WaveRef)
  /-- KICK (R101). -/
  | kick (vi q : Nat) (v : DWord) (o : Origin)
  /-- QUEUE_START (R100). -/
  | queueStart (vi q : Nat) (o : Origin)
  /-- QUEUE_STOP (R100). -/
  | queueStop (vi q : Nat) (o : Origin)
  /-- SLOT_READ (R102). -/
  | slotRead (vi q : Nat)
  /-- STALE_KICK_TIMEOUT (R102). -/
  | staleKickTimeout (vi q : Nat)
  /-- DISPATCH (R110). -/
  | dispatch
  /-- CANDIDATE_RESERVED (R111). -/
  | candidateReserved (grid : Nat)
  /-- REACH_START (R139). -/
  | reachStart (grid reach : Nat)
  /-- FERRY_GRID_START (R246). -/
  | ferryGridStart (grid : Nat)
  /-- SPAWN_BIN_TIMEOUT (R118). -/
  | spawnBinTimeout (core bin : Nat)
  /-- BIN_WAVE_START (R119). -/
  | binWaveStart (core bin : Nat)
  /-- WAVE_BOOST (R142). -/
  | waveBoost (w : WaveRef)
  /-- CLAUSE_START (R152). -/
  | clauseStart (w : WaveRef)
  /-- FETCH_FILL_COMPLETE (R149). -/
  | fetchFillComplete (w : WaveRef)
  /-- LOOKOUT_START (R144). -/
  | lookoutStart (w : WaveRef)
  /-- LOOKOUT_TIMEOUT (R146). -/
  | lookoutTimeout (w : WaveRef)
  /-- LONG_LATENCY_COMPLETE (R154). -/
  | longLatencyComplete (w : WaveRef) (op : Nat)
  /-- TERMINAL_INSTRUCTION_COMPLETE (R156). -/
  | terminalInstructionComplete (w : WaveRef)
  /-- BARRIER_COMPLETE (R403). -/
  | barrierComplete (b : BarrierRef)
  /-- TRAP_ENTRY (R428). -/
  | trapEntry (w : WaveRef)
  /-- ENGINE_FAILURE_TRAP (R310). -/
  | engineFailureTrap (w : WaveRef)
  /-- WATCHDOG_EXPIRY (R439). -/
  | watchdogExpiry (w : WaveRef)
  /-- WATCHDOG_TRAP (R439). -/
  | watchdogTrap (w : WaveRef)
  /-- SINGLE_STEP_TRAP (R442). -/
  | singleStepTrap (w : WaveRef)
  /-- EXIT_TAKES_EFFECT (R455). -/
  | exitTakesEffect (w : WaveRef)
  /-- TEAM_COMPLETE (R115). -/
  | teamComplete (grid team : Nat)
  /-- GRID_RETIRE (R479). -/
  | gridRetire (grid : Nat)
  /-- TRAVELLER_DEPART (R257). -/
  | travellerDepart (core : Nat)
  /-- TRAVELLER_ARRIVAL (R259). -/
  | travellerArrival (n : Nat)
  /-- TRAVELLER_REOFFER (R261). -/
  | travellerReoffer (core n : Nat)
  /-- OVERFLOW_TAKE (R259). -/
  | overflowTake (core : Nat)
  /-- LANDING_QUEUE_ADVANCE (R259). -/
  | landingQueueAdvance (core : Nat)
  /-- SEGMENT_REPLICATION (R266). -/
  | segmentReplication (grid seg : Nat)
  /-- REPLICA_LOAD_COMPLETE (R266). -/
  | replicaLoadComplete (grid seg : Nat)
  /-- PINCMD_PIN (R281). -/
  | pincmdPin (vi w : Nat)
  /-- PINCMD_UNPIN (R281). -/
  | pincmdUnpin (vi w : Nat)
  /-- PIN_WINDOW_COMPLETE (R281). -/
  | pinWindowComplete (vi w : Nat)
  /-- OWNERSHIP_TRANSFER (R284). -/
  | ownershipTransfer (region : Nat)
  /-- OWNERSHIP_HOLD_EXPIRY (R285). -/
  | ownershipHoldExpiry (region : Nat)
  /-- KEEPER_MESSAGE (R287). -/
  | keeperMessage (slice : Nat)
  /-- KEEPER_RELEASE (R465). -/
  | keeperRelease (slice : Nat)
  /-- KEEPER_STRIKE (R465). -/
  | keeperStrike (slice : Nat)
  /-- COPY_COMPLETE (R312). -/
  | copyComplete (id : Nat) (st : OpStatus)
  /-- GATHER_COMPLETE (R315). -/
  | gatherComplete (id : Nat) (st : OpStatus)
  /-- COLLECTIVE_COMPLETE (R383). -/
  | collectiveComplete (id : Nat) (st : OpStatus)
  /-- XRATOM_RESULT (R375). -/
  | xratomResult (id : Nat) (st : OpStatus)
  /-- AMSG_REPLY (R326). -/
  | amsgReply (id : Nat)
  /-- MATRIX_OP_BEGIN (R352). -/
  | matrixOpBegin (core op : Nat)
  /-- MATRIX_OP_COMPLETE (R352). -/
  | matrixOpComplete (core op : Nat)
  /-- READ_SHARED (R366). -/
  | readShared (p : FabPacket)
  /-- READ_OWN (R366). -/
  | readOwn (p : FabPacket)
  /-- UPGRADE (R366). -/
  | upgrade (p : FabPacket)
  /-- WRITEBACK (R366). -/
  | writeback (p : FabPacket)
  /-- CONTROL_ATOMIC (R366). -/
  | controlAtomic (p : FabPacket)
  /-- DATA_SHARED (R356). -/
  | dataShared (p : FabPacket)
  /-- DATA_EXCLUSIVE (R356). -/
  | dataExclusive (p : FabPacket)
  /-- COMPLETION (R356). -/
  | completion (p : FabPacket)
  /-- FORWARDED_READ (R366). -/
  | forwardedRead (p : FabPacket)
  /-- INVALIDATE (R366). -/
  | invalidate (p : FabPacket)
  /-- ACKNOWLEDGEMENT (R366). -/
  | acknowledgement (p : FabPacket)
  /-- MIRROR_UPDATE (R367). -/
  | mirrorUpdate (p : FabPacket)
  /-- MIRROR_ACKNOWLEDGEMENT (R367). -/
  | mirrorAcknowledgement (p : FabPacket)
  /-- TENSOR_READ (R368). -/
  | tensorRead (p : FabPacket)
  /-- TENSOR_WRITE (R368). -/
  | tensorWrite (p : FabPacket)
  /-- REMOTE_ATOMIC (R375). -/
  | remoteAtomic (p : FabPacket)
  /-- COLLECTIVE_DATA (R384). -/
  | collectiveData (p : FabPacket)
  /-- READ_DATA (R356). -/
  | readData (p : FabPacket)
  /-- WRITE_COMPLETION (R356). -/
  | writeCompletion (p : FabPacket)
  /-- ATOMIC_RESULT (R356). -/
  | atomicResult (p : FabPacket)
  /-- COLLECTIVE_ACKNOWLEDGEMENT (R356). -/
  | collectiveAcknowledgement (p : FabPacket)
  /-- FAULT_REFUSAL (R369). -/
  | faultRefusal (p : FabPacket)
  /-- FROZEN_REFUSAL (R369). -/
  | frozenRefusal (p : FabPacket)
  /-- FAULT_PAGE_RESUME (R371). -/
  | faultPageResume (vi seq : Nat)
  /-- FAULT_PAGE_ABORT (R371). -/
  | faultPageAbort (vi seq : Nat)
  /-- STREAM_RESUME (R371). -/
  | streamResume (p : FabPacket)
  /-- STREAM_ABORT (R371). -/
  | streamAbort (p : FabPacket)
  /-- TENSOR_REQUEST_TIMEOUT (R373). -/
  | tensorRequestTimeout (tag : Nat)
  /-- CONTROL_REQUEST_TIMEOUT (R373). -/
  | controlRequestTimeout (tag : Nat)
  /-- LINK_REPLAY (R357). -/
  | linkReplay (port : Nat)
  /-- PORT_TRAINING (R361). -/
  | portTraining (port : Nat)
  /-- CAPABILITY_RECORD_SEND (R361). -/
  | capabilityRecordSend (port : Nat)
  /-- CAPABILITY_RECORD (R361). -/
  | capabilityRecord (port : Nat) (r : CapRecord)
  /-- SPDM_MESSAGE (R362). -/
  | spdmMessage (port : Nat) (p : FabPacket)
  /-- MEASUREMENT_ACCEPT (R364). -/
  | measurementAccept (port : Nat) (ok : Bool)
  /-- PORT_RUN_COMMAND (R364). -/
  | portRunCommand (port : Nat)
  /-- PORT_RETRAIN (R364). -/
  | portRetrain (port : Nat)
  /-- KEY_UPDATE (R363). -/
  | keyUpdate (port : Nat)
  /-- LINK_STATE_SEND (R471). -/
  | linkStateSend
  /-- LINK_STATE (R364). -/
  | linkState (port : Nat) (p : FabPacket)
  /-- PEER_LOST (R471). -/
  | peerLost (pkg : Nat)
  /-- SHARER_RECALL (R473). -/
  | sharerRecall (pkg : Nat) (p : FabPacket)
  /-- ADOPTION_SERVE (R473). -/
  | adoptionServe (pkg : Nat)
  /-- RING_INJECTION (R417). -/
  | ringInjection (stop source : Nat)
  /-- RING_SHARED_MOVE (R417). -/
  | ringSharedMove (stop n : Nat)
  /-- RING_ESCAPE_MOVE (R417). -/
  | ringEscapeMove (stop n : Nat)
  /-- RING_EJECT (R419). -/
  | ringEject (stop n : Nat)
  /-- CHANNEL_PACKET_ARRIVAL (R412). -/
  | channelPacketArrival (m : RingMsg)
  /-- CHANNEL_ACCEPT (R412). -/
  | channelAccept (ep seq ch : Nat)
  /-- CHANNEL_REJECT (R412). -/
  | channelReject (ep seq ch : Nat)
  /-- CHANNEL_REOFFER (R412). -/
  | channelReoffer (ep seq ch : Nat)
  /-- CPSEND (R413). -/
  | cpsend (ep : Nat) (v : DWord)
  /-- CPRECV (R413). -/
  | cprecv (ep : Nat) (v : DWord)
  /-- CPPOLL (R413). -/
  | cppoll (ep : Nat)
  /-- CPTAB_WRITE (R413). -/
  | cptabWrite (ep i : Nat) (v : DWord)
  /-- CHENT_WRITE (R406). -/
  | chentWrite (core : Nat) (v : DWord)
  /-- TLBINV (R444). -/
  | tlbinv (w : WaveRef) (v : DWord)
  /-- TLBINV_COMPLETE (R444). -/
  | tlbinvComplete (w : WaveRef)
  /-- CAPINV (R445). -/
  | capinv (w : WaveRef) (v : DWord)
  /-- CAPINV_COMPLETE (R445). -/
  | capinvComplete (w : WaveRef)
  /-- REGISTER_WRITE (R422). -/
  | registerWrite (t : RegTarget) (v : DWord)
  /-- HOST_POSTED_WRITE (R399). -/
  | hostPostedWrite (t : HostTarget) (bytes : List Byte)
  /-- HOST_READ (R399). -/
  | hostRead (t : HostTarget) (len : Nat)
  /-- STRIKE (R454). -/
  | strike (core : Nat)
  /-- STRIKE_REPORT (R460). -/
  | strikeReport (core : Nat)
  /-- QUARANTINE_RELEASE (R455). -/
  | quarantineRelease (core : Nat)
  /-- ENTRY_CONFIRM (R457). -/
  | entryConfirm (w : WaveRef)
  /-- UNCORRECTABLE_ERROR (R466). -/
  | uncorrectableError (place : PoisonPlace)
  /-- POISON_CONSUMED (R468). -/
  | poisonConsumed (grid reach : Nat)
  /-- PREEMPT_REQUEST (R448). -/
  | preemptRequest (vi : Nat)
  /-- PGRACE_EXPIRY (R449). -/
  | pgraceExpiry (vi : Nat)
  /-- ENGINE_STOPPED (R450). -/
  | engineStopped (vi : Nat) (e : Engine)
  /-- PREEMPT_RESUME (R453). -/
  | preemptResume (vi : Nat)
  /-- DEBUG_HALT (R443). -/
  | debugHalt (core : Nat)
  /-- DEBUG_RELEASE (R443). -/
  | debugRelease (core : Nat)
  /-- NOP (R240). -/
  | nop
  /-- YIELD (R240). -/
  | yield
  /-- EXIT (R241). -/
  | exit
  /-- BR (R226). -/
  | br (o : BitVec 21)
  /-- CALL (R229). -/
  | call (o : BitVec 21)
  /-- RET (R226). -/
  | ret (a : BitVec 7)
  /-- JMPR (R226). -/
  | jmpr (a : BitVec 7)
  /-- BRS_NZ (R226). -/
  | brsNz (a : BitVec 5) (o : BitVec 19)
  /-- BRS_Z (R226). -/
  | brsZ (a : BitVec 5) (o : BitVec 19)
  /-- BRP_ANY (R226). -/
  | brpAny (p : BitVec 5) (o : BitVec 19)
  /-- BRP_ALL (R226). -/
  | brpAll (p : BitVec 5) (o : BitVec 19)
  /-- BRP_NONE (R226). -/
  | brpNone (p : BitVec 5) (o : BitVec 19)
  /-- MSPLIT (R231). -/
  | msplit (d a : BitVec 7)
  /-- MELSE (R231). -/
  | melse (a b : BitVec 7)
  /-- MJOIN (R231). -/
  | mjoin (a : BitVec 7)
  /-- MPUSH (R237). -/
  | mpush (a b : BitVec 7)
  /-- MPOP (R237). -/
  | mpop (d : BitVec 7)
  /-- EXMRD (R231). -/
  | exmrd (d : BitVec 7)
  /-- EXMWR (R231). -/
  | exmwr (a : BitVec 7)
  /-- BEXZ (R226). -/
  | bexz (o : BitVec 21)
  /-- SYSC (R434). -/
  | sysc (n : BitVec 21)
  /-- HVC (R435). -/
  | hvc (n : BitVec 21)
  /-- RETT (R432). -/
  | rett (r : BitVec 1)
  /-- BKPT (R441). -/
  | bkpt (n : BitVec 21)
  /-- PRD (R431). -/
  | prd (d : BitVec 7) (n : BitVec 12)
  /-- PWR (R431). -/
  | pwr (a : BitVec 7) (n : BitVec 12)
  /-- WDOG (R439). -/
  | wdog (a : BitVec 7)
  /-- HSRC (R167). -/
  | hsrc (c : BitVec 2) (x y z : BitVec 7)
  /-- HMOD (R168). -/
  | hmod (a : BitVec 1) (b : BitVec 2) (c d e : BitVec 1) (f : BitVec 2) (g : BitVec 1) (h : BitVec 5) (i : BitVec 1) (j : BitVec 2)
  /-- HLIVE (R169). -/
  | hlive (b : BitVec 7) (m : BitVec 16)
  /-- HSCH (R170). -/
  | hsch (a : BitVec 1) (b : BitVec 2) (c d e : BitVec 1)
  /-- HIMM (R166). -/
  | himm (p : BitVec 26)
  /-- SADD (R190). -/
  | sadd (d a b : BitVec 7)
  /-- SSUB (R190). -/
  | ssub (d a b : BitVec 7)
  /-- SMUL (R190). -/
  | smul (d a b : BitVec 7)
  /-- SMULH (R190). -/
  | smulh (d a b : BitVec 7)
  /-- SMULHU (R190). -/
  | smulhu (d a b : BitVec 7)
  /-- SAND (R190). -/
  | sand (d a b : BitVec 7)
  /-- SOR (R190). -/
  | sor (d a b : BitVec 7)
  /-- SXOR (R190). -/
  | sxor (d a b : BitVec 7)
  /-- SSHL (R190). -/
  | sshl (d a b : BitVec 7)
  /-- SSHR (R190). -/
  | sshr (d a b : BitVec 7)
  /-- SSRA (R190). -/
  | ssra (d a b : BitVec 7)
  /-- SMIN (R190). -/
  | smin (d a b : BitVec 7)
  /-- SMAX (R190). -/
  | smax (d a b : BitVec 7)
  /-- SMINU (R190). -/
  | sminu (d a b : BitVec 7)
  /-- SMAXU (R190). -/
  | smaxu (d a b : BitVec 7)
  /-- SMOV (R190). -/
  | smov (d a : BitVec 7)
  /-- SCLZ (R190). -/
  | sclz (d a : BitVec 7)
  /-- SCTZ (R190). -/
  | sctz (d a : BitVec 7)
  /-- SPOPC (R190). -/
  | spopc (d a : BitVec 7)
  /-- SADDI (R191). -/
  | saddi (d a : BitVec 7) (i : BitVec 9)
  /-- SANDI (R191). -/
  | sandi (d a : BitVec 7) (i : BitVec 9)
  /-- SORI (R191). -/
  | sori (d a : BitVec 7) (i : BitVec 9)
  /-- SXORI (R191). -/
  | sxori (d a : BitVec 7) (i : BitVec 9)
  /-- SSHLI (R191). -/
  | sshli (d a : BitVec 7) (i : BitVec 6)
  /-- SSHRI (R191). -/
  | sshri (d a : BitVec 7) (i : BitVec 6)
  /-- SSRAI (R191). -/
  | ssrai (d a : BitVec 7) (i : BitVec 6)
  /-- SMOVI (R191). -/
  | smovi (d i : BitVec 7) (j2 : BitVec 9)
  /-- SCMP_EQ (R192). -/
  | scmpEq (d a b : BitVec 7)
  /-- SCMP_NE (R192). -/
  | scmpNe (d a b : BitVec 7)
  /-- SCMP_LT (R192). -/
  | scmpLt (d a b : BitVec 7)
  /-- SCMP_LE (R192). -/
  | scmpLe (d a b : BitVec 7)
  /-- SCMP_LTU (R192). -/
  | scmpLtu (d a b : BitVec 7)
  /-- SCMP_LEU (R192). -/
  | scmpLeu (d a b : BitVec 7)
  /-- SSEL (R192). -/
  | ssel (d a b : BitVec 7)
  /-- SBFX (R192). -/
  | sbfx (d a b : BitVec 7)
  /-- SBFXU (R192). -/
  | sbfxu (d a b : BitVec 7)
  /-- SBFI (R192). -/
  | sbfi (d a b : BitVec 7)
  /-- VADD_I32 (R194). -/
  | vaddI32 (d a b : BitVec 7)
  /-- VADD_N32 (R194). -/
  | vaddN32 (d a b : BitVec 7)
  /-- VSUB_I32 (R194). -/
  | vsubI32 (d a b : BitVec 7)
  /-- VSUB_N32 (R194). -/
  | vsubN32 (d a b : BitVec 7)
  /-- VMUL_I32 (R194). -/
  | vmulI32 (d a b : BitVec 7)
  /-- VMULH_I32 (R194). -/
  | vmulhI32 (d a b : BitVec 7)
  /-- VMULH_N32 (R194). -/
  | vmulhN32 (d a b : BitVec 7)
  /-- VMAD_I32 (R194). -/
  | vmadI32 (d a b : BitVec 7)
  /-- VAND_B32 (R194). -/
  | vandB32 (d a b : BitVec 7)
  /-- VOR_B32 (R194). -/
  | vorB32 (d a b : BitVec 7)
  /-- VXOR_B32 (R194). -/
  | vxorB32 (d a b : BitVec 7)
  /-- VSHL_B32 (R194). -/
  | vshlB32 (d a b : BitVec 7)
  /-- VSHR_N32 (R194). -/
  | vshrN32 (d a b : BitVec 7)
  /-- VSHR_I32 (R194). -/
  | vshrI32 (d a b : BitVec 7)
  /-- VMIN_I32 (R194). -/
  | vminI32 (d a b : BitVec 7)
  /-- VMIN_N32 (R194). -/
  | vminN32 (d a b : BitVec 7)
  /-- VMAX_I32 (R194). -/
  | vmaxI32 (d a b : BitVec 7)
  /-- VMAX_N32 (R194). -/
  | vmaxN32 (d a b : BitVec 7)
  /-- VCLZ_B32 (R194). -/
  | vclzB32 (d a : BitVec 7)
  /-- VPOPC_B32 (R194). -/
  | vpopcB32 (d a : BitVec 7)
  /-- VSEL_B32 (R194). -/
  | vselB32 (d a b : BitVec 7)
  /-- VDOT4_I32 (R194). -/
  | vdot4I32 (d a b : BitVec 7)
  /-- VDOT4_N32 (R194). -/
  | vdot4N32 (d a b : BitVec 7)
  /-- VABS_I32 (R194). -/
  | vabsI32 (d a : BitVec 7)
  /-- VADDI (R197). -/
  | vaddi (d a : BitVec 7) (i : BitVec 9)
  /-- VANDI (R197). -/
  | vandi (d a : BitVec 7) (i : BitVec 9)
  /-- VORI (R197). -/
  | vori (d a : BitVec 7) (i : BitVec 9)
  /-- VXORI (R197). -/
  | vxori (d a : BitVec 7) (i : BitVec 9)
  /-- VSHLI (R197). -/
  | vshli (d a : BitVec 7) (i : BitVec 5)
  /-- VSHRI (R197). -/
  | vshri (d a : BitVec 7) (i : BitVec 5)
  /-- VSRAI (R197). -/
  | vsrai (d a : BitVec 7) (i : BitVec 5)
  /-- VMOVI (R197). -/
  | vmovi (d i : BitVec 7) (j2 : BitVec 9)
  /-- VADD_I64 (R198). -/
  | vaddI64 (d a b : BitVec 7)
  /-- VADD_N64 (R198). -/
  | vaddN64 (d a b : BitVec 7)
  /-- VSUB_I64 (R198). -/
  | vsubI64 (d a b : BitVec 7)
  /-- VSUB_N64 (R198). -/
  | vsubN64 (d a b : BitVec 7)
  /-- VMUL_I64 (R198). -/
  | vmulI64 (d a b : BitVec 7)
  /-- VAND_N64 (R198). -/
  | vandN64 (d a b : BitVec 7)
  /-- VOR_N64 (R198). -/
  | vorN64 (d a b : BitVec 7)
  /-- VXOR_N64 (R198). -/
  | vxorN64 (d a b : BitVec 7)
  /-- VSHL_N64 (R198). -/
  | vshlN64 (d a b : BitVec 7)
  /-- VSHR_N64 (R198). -/
  | vshrN64 (d a b : BitVec 7)
  /-- VSHR_I64 (R198). -/
  | vshrI64 (d a b : BitVec 7)
  /-- VMIN_I64 (R198). -/
  | vminI64 (d a b : BitVec 7)
  /-- VMIN_N64 (R198). -/
  | vminN64 (d a b : BitVec 7)
  /-- VMAX_I64 (R198). -/
  | vmaxI64 (d a b : BitVec 7)
  /-- VMAX_N64 (R198). -/
  | vmaxN64 (d a b : BitVec 7)
  /-- VMULW_I32 (R198). -/
  | vmulwI32 (d a b : BitVec 7)
  /-- VMULW_N32 (R198). -/
  | vmulwN32 (d a b : BitVec 7)
  /-- VADDS_I32 (R199). -/
  | vaddsI32 (d a b : BitVec 7)
  /-- VSUBS_I32 (R199). -/
  | vsubsI32 (d a b : BitVec 7)
  /-- VMULS_I32 (R199). -/
  | vmulsI32 (d a b : BitVec 7)
  /-- VANDS_B32 (R199). -/
  | vandsB32 (d a b : BitVec 7)
  /-- VORS_B32 (R199). -/
  | vorsB32 (d a b : BitVec 7)
  /-- VXORS_B32 (R199). -/
  | vxorsB32 (d a b : BitVec 7)
  /-- VSHLS_B32 (R199). -/
  | vshlsB32 (d a b : BitVec 7)
  /-- VSHRS_N32 (R199). -/
  | vshrsN32 (d a b : BitVec 7)
  /-- VSHRS_I32 (R199). -/
  | vshrsI32 (d a b : BitVec 7)
  /-- VMINS_I32 (R199). -/
  | vminsI32 (d a b : BitVec 7)
  /-- VMAXS_I32 (R199). -/
  | vmaxsI32 (d a b : BitVec 7)
  /-- VADDS_I64 (R199). -/
  | vaddsI64 (d a b : BitVec 7)
  /-- VADD_F32 (R201). -/
  | vaddF32 (d a b : BitVec 7)
  /-- VSUB_F32 (R201). -/
  | vsubF32 (d a b : BitVec 7)
  /-- VMUL_F32 (R201). -/
  | vmulF32 (d a b : BitVec 7)
  /-- VMIN_F32 (R202). -/
  | vminF32 (d a b : BitVec 7)
  /-- VMAX_F32 (R202). -/
  | vmaxF32 (d a b : BitVec 7)
  /-- VABS_F32 (R201). -/
  | vabsF32 (d a : BitVec 7)
  /-- VNEG_F32 (R201). -/
  | vnegF32 (d a : BitVec 7)
  /-- VCPYS_F32 (R201). -/
  | vcpysF32 (d a b : BitVec 7)
  /-- VRINT_F32 (R203). -/
  | vrintF32 (d a : BitVec 7)
  /-- VCLASS_F32 (R203). -/
  | vclassF32 (d a : BitVec 7)
  /-- VADD_F16_BF16 (R204). -/
  | vaddF16Bf16 (d a b : BitVec 7) (f : BitVec 1)
  /-- VSUB_F16_BF16 (R204). -/
  | vsubF16Bf16 (d a b : BitVec 7) (f : BitVec 1)
  /-- VMUL_F16_BF16 (R204). -/
  | vmulF16Bf16 (d a b : BitVec 7) (f : BitVec 1)
  /-- VMIN_F16_BF16 (R204). -/
  | vminF16Bf16 (d a b : BitVec 7) (f : BitVec 1)
  /-- VMAX_F16_BF16 (R204). -/
  | vmaxF16Bf16 (d a b : BitVec 7) (f : BitVec 1)
  /-- VABS_F16_BF16 (R204). -/
  | vabsF16Bf16 (d a : BitVec 7) (f : BitVec 1)
  /-- VNEG_F16_BF16 (R204). -/
  | vnegF16Bf16 (d a : BitVec 7) (f : BitVec 1)
  /-- VFMA_F32 (R205). -/
  | vfmaF32 (d a b : BitVec 7)
  /-- VFMS_F32 (R205). -/
  | vfmsF32 (d a b : BitVec 7)
  /-- VFNMA_F32 (R205). -/
  | vfnmaF32 (d a b : BitVec 7)
  /-- VFNMS_F32 (R205). -/
  | vfnmsF32 (d a b : BitVec 7)
  /-- VFMA_F16_BF16 (R206). -/
  | vfmaF16Bf16 (d a b : BitVec 7) (f : BitVec 1)
  /-- VFMS_F16_BF16 (R206). -/
  | vfmsF16Bf16 (d a b : BitVec 7) (f : BitVec 1)
  /-- VFNMA_F16_BF16 (R206). -/
  | vfnmaF16Bf16 (d a b : BitVec 7) (f : BitVec 1)
  /-- VFNMS_F16_BF16 (R206). -/
  | vfnmsF16Bf16 (d a b : BitVec 7) (f : BitVec 1)
  /-- VDOT2 (R206). -/
  | vdot2 (d a b : BitVec 7) (f : BitVec 1)
  /-- VRCP_F32 (R207). -/
  | vrcpF32 (d a : BitVec 7)
  /-- VRSQRT_F32 (R207). -/
  | vrsqrtF32 (d a : BitVec 7)
  /-- VSQRT_F32 (R207). -/
  | vsqrtF32 (d a : BitVec 7)
  /-- VEXP2_F32 (R207). -/
  | vexp2F32 (d a : BitVec 7)
  /-- VLOG2_F32 (R207). -/
  | vlog2F32 (d a : BitVec 7)
  /-- VSIN_F32 (R207). -/
  | vsinF32 (d a : BitVec 7)
  /-- VCOS_F32 (R207). -/
  | vcosF32 (d a : BitVec 7)
  /-- VTANH_F32 (R207). -/
  | vtanhF32 (d a : BitVec 7)
  /-- VDIV_F32 (R207). -/
  | vdivF32 (d a b : BitVec 7)
  /-- VADDS_F32 (R209). -/
  | vaddsF32 (d a b : BitVec 7)
  /-- VSUBS_F32 (R209). -/
  | vsubsF32 (d a b : BitVec 7)
  /-- VMULS_F32 (R209). -/
  | vmulsF32 (d a b : BitVec 7)
  /-- VFMAS_F32 (R209). -/
  | vfmasF32 (d a b : BitVec 7)
  /-- VMINS_F32 (R209). -/
  | vminsF32 (d a b : BitVec 7)
  /-- VMAXS_F32 (R209). -/
  | vmaxsF32 (d a b : BitVec 7)
  /-- VCVT_WIDE (R211). -/
  | vcvtWide (d a : BitVec 7) (t : BitVec 3) (h g : BitVec 1) (s : BitVec 3)
  /-- VCVT_NARROW_TO_F32 (R212). -/
  | vcvtNarrowToF32 (d a f : BitVec 7) (i : BitVec 3)
  /-- VCVT_F32_TO_NARROW (R213). -/
  | vcvtF32ToNarrow (d a f : BitVec 7) (i : BitVec 3)
  /-- VCMP_EQ_I32 (R214). -/
  | vcmpEqI32 (d a b : BitVec 7)
  /-- VCMP_NE_I32 (R214). -/
  | vcmpNeI32 (d a b : BitVec 7)
  /-- VCMP_LT_I32 (R214). -/
  | vcmpLtI32 (d a b : BitVec 7)
  /-- VCMP_LE_I32 (R214). -/
  | vcmpLeI32 (d a b : BitVec 7)
  /-- VCMP_LT_N32 (R214). -/
  | vcmpLtN32 (d a b : BitVec 7)
  /-- VCMP_LE_N32 (R214). -/
  | vcmpLeN32 (d a b : BitVec 7)
  /-- VCMP_EQ_F32 (R214). -/
  | vcmpEqF32 (d a b : BitVec 7)
  /-- VCMP_NE_F32 (R214). -/
  | vcmpNeF32 (d a b : BitVec 7)
  /-- VCMP_LT_F32 (R214). -/
  | vcmpLtF32 (d a b : BitVec 7)
  /-- VCMP_LE_F32 (R214). -/
  | vcmpLeF32 (d a b : BitVec 7)
  /-- VCMP_UN_F32 (R214). -/
  | vcmpUnF32 (d a b : BitVec 7)
  /-- PAND (R215). -/
  | pand (d a b : BitVec 7)
  /-- POR (R215). -/
  | por (d a b : BitVec 7)
  /-- PXOR (R215). -/
  | pxor (d a b : BitVec 7)
  /-- PANDN (R215). -/
  | pandn (d a b : BitVec 7)
  /-- PNOT (R215). -/
  | pnot (d a : BitVec 7)
  /-- VSHFL (R216). -/
  | vshfl (d a b : BitVec 7)
  /-- VPRM_XOR (R216). -/
  | vprmXor (d a b : BitVec 7)
  /-- VPRM_ROT (R216). -/
  | vprmRot (d a b : BitVec 7)
  /-- VBCST (R216). -/
  | vbcst (d a b : BitVec 7)
  /-- VRED_F32 (R217). -/
  | vredF32 (d a : BitVec 7)
  /-- VRED_I32 (R217). -/
  | vredI32 (d a : BitVec 7)
  /-- VREDMIN_F32 (R217). -/
  | vredminF32 (d a : BitVec 7)
  /-- VREDMAX_F32 (R217). -/
  | vredmaxF32 (d a : BitVec 7)
  /-- VREDMIN_I32 (R217). -/
  | vredminI32 (d a : BitVec 7)
  /-- VREDMAX_I32 (R217). -/
  | vredmaxI32 (d a : BitVec 7)
  /-- VREDAND_B32 (R217). -/
  | vredandB32 (d a : BitVec 7)
  /-- VREDOR_B32 (R217). -/
  | vredorB32 (d a : BitVec 7)
  /-- VSCAN_F32 (R218). -/
  | vscanF32 (d a : BitVec 7)
  /-- VSCAN_I32 (R218). -/
  | vscanI32 (d a : BitVec 7)
  /-- VSCANX_F32 (R218). -/
  | vscanxF32 (d a : BitVec 7)
  /-- VSCANX_I32 (R218). -/
  | vscanxI32 (d a : BitVec 7)
  /-- VMATCH (R219). -/
  | vmatch (d a : BitVec 7)
  /-- SRD (R220). -/
  | srd (d s : BitVec 7)
  /-- FPCRD (R221). -/
  | fpcrd (d : BitVec 7)
  /-- FPCWR (R221). -/
  | fpcwr (a : BitVec 7)
  /-- VMOV (R222). -/
  | vmov (d a : BitVec 7)
  /-- VMOVS (R222). -/
  | vmovs (d a : BitVec 7)
  /-- SMOVV (R222). -/
  | smovv (d a b : BitVec 7)
  /-- VINS (R222). -/
  | vins (d a b : BitVec 7)
  /-- P2S (R222). -/
  | p2s (d a : BitVec 7)
  /-- S2P (R222). -/
  | s2p (d a : BitVec 7)
  /-- VLD (R299). -/
  | vld (d a b : BitVec 7) (z : BitVec 3) (p : BitVec 2)
  /-- VST (R299). -/
  | vst (d a b : BitVec 7) (z : BitVec 3) (p : BitVec 2)
  /-- VLDC (R299). -/
  | vldc (d a : BitVec 7) (z : BitVec 2) (i : BitVec 9)
  /-- VSTC (R299). -/
  | vstc (d a : BitVec 7) (z : BitVec 2) (i : BitVec 9)
  /-- SLD (R299). -/
  | sld (d a : BitVec 7) (z : BitVec 2) (i : BitVec 9)
  /-- SST (R299). -/
  | sst (d a : BitVec 7) (z : BitVec 2) (i : BitVec 9)
  /-- LLD (R297). -/
  | lld (d a b : BitVec 7) (z : BitVec 3)
  /-- LST (R297). -/
  | lst (d a b : BitVec 7) (z : BitVec 3)
  /-- SLDA (R301). -/
  | slda (d a : BitVec 7) (o : BitVec 5) (z : BitVec 1) (p : BitVec 2)
  /-- SSTR (R301). -/
  | sstr (d a : BitVec 7) (o : BitVec 5) (z : BitVec 1) (p : BitVec 2)
  /-- VLDA (R301). -/
  | vlda (d a : BitVec 7) (o : BitVec 5) (z : BitVec 1) (p : BitVec 2)
  /-- VSTR (R301). -/
  | vstr (d a : BitVec 7) (o : BitVec 5) (z : BitVec 1) (p : BitVec 2)
  /-- VATOM (R304). -/
  | vatom (d a b : BitVec 7) (w : BitVec 1) (c : BitVec 4)
  /-- SATOM (R304). -/
  | satom (d a b : BitVec 7) (w : BitVec 1) (c : BitVec 4)
  /-- XCOPY (R312). -/
  | xcopy (d a b : BitVec 7)
  /-- XCOPYT (R314). -/
  | xcopyt (d a b : BitVec 7)
  /-- XGATH (R315). -/
  | xgath (d a b : BitVec 7)
  /-- PFT (R318). -/
  | pft (a b : BitVec 7)
  /-- LOOK (R319). -/
  | look (a b : BitVec 7)
  /-- WAITC (R321). -/
  | waitc (c : BitVec 2) (n : BitVec 6)
  /-- TAGWANY (R322). -/
  | tagwany (a : BitVec 7)
  /-- TAGWALL (R322). -/
  | tagwall (a : BitVec 7)
  /-- TAGFFR (R322). -/
  | tagffr (d a : BitVec 7)
  /-- TAGCLR (R322). -/
  | tagclr (a : BitVec 7)
  /-- TAGRD (R322). -/
  | tagrd (d : BitVec 7)
  /-- FENCE (R392). -/
  | fence (m : BitVec 5)
  /-- FENCE_TC (R393). -/
  | fenceTc
  /-- BAR (R403). -/
  | bar (b : BitVec 4)
  /-- RBAR (R403). -/
  | rbar (b : BitVec 4)
  /-- MCLOSE (R336). -/
  | mclose
  /-- SEND (R409). -/
  | send (a : BitVec 7) (n : BitVec 2) (c : BitVec 6)
  /-- RECV (R410). -/
  | recv (d : BitVec 7) (n : BitVec 2) (c : BitVec 6)
  /-- CHPOLL (R411). -/
  | chpoll (d : BitVec 7) (c : BitVec 6)
  /-- AMSG (R325). -/
  | amsg (d a : BitVec 7) (h : BitVec 6)
  /-- LAUNCH (R122). -/
  | launch (d a b : BitVec 7)
  /-- LWAIT (R123). -/
  | lwait (d a : BitVec 7)
  /-- SPAWN (R124). -/
  | spawn (d a b : BitVec 7)
  /-- TDEF (R125). -/
  | tdef (d a b : BitVec 7)
  /-- MMA (R342). -/
  | mma (a b : BitVec 4) (s : BitVec 7) (z t : BitVec 1)
  /-- MMAS (R343). -/
  | mmas (a b : BitVec 4) (s : BitVec 7) (z t : BitVec 1)
  /-- MMAX (R344). -/
  | mmax (a b : BitVec 4) (s : BitVec 7) (z t : BitVec 1) (m : BitVec 4)
  /-- TCFG (R330). -/
  | tcfg (a : BitVec 4) (s : BitVec 7)
  /-- TLD (R347). -/
  | tld (a : BitVec 4) (s : BitVec 7)
  /-- TST (R347). -/
  | tst (a : BitVec 4) (s : BitVec 7)
  /-- TZERO (R347). -/
  | tzero (a : BitVec 4)
  /-- TXFER (R350). -/
  | txfer (a : BitVec 4) (p : BitVec 2)
  /-- TRECV (R350). -/
  | trecv (a : BitVec 4) (p : BitVec 2)
  /-- AMCP_OUT (R348). -/
  | amcpOut (s : BitVec 7)
  /-- AMCP_IN (R348). -/
  | amcpIn (s : BitVec 7)
  /-- AMZERO (R348). -/
  | amzero (s : BitVec 7)
  /-- XRATOM (R375). -/
  | xratom (d a b : BitVec 7)
  /-- XCOLL (R376). -/
  | xcoll (a b : BitVec 7)
  /-- SEGQ (R269). -/
  | segq (d a : BitVec 7)
  /-- FERRY (R270). -/
  | ferry (a : BitVec 7)
  /-- KSEL (R288). -/
  | ksel (b a d : BitVec 5)
  /-- KLW (R288). -/
  | klw (b a d : BitVec 5)
  /-- KSW (R288). -/
  | ksw (b a d : BitVec 5)
  /-- KFADD (R288). -/
  | kfadd (b a d : BitVec 5)
  /-- KEND (R288). -/
  | kend (b a d : BitVec 5)
  /-- ILLEGAL_INSTRUCTION (R171). -/
  | illegalInstruction (w : Word)
  /-- KEEPER_BASE_INSTRUCTION (R287). -/
  | keeperBaseInstruction (w : Word)
  /-- PREFETCH_COMPLETE (R318). -/
  | prefetchComplete (core n : Nat)
  /-- LANDING_OCCUPANCY_SAMPLE (R258). -/
  | landingOccupancySample (core : Nat)
  /-- LOSS_OF_TRAINING (R364). -/
  | lossOfTraining (port : Nat)
  /-- UPSTREAM_LINK_UP (R36). -/
  | upstreamLinkUp
  /-- STOPPED_WAVE_RESTART (R447). -/
  | stoppedWaveRestart (w : WaveRef) (r : Option WaveRewrite)
  deriving DecidableEq, Repr

end Sys2Proof
end

