-- ==== Sys2Proof/WellFormed.lean ====
section
/-!
DEFINITION. Which instructions are well formed: the operand limits of R160 and of each instruction's own entry, those that
do not depend on the state. An instruction that fails one has no word, and its word raises an illegal-instruction trap.
-/
namespace Sys2Proof

/-- Which operand limit an instruction breaks. -/
inductive OperandError where
  | predicate
  | oddPair
  | quad
  | size
  | privileged
  | count
  | range
  | format
  | half
  | selector
  | zeroMask
  | operation
  | tile
  deriving DecidableEq, Repr

/-- The numbers that the privileged register table assigns (R422). -/
def privAssigned (n : BitVec 12) : Bool := decide (n.toNat ≤ 13) || (decide (16 ≤ n.toNat) && decide (n.toNat ≤ 18))

/-- Whether a 7-bit narrow format code is assigned (R67, R175): [6:5] K, [4] unsigned, [3] finite, [2:0] P. -/
def narrowCode (f : BitVec 7) : Bool :=
  let p := f.toNat % 8
  match f.toNat / 32 with
  | 1 => decide (1 ≤ p)
  | 2 => decide (1 ≤ p ∧ p ≤ 5)
  | 3 => decide (1 ≤ p ∧ p ≤ 3)
  | _ => false

/-- The first limit that an instruction breaks, if any (R160, R163 to R179, and the instruction's own entry). -/
def Instr.check : Instr → Option OperandError
  | .powerGood _ => none
  | .startupStepTimeout _ => none
  | .powerRemoval => none
  | .upstreamHotReset => none
  | .linkDown => none
  | .functionLevelReset _ => none
  | .operatingPointLower _ => none
  | .operatingPointRaise _ => none
  | .operatingPointCeiling _ _ => none
  | .viBuild _ _ => none
  | .viStart _ => none
  | .freezeRequest _ => none
  | .viResume _ => none
  | .viTeardown _ => none
  | .teardownComplete _ => none
  | .supervisorBudgetExpiry _ => none
  | .kick _ _ _ _ => none
  | .queueStart _ _ _ => none
  | .queueStop _ _ _ => none
  | .slotRead _ _ => none
  | .staleKickTimeout _ _ => none
  | .dispatch => none
  | .candidateReserved _ => none
  | .reachStart _ _ => none
  | .ferryGridStart _ => none
  | .spawnBinTimeout _ _ => none
  | .binWaveStart _ _ => none
  | .waveBoost _ => none
  | .clauseStart _ => none
  | .fetchFillComplete _ => none
  | .lookoutStart _ => none
  | .lookoutTimeout _ => none
  | .longLatencyComplete _ _ => none
  | .terminalInstructionComplete _ => none
  | .barrierComplete _ => none
  | .trapEntry _ => none
  | .engineFailureTrap _ => none
  | .watchdogExpiry _ => none
  | .watchdogTrap _ => none
  | .singleStepTrap _ => none
  | .exitTakesEffect _ => none
  | .teamComplete _ _ => none
  | .gridRetire _ => none
  | .travellerDepart _ => none
  | .travellerArrival _ => none
  | .travellerReoffer _ _ => none
  | .overflowTake _ => none
  | .landingQueueAdvance _ => none
  | .segmentReplication _ _ => none
  | .replicaLoadComplete _ _ => none
  | .pincmdPin _ _ => none
  | .pincmdUnpin _ _ => none
  | .pinWindowComplete _ _ => none
  | .ownershipTransfer _ => none
  | .ownershipHoldExpiry _ => none
  | .keeperMessage _ => none
  | .keeperRelease _ => none
  | .keeperStrike _ => none
  | .copyComplete _ _ => none
  | .gatherComplete _ _ => none
  | .collectiveComplete _ _ => none
  | .xratomResult _ _ => none
  | .amsgReply _ => none
  | .matrixOpBegin _ _ => none
  | .matrixOpComplete _ _ => none
  | .readShared _ => none
  | .readOwn _ => none
  | .upgrade _ => none
  | .writeback _ => none
  | .controlAtomic _ => none
  | .dataShared _ => none
  | .dataExclusive _ => none
  | .completion _ => none
  | .forwardedRead _ => none
  | .invalidate _ => none
  | .acknowledgement _ => none
  | .mirrorUpdate _ => none
  | .mirrorAcknowledgement _ => none
  | .tensorRead _ => none
  | .tensorWrite _ => none
  | .remoteAtomic _ => none
  | .collectiveData _ => none
  | .readData _ => none
  | .writeCompletion _ => none
  | .atomicResult _ => none
  | .collectiveAcknowledgement _ => none
  | .faultRefusal _ => none
  | .frozenRefusal _ => none
  | .faultPageResume _ _ => none
  | .faultPageAbort _ _ => none
  | .streamResume _ => none
  | .streamAbort _ => none
  | .tensorRequestTimeout _ => none
  | .controlRequestTimeout _ => none
  | .linkReplay _ => none
  | .portTraining _ => none
  | .capabilityRecordSend _ => none
  | .capabilityRecord _ _ => none
  | .spdmMessage _ _ => none
  | .measurementAccept _ _ => none
  | .portRunCommand _ => none
  | .portRetrain _ => none
  | .keyUpdate _ => none
  | .linkStateSend => none
  | .linkState _ _ => none
  | .peerLost _ => none
  | .sharerRecall _ _ => none
  | .adoptionServe _ => none
  | .ringInjection _ _ => none
  | .ringSharedMove _ _ => none
  | .ringEscapeMove _ _ => none
  | .ringEject _ _ => none
  | .channelPacketArrival _ => none
  | .channelAccept _ _ _ => none
  | .channelReject _ _ _ => none
  | .channelReoffer _ _ _ => none
  | .cpsend _ _ => none
  | .cprecv _ _ => none
  | .cppoll _ => none
  | .cptabWrite _ _ _ => none
  | .chentWrite _ _ => none
  | .tlbinv _ _ => none
  | .tlbinvComplete _ => none
  | .capinv _ _ => none
  | .capinvComplete _ => none
  | .registerWrite _ _ => none
  | .hostPostedWrite _ _ => none
  | .hostRead _ _ => none
  | .strike _ => none
  | .strikeReport _ => none
  | .quarantineRelease _ => none
  | .entryConfirm _ => none
  | .uncorrectableError _ => none
  | .poisonConsumed _ _ => none
  | .preemptRequest _ => none
  | .pgraceExpiry _ => none
  | .engineStopped _ _ => none
  | .preemptResume _ => none
  | .debugHalt _ => none
  | .debugRelease _ => none
  | .nop => none
  | .yield => none
  | .exit => none
  | .br _ => none
  | .call _ => none
  | .ret _ => none
  | .jmpr _ => none
  | .brsNz _ _ => none
  | .brsZ _ _ => none
  | .brpAny p _ =>
    if 11 < p.toNat then some .predicate else none
  | .brpAll p _ =>
    if 11 < p.toNat then some .predicate else none
  | .brpNone p _ =>
    if 11 < p.toNat then some .predicate else none
  | .msplit _ a =>
    if 11 < a.toNat then some .predicate else none
  | .melse _ b =>
    if 11 < b.toNat then some .predicate else none
  | .mjoin _ => none
  | .mpush _ _ => none
  | .mpop d =>
    if d.toNat % 2 = 1 then some .oddPair else none
  | .exmrd _ => none
  | .exmwr _ => none
  | .bexz _ => none
  | .sysc _ => none
  | .hvc _ => none
  | .rett _ => none
  | .bkpt _ => none
  | .prd d n =>
    if privAssigned n = false then some .privileged else if n = 5 ∧ d.toNat % 2 = 1 then some .oddPair else none
  | .pwr a n =>
    if privAssigned n = false then some .privileged else if n = 5 ∧ a.toNat % 2 = 1 then some .oddPair else none
  | .wdog _ => none
  | .hsrc c _ y z =>
    if c = 0 then some .count else if (c.toNat < 3 ∧ z ≠ 0) ∨ (c.toNat < 2 ∧ y ≠ 0) then some .count else none
  | .hmod _ _ _ _ _ _ _ _ _ _ => none
  | .hlive b m =>
    if 127 < b.toNat + Nat.log2 m.toNat then some .range else none
  | .hsch _ _ _ _ _ => none
  | .himm _ => none
  | .sadd _ _ _ => none
  | .ssub _ _ _ => none
  | .smul _ _ _ => none
  | .smulh _ _ _ => none
  | .smulhu _ _ _ => none
  | .sand _ _ _ => none
  | .sor _ _ _ => none
  | .sxor _ _ _ => none
  | .sshl _ _ _ => none
  | .sshr _ _ _ => none
  | .ssra _ _ _ => none
  | .smin _ _ _ => none
  | .smax _ _ _ => none
  | .sminu _ _ _ => none
  | .smaxu _ _ _ => none
  | .smov _ _ => none
  | .sclz _ _ => none
  | .sctz _ _ => none
  | .spopc _ _ => none
  | .saddi _ _ _ => none
  | .sandi _ _ _ => none
  | .sori _ _ _ => none
  | .sxori _ _ _ => none
  | .sshli _ _ _ => none
  | .sshri _ _ _ => none
  | .ssrai _ _ _ => none
  | .smovi _ _ _ => none
  | .scmpEq _ _ _ => none
  | .scmpNe _ _ _ => none
  | .scmpLt _ _ _ => none
  | .scmpLe _ _ _ => none
  | .scmpLtu _ _ _ => none
  | .scmpLeu _ _ _ => none
  | .ssel _ _ _ => none
  | .sbfx _ _ _ => none
  | .sbfxu _ _ _ => none
  | .sbfi _ _ _ => none
  | .vaddI32 _ _ _ => none
  | .vaddN32 _ _ _ => none
  | .vsubI32 _ _ _ => none
  | .vsubN32 _ _ _ => none
  | .vmulI32 _ _ _ => none
  | .vmulhI32 _ _ _ => none
  | .vmulhN32 _ _ _ => none
  | .vmadI32 _ _ _ => none
  | .vandB32 _ _ _ => none
  | .vorB32 _ _ _ => none
  | .vxorB32 _ _ _ => none
  | .vshlB32 _ _ _ => none
  | .vshrN32 _ _ _ => none
  | .vshrI32 _ _ _ => none
  | .vminI32 _ _ _ => none
  | .vminN32 _ _ _ => none
  | .vmaxI32 _ _ _ => none
  | .vmaxN32 _ _ _ => none
  | .vclzB32 _ _ => none
  | .vpopcB32 _ _ => none
  | .vselB32 _ _ _ => none
  | .vdot4I32 _ _ _ => none
  | .vdot4N32 _ _ _ => none
  | .vabsI32 _ _ => none
  | .vaddi _ _ _ => none
  | .vandi _ _ _ => none
  | .vori _ _ _ => none
  | .vxori _ _ _ => none
  | .vshli _ _ _ => none
  | .vshri _ _ _ => none
  | .vsrai _ _ _ => none
  | .vmovi _ _ _ => none
  | .vaddI64 d a b =>
    if d.toNat % 2 = 1 ∨ a.toNat % 2 = 1 ∨ b.toNat % 2 = 1 then some .oddPair else none
  | .vaddN64 d a b =>
    if d.toNat % 2 = 1 ∨ a.toNat % 2 = 1 ∨ b.toNat % 2 = 1 then some .oddPair else none
  | .vsubI64 d a b =>
    if d.toNat % 2 = 1 ∨ a.toNat % 2 = 1 ∨ b.toNat % 2 = 1 then some .oddPair else none
  | .vsubN64 d a b =>
    if d.toNat % 2 = 1 ∨ a.toNat % 2 = 1 ∨ b.toNat % 2 = 1 then some .oddPair else none
  | .vmulI64 d a b =>
    if d.toNat % 2 = 1 ∨ a.toNat % 2 = 1 ∨ b.toNat % 2 = 1 then some .oddPair else none
  | .vandN64 d a b =>
    if d.toNat % 2 = 1 ∨ a.toNat % 2 = 1 ∨ b.toNat % 2 = 1 then some .oddPair else none
  | .vorN64 d a b =>
    if d.toNat % 2 = 1 ∨ a.toNat % 2 = 1 ∨ b.toNat % 2 = 1 then some .oddPair else none
  | .vxorN64 d a b =>
    if d.toNat % 2 = 1 ∨ a.toNat % 2 = 1 ∨ b.toNat % 2 = 1 then some .oddPair else none
  | .vshlN64 d a b =>
    if d.toNat % 2 = 1 ∨ a.toNat % 2 = 1 ∨ b.toNat % 2 = 1 then some .oddPair else none
  | .vshrN64 d a b =>
    if d.toNat % 2 = 1 ∨ a.toNat % 2 = 1 ∨ b.toNat % 2 = 1 then some .oddPair else none
  | .vshrI64 d a b =>
    if d.toNat % 2 = 1 ∨ a.toNat % 2 = 1 ∨ b.toNat % 2 = 1 then some .oddPair else none
  | .vminI64 d a b =>
    if d.toNat % 2 = 1 ∨ a.toNat % 2 = 1 ∨ b.toNat % 2 = 1 then some .oddPair else none
  | .vminN64 d a b =>
    if d.toNat % 2 = 1 ∨ a.toNat % 2 = 1 ∨ b.toNat % 2 = 1 then some .oddPair else none
  | .vmaxI64 d a b =>
    if d.toNat % 2 = 1 ∨ a.toNat % 2 = 1 ∨ b.toNat % 2 = 1 then some .oddPair else none
  | .vmaxN64 d a b =>
    if d.toNat % 2 = 1 ∨ a.toNat % 2 = 1 ∨ b.toNat % 2 = 1 then some .oddPair else none
  | .vmulwI32 d _ _ =>
    if d.toNat % 2 = 1 then some .oddPair else none
  | .vmulwN32 d _ _ =>
    if d.toNat % 2 = 1 then some .oddPair else none
  | .vaddsI32 _ _ _ => none
  | .vsubsI32 _ _ _ => none
  | .vmulsI32 _ _ _ => none
  | .vandsB32 _ _ _ => none
  | .vorsB32 _ _ _ => none
  | .vxorsB32 _ _ _ => none
  | .vshlsB32 _ _ _ => none
  | .vshrsN32 _ _ _ => none
  | .vshrsI32 _ _ _ => none
  | .vminsI32 _ _ _ => none
  | .vmaxsI32 _ _ _ => none
  | .vaddsI64 d a _ =>
    if d.toNat % 2 = 1 ∨ a.toNat % 2 = 1 then some .oddPair else none
  | .vaddF32 _ _ _ => none
  | .vsubF32 _ _ _ => none
  | .vmulF32 _ _ _ => none
  | .vminF32 _ _ _ => none
  | .vmaxF32 _ _ _ => none
  | .vabsF32 _ _ => none
  | .vnegF32 _ _ => none
  | .vcpysF32 _ _ _ => none
  | .vrintF32 _ _ => none
  | .vclassF32 _ _ => none
  | .vaddF16Bf16 _ _ _ _ => none
  | .vsubF16Bf16 _ _ _ _ => none
  | .vmulF16Bf16 _ _ _ _ => none
  | .vminF16Bf16 _ _ _ _ => none
  | .vmaxF16Bf16 _ _ _ _ => none
  | .vabsF16Bf16 _ _ _ => none
  | .vnegF16Bf16 _ _ _ => none
  | .vfmaF32 _ _ _ => none
  | .vfmsF32 _ _ _ => none
  | .vfnmaF32 _ _ _ => none
  | .vfnmsF32 _ _ _ => none
  | .vfmaF16Bf16 _ _ _ _ => none
  | .vfmsF16Bf16 _ _ _ _ => none
  | .vfnmaF16Bf16 _ _ _ _ => none
  | .vfnmsF16Bf16 _ _ _ _ => none
  | .vdot2 _ _ _ _ => none
  | .vrcpF32 _ _ => none
  | .vrsqrtF32 _ _ => none
  | .vsqrtF32 _ _ => none
  | .vexp2F32 _ _ => none
  | .vlog2F32 _ _ => none
  | .vsinF32 _ _ => none
  | .vcosF32 _ _ => none
  | .vtanhF32 _ _ => none
  | .vdivF32 _ _ _ => none
  | .vaddsF32 _ _ _ => none
  | .vsubsF32 _ _ _ => none
  | .vmulsF32 _ _ _ => none
  | .vfmasF32 _ _ _ => none
  | .vminsF32 _ _ _ => none
  | .vmaxsF32 _ _ _ => none
  | .vcvtWide d a t h g s =>
    if t.toNat = 7 ∨ s.toNat = 7 then some .format else if (h = 1 ∧ s.toNat ≠ 1 ∧ s.toNat ≠ 2) ∨ (g = 1 ∧ t.toNat ≠ 1 ∧ t.toNat ≠ 2) then some .half else if (5 ≤ s.toNat ∧ a.toNat % 2 = 1) ∨ (5 ≤ t.toNat ∧ d.toNat % 2 = 1) then some .oddPair else none
  | .vcvtNarrowToF32 _ _ f i =>
    if narrowCode f = false then some .format else if f.toNat / 32 ≠ 3 ∧ 3 < i.toNat then some .range else none
  | .vcvtF32ToNarrow _ _ f i =>
    if narrowCode f = false then some .format else if f.toNat / 32 ≠ 3 ∧ 3 < i.toNat then some .range else none
  | .vcmpEqI32 d _ _ =>
    if 11 < d.toNat then some .predicate else none
  | .vcmpNeI32 d _ _ =>
    if 11 < d.toNat then some .predicate else none
  | .vcmpLtI32 d _ _ =>
    if 11 < d.toNat then some .predicate else none
  | .vcmpLeI32 d _ _ =>
    if 11 < d.toNat then some .predicate else none
  | .vcmpLtN32 d _ _ =>
    if 11 < d.toNat then some .predicate else none
  | .vcmpLeN32 d _ _ =>
    if 11 < d.toNat then some .predicate else none
  | .vcmpEqF32 d _ _ =>
    if 11 < d.toNat then some .predicate else none
  | .vcmpNeF32 d _ _ =>
    if 11 < d.toNat then some .predicate else none
  | .vcmpLtF32 d _ _ =>
    if 11 < d.toNat then some .predicate else none
  | .vcmpLeF32 d _ _ =>
    if 11 < d.toNat then some .predicate else none
  | .vcmpUnF32 d _ _ =>
    if 11 < d.toNat then some .predicate else none
  | .pand d a b =>
    if 11 < d.toNat ∨ 11 < a.toNat ∨ 11 < b.toNat then some .predicate else none
  | .por d a b =>
    if 11 < d.toNat ∨ 11 < a.toNat ∨ 11 < b.toNat then some .predicate else none
  | .pxor d a b =>
    if 11 < d.toNat ∨ 11 < a.toNat ∨ 11 < b.toNat then some .predicate else none
  | .pandn d a b =>
    if 11 < d.toNat ∨ 11 < a.toNat ∨ 11 < b.toNat then some .predicate else none
  | .pnot d a =>
    if 11 < d.toNat ∨ 11 < a.toNat then some .predicate else none
  | .vshfl _ _ _ => none
  | .vprmXor _ _ _ => none
  | .vprmRot _ _ _ => none
  | .vbcst _ _ _ => none
  | .vredF32 _ _ => none
  | .vredI32 _ _ => none
  | .vredminF32 _ _ => none
  | .vredmaxF32 _ _ => none
  | .vredminI32 _ _ => none
  | .vredmaxI32 _ _ => none
  | .vredandB32 _ _ => none
  | .vredorB32 _ _ => none
  | .vscanF32 _ _ => none
  | .vscanI32 _ _ => none
  | .vscanxF32 _ _ => none
  | .vscanxI32 _ _ => none
  | .vmatch d _ =>
    if d.toNat % 2 = 1 then some .oddPair else none
  | .srd _ s =>
    if 7 < s.toNat then some .selector else none
  | .fpcrd _ => none
  | .fpcwr _ => none
  | .vmov _ _ => none
  | .vmovs _ _ => none
  | .smovv _ _ _ => none
  | .vins _ _ _ => none
  | .p2s _ a =>
    if 11 < a.toNat then some .predicate else none
  | .s2p d _ =>
    if 11 < d.toNat then some .predicate else none
  | .vld d a _ z _ =>
    if 4 < z.toNat then some .size else if a.toNat % 2 = 1 ∨ (z.toNat = 3 ∧ d.toNat % 2 = 1) then some .oddPair else if z.toNat = 4 ∧ d.toNat % 4 ≠ 0 then some .quad else none
  | .vst d a _ z _ =>
    if 4 < z.toNat then some .size else if a.toNat % 2 = 1 ∨ (z.toNat = 3 ∧ d.toNat % 2 = 1) then some .oddPair else if z.toNat = 4 ∧ d.toNat % 4 ≠ 0 then some .quad else none
  | .vldc d _ z _ =>
    if z.toNat = 3 then some .size else if z.toNat = 1 ∧ d.toNat % 2 = 1 then some .oddPair else if z.toNat = 2 ∧ d.toNat % 4 ≠ 0 then some .quad else none
  | .vstc d _ z _ =>
    if z.toNat = 3 then some .size else if z.toNat = 1 ∧ d.toNat % 2 = 1 then some .oddPair else if z.toNat = 2 ∧ d.toNat % 4 ≠ 0 then some .quad else none
  | .sld _ _ _ _ => none
  | .sst _ _ _ _ => none
  | .lld d _ _ z =>
    if 4 < z.toNat then some .size else if z.toNat = 3 ∧ d.toNat % 2 = 1 then some .oddPair else if z.toNat = 4 ∧ d.toNat % 4 ≠ 0 then some .quad else none
  | .lst d _ _ z =>
    if 4 < z.toNat then some .size else if z.toNat = 3 ∧ d.toNat % 2 = 1 then some .oddPair else if z.toNat = 4 ∧ d.toNat % 4 ≠ 0 then some .quad else none
  | .slda _ _ o _ _ =>
    if o = 0 then some .zeroMask else none
  | .sstr _ _ o _ _ =>
    if o = 0 then some .zeroMask else none
  | .vlda d a o z _ =>
    if o = 0 then some .zeroMask else if a.toNat % 2 = 1 ∨ (z = 1 ∧ d.toNat % 2 = 1) then some .oddPair else none
  | .vstr d a o z _ =>
    if o = 0 then some .zeroMask else if a.toNat % 2 = 1 ∨ (z = 1 ∧ d.toNat % 2 = 1) then some .oddPair else none
  | .vatom d a b w c =>
    if 12 < c.toNat ∨ (w = 1 ∧ 9 < c.toNat) then some .operation else if a.toNat % 2 = 1 ∨ (w = 1 ∧ (d.toNat % 2 = 1 ∨ b.toNat % 2 = 1)) then some .oddPair else none
  | .satom _ _ _ w c =>
    if 12 < c.toNat ∨ (w = 1 ∧ 9 < c.toNat) then some .operation else none
  | .xcopy _ _ _ => none
  | .xcopyt _ _ _ => none
  | .xgath _ a _ =>
    if a.toNat % 2 = 1 then some .oddPair else none
  | .pft _ _ => none
  | .look a _ =>
    if a.toNat % 2 = 1 then some .oddPair else none
  | .waitc _ n =>
    if n = 0 then some .count else none
  | .tagwany _ => none
  | .tagwall _ => none
  | .tagffr _ _ => none
  | .tagclr _ => none
  | .tagrd _ => none
  | .fence m =>
    if m = 0 then some .zeroMask else none
  | .fenceTc => none
  | .bar _ => none
  | .rbar _ => none
  | .mclose => none
  | .send a n _ =>
    if 127 < a.toNat + n.toNat then some .range else none
  | .recv d n _ =>
    if 127 < d.toNat + n.toNat then some .range else none
  | .chpoll _ _ => none
  | .amsg d _ _ =>
    if d.toNat % 2 = 1 then some .oddPair else none
  | .launch _ _ _ => none
  | .lwait _ _ => none
  | .spawn d _ b =>
    if 11 < d.toNat then some .predicate else if b.toNat % 2 = 1 then some .oddPair else none
  | .tdef _ _ _ => none
  | .mma _ _ _ _ _ => none
  | .mmas _ _ _ _ _ => none
  | .mmax a b _ _ _ m =>
    if b.toNat % 2 = 1 then some .oddPair else if m = a ∨ m = b ∨ m.toNat = b.toNat + 1 then some .tile else none
  | .tcfg _ _ => none
  | .tld _ _ => none
  | .tst _ _ => none
  | .tzero _ => none
  | .txfer _ _ => none
  | .trecv _ _ => none
  | .amcpOut _ => none
  | .amcpIn _ => none
  | .amzero _ => none
  | .xratom _ _ _ => none
  | .xcoll _ _ => none
  | .segq _ _ => none
  | .ferry _ => none
  | .ksel _ _ _ => none
  | .klw _ _ _ => none
  | .ksw _ _ _ => none
  | .kfadd _ _ _ => none
  | .kend _ _ _ => none
  | .illegalInstruction _ => none
  | .keeperBaseInstruction _ => none
  | .prefetchComplete _ _ => none
  | .landingOccupancySample _ => none
  | .lossOfTraining _ => none
  | .upstreamLinkUp => none
  | .stoppedWaveRestart _ _ => none

/-- Well-formedness: no operand limit is broken. -/
def Instr.WellFormed (i : Instr) : Bool := i.check.isNone

end Sys2Proof
end

