-- ==== Sys2Proof/Decode.lean ====
section
/-!
DEFINITION. The decoder and the encoder, from the opcode map (R159, R171 to R179, R120, R225, R230, R288). `bf n lo k` is
the k-bit field of a word from bit `lo` up. The word's bytes are little-endian (R7).
`noncomputable` here only says that Lean's compiler cannot build a constructor numbered above 244; the kernel evaluates
these definitions.
-/
namespace Sys2Proof

/-- Field [lo + k - 1 : lo] of a word. -/
def bf (n lo k : Nat) : BitVec k := BitVec.ofNat k (n / 2 ^ lo)

/-- The same field as a number. -/
def bn (n lo k : Nat) : Nat := n / 2 ^ lo % 2 ^ k

/-- Why a word is no instruction: its major or minor encoding is unassigned or a field marked zero is not zero (R171), or
an operand breaks a limit (R160). -/
inductive DecodeError where
  | unassigned (op6 : Nat)
  | operand (e : OperandError)
  | short
  deriving DecidableEq, Repr

/-- Words whose op6 is 0x01. -/
def decode01 (n : Nat) : Except DecodeError Instr :=
  if bn n 0 26 = 0 then .ok .nop else
  if bn n 0 26 = 2097152 then .ok .yield else
  if bn n 0 26 = 4194304 then .ok .exit else
  .error (.unassigned 1)

/-- Words whose op6 is 0x02. -/
def decode02 (n : Nat) : Except DecodeError Instr :=
  if bn n 21 5 = 0 then .ok (.br (bf n 0 21)) else
  if bn n 21 5 = 1 then .ok (.call (bf n 0 21)) else
  if bn n 0 14 = 0 ∧ bn n 21 5 = 2 then .ok (.ret (bf n 14 7)) else
  if bn n 0 14 = 0 ∧ bn n 21 5 = 3 then .ok (.jmpr (bf n 14 7)) else
  .error (.unassigned 2)

/-- Words whose op6 is 0x03. -/
def decode03 (n : Nat) : Except DecodeError Instr :=
  if bn n 19 2 = 0 then .ok (.brsNz (bf n 21 5) (bf n 0 19)) else
  if bn n 19 2 = 1 then .ok (.brsZ (bf n 21 5) (bf n 0 19)) else
  .error (.unassigned 3)

/-- Words whose op6 is 0x04. -/
def decode04 (n : Nat) : Except DecodeError Instr :=
  if bn n 19 2 = 0 then .ok (.brpAny (bf n 21 5) (bf n 0 19)) else
  if bn n 19 2 = 1 then .ok (.brpAll (bf n 21 5) (bf n 0 19)) else
  if bn n 19 2 = 2 then .ok (.brpNone (bf n 21 5) (bf n 0 19)) else
  .error (.unassigned 4)

/-- Words whose op6 is 0x05. -/
def decode05 (n : Nat) : Except DecodeError Instr :=
  if bn n 0 12 = 0 then .ok (.msplit (bf n 19 7) (bf n 12 7)) else
  if bn n 0 5 = 1 ∧ bn n 19 7 = 0 then .ok (.melse (bf n 12 7) (bf n 5 7)) else
  if bn n 0 12 = 2 ∧ bn n 19 7 = 0 then .ok (.mjoin (bf n 12 7)) else
  if bn n 0 5 = 3 ∧ bn n 19 7 = 0 then .ok (.mpush (bf n 12 7) (bf n 5 7)) else
  if bn n 0 19 = 4 then .ok (.mpop (bf n 19 7)) else
  if bn n 0 19 = 5 then .ok (.exmrd (bf n 19 7)) else
  if bn n 0 12 = 6 ∧ bn n 19 7 = 0 then .ok (.exmwr (bf n 12 7)) else
  if bn n 0 5 = 7 then .ok (.bexz (bf n 5 21)) else
  .error (.unassigned 5)

/-- Words whose op6 is 0x06. -/
def decode06 (n : Nat) : Except DecodeError Instr :=
  if bn n 21 5 = 0 then .ok (.sysc (bf n 0 21)) else
  if bn n 21 5 = 1 then .ok (.hvc (bf n 0 21)) else
  if bn n 1 25 = 2097152 then .ok (.rett (bf n 0 1)) else
  if bn n 21 5 = 3 then .ok (.bkpt (bf n 0 21)) else
  if bn n 12 2 = 0 ∧ bn n 21 5 = 4 then .ok (.prd (bf n 14 7) (bf n 0 12)) else
  if bn n 12 2 = 0 ∧ bn n 21 5 = 5 then .ok (.pwr (bf n 14 7) (bf n 0 12)) else
  if bn n 0 14 = 0 ∧ bn n 21 5 = 6 then .ok (.wdog (bf n 14 7)) else
  .error (.unassigned 6)

/-- Words whose op6 is 0x07. -/
def decode07 (n : Nat) : Except DecodeError Instr :=
  if bn n 23 3 = 0 then .ok (.hsrc (bf n 21 2) (bf n 14 7) (bf n 7 7) (bf n 0 7)) else
  if bn n 0 7 = 0 ∧ bn n 24 2 = 1 then .ok (.hmod (bf n 23 1) (bf n 21 2) (bf n 20 1) (bf n 19 1) (bf n 18 1) (bf n 16 2) (bf n 15 1) (bf n 10 5) (bf n 9 1) (bf n 7 2)) else
  if bn n 16 1 = 0 ∧ bn n 24 2 = 2 then .ok (.hlive (bf n 17 7) (bf n 0 16)) else
  if bn n 0 18 = 0 ∧ bn n 24 2 = 3 then .ok (.hsch (bf n 23 1) (bf n 21 2) (bf n 20 1) (bf n 19 1) (bf n 18 1)) else
  .error (.unassigned 7)

/-- Words whose op6 is 0x08. -/
def decode08 (n : Nat) : Except DecodeError Instr :=
  .ok (.himm (bf n 0 26))

/-- Words whose op6 is 0x09. -/
def decode09 (n : Nat) : Except DecodeError Instr :=
  if bn n 0 5 = 0 then .ok (.sadd (bf n 19 7) (bf n 12 7) (bf n 5 7)) else
  if bn n 0 5 = 1 then .ok (.ssub (bf n 19 7) (bf n 12 7) (bf n 5 7)) else
  if bn n 0 5 = 2 then .ok (.smul (bf n 19 7) (bf n 12 7) (bf n 5 7)) else
  if bn n 0 5 = 3 then .ok (.smulh (bf n 19 7) (bf n 12 7) (bf n 5 7)) else
  if bn n 0 5 = 4 then .ok (.smulhu (bf n 19 7) (bf n 12 7) (bf n 5 7)) else
  if bn n 0 5 = 5 then .ok (.sand (bf n 19 7) (bf n 12 7) (bf n 5 7)) else
  if bn n 0 5 = 6 then .ok (.sor (bf n 19 7) (bf n 12 7) (bf n 5 7)) else
  if bn n 0 5 = 7 then .ok (.sxor (bf n 19 7) (bf n 12 7) (bf n 5 7)) else
  if bn n 0 5 = 8 then .ok (.sshl (bf n 19 7) (bf n 12 7) (bf n 5 7)) else
  if bn n 0 5 = 9 then .ok (.sshr (bf n 19 7) (bf n 12 7) (bf n 5 7)) else
  if bn n 0 5 = 10 then .ok (.ssra (bf n 19 7) (bf n 12 7) (bf n 5 7)) else
  if bn n 0 5 = 11 then .ok (.smin (bf n 19 7) (bf n 12 7) (bf n 5 7)) else
  if bn n 0 5 = 12 then .ok (.smax (bf n 19 7) (bf n 12 7) (bf n 5 7)) else
  if bn n 0 5 = 13 then .ok (.sminu (bf n 19 7) (bf n 12 7) (bf n 5 7)) else
  if bn n 0 5 = 14 then .ok (.smaxu (bf n 19 7) (bf n 12 7) (bf n 5 7)) else
  if bn n 0 12 = 15 then .ok (.smov (bf n 19 7) (bf n 12 7)) else
  if bn n 0 12 = 16 then .ok (.sclz (bf n 19 7) (bf n 12 7)) else
  if bn n 0 12 = 17 then .ok (.sctz (bf n 19 7) (bf n 12 7)) else
  if bn n 0 12 = 18 then .ok (.spopc (bf n 19 7) (bf n 12 7)) else
  .error (.unassigned 9)

/-- Words whose op6 is 0x0a. -/
def decode0A (n : Nat) : Except DecodeError Instr :=
  if bn n 9 3 = 0 then .ok (.saddi (bf n 19 7) (bf n 12 7) (bf n 0 9)) else
  if bn n 9 3 = 1 then .ok (.sandi (bf n 19 7) (bf n 12 7) (bf n 0 9)) else
  if bn n 9 3 = 2 then .ok (.sori (bf n 19 7) (bf n 12 7) (bf n 0 9)) else
  if bn n 9 3 = 3 then .ok (.sxori (bf n 19 7) (bf n 12 7) (bf n 0 9)) else
  if bn n 6 6 = 32 then .ok (.sshli (bf n 19 7) (bf n 12 7) (bf n 0 6)) else
  if bn n 6 6 = 40 then .ok (.sshri (bf n 19 7) (bf n 12 7) (bf n 0 6)) else
  if bn n 6 6 = 48 then .ok (.ssrai (bf n 19 7) (bf n 12 7) (bf n 0 6)) else
  if bn n 9 3 = 7 then .ok (.smovi (bf n 19 7) (bf n 12 7) (bf n 0 9)) else
  .error (.unassigned 10)

/-- Words whose op6 is 0x0b. -/
def decode0B (n : Nat) : Except DecodeError Instr :=
  if bn n 0 5 = 0 then .ok (.scmpEq (bf n 19 7) (bf n 12 7) (bf n 5 7)) else
  if bn n 0 5 = 1 then .ok (.scmpNe (bf n 19 7) (bf n 12 7) (bf n 5 7)) else
  if bn n 0 5 = 2 then .ok (.scmpLt (bf n 19 7) (bf n 12 7) (bf n 5 7)) else
  if bn n 0 5 = 3 then .ok (.scmpLe (bf n 19 7) (bf n 12 7) (bf n 5 7)) else
  if bn n 0 5 = 4 then .ok (.scmpLtu (bf n 19 7) (bf n 12 7) (bf n 5 7)) else
  if bn n 0 5 = 5 then .ok (.scmpLeu (bf n 19 7) (bf n 12 7) (bf n 5 7)) else
  if bn n 0 5 = 6 then .ok (.ssel (bf n 19 7) (bf n 12 7) (bf n 5 7)) else
  if bn n 0 5 = 7 then .ok (.sbfx (bf n 19 7) (bf n 12 7) (bf n 5 7)) else
  if bn n 0 5 = 8 then .ok (.sbfxu (bf n 19 7) (bf n 12 7) (bf n 5 7)) else
  if bn n 0 5 = 9 then .ok (.sbfi (bf n 19 7) (bf n 12 7) (bf n 5 7)) else
  .error (.unassigned 11)

/-- Words whose op6 is 0x0c. -/
def decode0C (n : Nat) : Except DecodeError Instr :=
  if bn n 0 5 = 0 then .ok (.vaddI32 (bf n 19 7) (bf n 12 7) (bf n 5 7)) else
  if bn n 0 5 = 1 then .ok (.vaddN32 (bf n 19 7) (bf n 12 7) (bf n 5 7)) else
  if bn n 0 5 = 2 then .ok (.vsubI32 (bf n 19 7) (bf n 12 7) (bf n 5 7)) else
  if bn n 0 5 = 3 then .ok (.vsubN32 (bf n 19 7) (bf n 12 7) (bf n 5 7)) else
  if bn n 0 5 = 4 then .ok (.vmulI32 (bf n 19 7) (bf n 12 7) (bf n 5 7)) else
  if bn n 0 5 = 5 then .ok (.vmulhI32 (bf n 19 7) (bf n 12 7) (bf n 5 7)) else
  if bn n 0 5 = 6 then .ok (.vmulhN32 (bf n 19 7) (bf n 12 7) (bf n 5 7)) else
  if bn n 0 5 = 7 then .ok (.vmadI32 (bf n 19 7) (bf n 12 7) (bf n 5 7)) else
  if bn n 0 5 = 8 then .ok (.vandB32 (bf n 19 7) (bf n 12 7) (bf n 5 7)) else
  if bn n 0 5 = 9 then .ok (.vorB32 (bf n 19 7) (bf n 12 7) (bf n 5 7)) else
  if bn n 0 5 = 10 then .ok (.vxorB32 (bf n 19 7) (bf n 12 7) (bf n 5 7)) else
  if bn n 0 5 = 11 then .ok (.vshlB32 (bf n 19 7) (bf n 12 7) (bf n 5 7)) else
  if bn n 0 5 = 12 then .ok (.vshrN32 (bf n 19 7) (bf n 12 7) (bf n 5 7)) else
  if bn n 0 5 = 13 then .ok (.vshrI32 (bf n 19 7) (bf n 12 7) (bf n 5 7)) else
  if bn n 0 5 = 14 then .ok (.vminI32 (bf n 19 7) (bf n 12 7) (bf n 5 7)) else
  if bn n 0 5 = 15 then .ok (.vminN32 (bf n 19 7) (bf n 12 7) (bf n 5 7)) else
  if bn n 0 5 = 16 then .ok (.vmaxI32 (bf n 19 7) (bf n 12 7) (bf n 5 7)) else
  if bn n 0 5 = 17 then .ok (.vmaxN32 (bf n 19 7) (bf n 12 7) (bf n 5 7)) else
  if bn n 0 12 = 18 then .ok (.vclzB32 (bf n 19 7) (bf n 12 7)) else
  if bn n 0 12 = 19 then .ok (.vpopcB32 (bf n 19 7) (bf n 12 7)) else
  if bn n 0 5 = 20 then .ok (.vselB32 (bf n 19 7) (bf n 12 7) (bf n 5 7)) else
  if bn n 0 5 = 21 then .ok (.vdot4I32 (bf n 19 7) (bf n 12 7) (bf n 5 7)) else
  if bn n 0 5 = 22 then .ok (.vdot4N32 (bf n 19 7) (bf n 12 7) (bf n 5 7)) else
  if bn n 0 12 = 23 then .ok (.vabsI32 (bf n 19 7) (bf n 12 7)) else
  .error (.unassigned 12)

/-- Words whose op6 is 0x0d. -/
def decode0D (n : Nat) : Except DecodeError Instr :=
  if bn n 9 3 = 0 then .ok (.vaddi (bf n 19 7) (bf n 12 7) (bf n 0 9)) else
  if bn n 9 3 = 1 then .ok (.vandi (bf n 19 7) (bf n 12 7) (bf n 0 9)) else
  if bn n 9 3 = 2 then .ok (.vori (bf n 19 7) (bf n 12 7) (bf n 0 9)) else
  if bn n 9 3 = 3 then .ok (.vxori (bf n 19 7) (bf n 12 7) (bf n 0 9)) else
  if bn n 5 7 = 64 then .ok (.vshli (bf n 19 7) (bf n 12 7) (bf n 0 5)) else
  if bn n 5 7 = 80 then .ok (.vshri (bf n 19 7) (bf n 12 7) (bf n 0 5)) else
  if bn n 5 7 = 96 then .ok (.vsrai (bf n 19 7) (bf n 12 7) (bf n 0 5)) else
  if bn n 9 3 = 7 then .ok (.vmovi (bf n 19 7) (bf n 12 7) (bf n 0 9)) else
  .error (.unassigned 13)

/-- Words whose op6 is 0x0e. -/
noncomputable def decode0E (n : Nat) : Except DecodeError Instr :=
  if bn n 0 5 = 0 then .ok (.vaddI64 (bf n 19 7) (bf n 12 7) (bf n 5 7)) else
  if bn n 0 5 = 1 then .ok (.vaddN64 (bf n 19 7) (bf n 12 7) (bf n 5 7)) else
  if bn n 0 5 = 2 then .ok (.vsubI64 (bf n 19 7) (bf n 12 7) (bf n 5 7)) else
  if bn n 0 5 = 3 then .ok (.vsubN64 (bf n 19 7) (bf n 12 7) (bf n 5 7)) else
  if bn n 0 5 = 4 then .ok (.vmulI64 (bf n 19 7) (bf n 12 7) (bf n 5 7)) else
  if bn n 0 5 = 5 then .ok (.vandN64 (bf n 19 7) (bf n 12 7) (bf n 5 7)) else
  if bn n 0 5 = 6 then .ok (.vorN64 (bf n 19 7) (bf n 12 7) (bf n 5 7)) else
  if bn n 0 5 = 7 then .ok (.vxorN64 (bf n 19 7) (bf n 12 7) (bf n 5 7)) else
  if bn n 0 5 = 8 then .ok (.vshlN64 (bf n 19 7) (bf n 12 7) (bf n 5 7)) else
  if bn n 0 5 = 9 then .ok (.vshrN64 (bf n 19 7) (bf n 12 7) (bf n 5 7)) else
  if bn n 0 5 = 10 then .ok (.vshrI64 (bf n 19 7) (bf n 12 7) (bf n 5 7)) else
  if bn n 0 5 = 11 then .ok (.vminI64 (bf n 19 7) (bf n 12 7) (bf n 5 7)) else
  if bn n 0 5 = 12 then .ok (.vminN64 (bf n 19 7) (bf n 12 7) (bf n 5 7)) else
  if bn n 0 5 = 13 then .ok (.vmaxI64 (bf n 19 7) (bf n 12 7) (bf n 5 7)) else
  if bn n 0 5 = 14 then .ok (.vmaxN64 (bf n 19 7) (bf n 12 7) (bf n 5 7)) else
  if bn n 0 5 = 15 then .ok (.vmulwI32 (bf n 19 7) (bf n 12 7) (bf n 5 7)) else
  if bn n 0 5 = 16 then .ok (.vmulwN32 (bf n 19 7) (bf n 12 7) (bf n 5 7)) else
  .error (.unassigned 14)

/-- Words whose op6 is 0x0f. -/
noncomputable def decode0F (n : Nat) : Except DecodeError Instr :=
  if bn n 0 5 = 0 then .ok (.vaddsI32 (bf n 19 7) (bf n 12 7) (bf n 5 7)) else
  if bn n 0 5 = 1 then .ok (.vsubsI32 (bf n 19 7) (bf n 12 7) (bf n 5 7)) else
  if bn n 0 5 = 2 then .ok (.vmulsI32 (bf n 19 7) (bf n 12 7) (bf n 5 7)) else
  if bn n 0 5 = 3 then .ok (.vandsB32 (bf n 19 7) (bf n 12 7) (bf n 5 7)) else
  if bn n 0 5 = 4 then .ok (.vorsB32 (bf n 19 7) (bf n 12 7) (bf n 5 7)) else
  if bn n 0 5 = 5 then .ok (.vxorsB32 (bf n 19 7) (bf n 12 7) (bf n 5 7)) else
  if bn n 0 5 = 6 then .ok (.vshlsB32 (bf n 19 7) (bf n 12 7) (bf n 5 7)) else
  if bn n 0 5 = 7 then .ok (.vshrsN32 (bf n 19 7) (bf n 12 7) (bf n 5 7)) else
  if bn n 0 5 = 8 then .ok (.vshrsI32 (bf n 19 7) (bf n 12 7) (bf n 5 7)) else
  if bn n 0 5 = 9 then .ok (.vminsI32 (bf n 19 7) (bf n 12 7) (bf n 5 7)) else
  if bn n 0 5 = 10 then .ok (.vmaxsI32 (bf n 19 7) (bf n 12 7) (bf n 5 7)) else
  if bn n 0 5 = 11 then .ok (.vaddsI64 (bf n 19 7) (bf n 12 7) (bf n 5 7)) else
  .error (.unassigned 15)

/-- Words whose op6 is 0x10. -/
noncomputable def decode10 (n : Nat) : Except DecodeError Instr :=
  if bn n 0 5 = 0 then .ok (.vaddF32 (bf n 19 7) (bf n 12 7) (bf n 5 7)) else
  if bn n 0 5 = 1 then .ok (.vsubF32 (bf n 19 7) (bf n 12 7) (bf n 5 7)) else
  if bn n 0 5 = 2 then .ok (.vmulF32 (bf n 19 7) (bf n 12 7) (bf n 5 7)) else
  if bn n 0 5 = 3 then .ok (.vminF32 (bf n 19 7) (bf n 12 7) (bf n 5 7)) else
  if bn n 0 5 = 4 then .ok (.vmaxF32 (bf n 19 7) (bf n 12 7) (bf n 5 7)) else
  if bn n 0 12 = 5 then .ok (.vabsF32 (bf n 19 7) (bf n 12 7)) else
  if bn n 0 12 = 6 then .ok (.vnegF32 (bf n 19 7) (bf n 12 7)) else
  if bn n 0 5 = 7 then .ok (.vcpysF32 (bf n 19 7) (bf n 12 7) (bf n 5 7)) else
  if bn n 0 12 = 8 then .ok (.vrintF32 (bf n 19 7) (bf n 12 7)) else
  if bn n 0 12 = 9 then .ok (.vclassF32 (bf n 19 7) (bf n 12 7)) else
  .error (.unassigned 16)

/-- Words whose op6 is 0x11. -/
noncomputable def decode11 (n : Nat) : Except DecodeError Instr :=
  if bn n 0 4 = 0 then .ok (.vaddF16Bf16 (bf n 19 7) (bf n 12 7) (bf n 5 7) (bf n 4 1)) else
  if bn n 0 4 = 1 then .ok (.vsubF16Bf16 (bf n 19 7) (bf n 12 7) (bf n 5 7) (bf n 4 1)) else
  if bn n 0 4 = 2 then .ok (.vmulF16Bf16 (bf n 19 7) (bf n 12 7) (bf n 5 7) (bf n 4 1)) else
  if bn n 0 4 = 3 then .ok (.vminF16Bf16 (bf n 19 7) (bf n 12 7) (bf n 5 7) (bf n 4 1)) else
  if bn n 0 4 = 4 then .ok (.vmaxF16Bf16 (bf n 19 7) (bf n 12 7) (bf n 5 7) (bf n 4 1)) else
  if bn n 0 4 = 5 ∧ bn n 5 7 = 0 then .ok (.vabsF16Bf16 (bf n 19 7) (bf n 12 7) (bf n 4 1)) else
  if bn n 0 4 = 6 ∧ bn n 5 7 = 0 then .ok (.vnegF16Bf16 (bf n 19 7) (bf n 12 7) (bf n 4 1)) else
  .error (.unassigned 17)

/-- Words whose op6 is 0x12. -/
noncomputable def decode12 (n : Nat) : Except DecodeError Instr :=
  if bn n 0 5 = 0 then .ok (.vfmaF32 (bf n 19 7) (bf n 12 7) (bf n 5 7)) else
  if bn n 0 5 = 1 then .ok (.vfmsF32 (bf n 19 7) (bf n 12 7) (bf n 5 7)) else
  if bn n 0 5 = 2 then .ok (.vfnmaF32 (bf n 19 7) (bf n 12 7) (bf n 5 7)) else
  if bn n 0 5 = 3 then .ok (.vfnmsF32 (bf n 19 7) (bf n 12 7) (bf n 5 7)) else
  .error (.unassigned 18)

/-- Words whose op6 is 0x13. -/
noncomputable def decode13 (n : Nat) : Except DecodeError Instr :=
  if bn n 0 4 = 0 then .ok (.vfmaF16Bf16 (bf n 19 7) (bf n 12 7) (bf n 5 7) (bf n 4 1)) else
  if bn n 0 4 = 1 then .ok (.vfmsF16Bf16 (bf n 19 7) (bf n 12 7) (bf n 5 7) (bf n 4 1)) else
  if bn n 0 4 = 2 then .ok (.vfnmaF16Bf16 (bf n 19 7) (bf n 12 7) (bf n 5 7) (bf n 4 1)) else
  if bn n 0 4 = 3 then .ok (.vfnmsF16Bf16 (bf n 19 7) (bf n 12 7) (bf n 5 7) (bf n 4 1)) else
  if bn n 0 4 = 4 then .ok (.vdot2 (bf n 19 7) (bf n 12 7) (bf n 5 7) (bf n 4 1)) else
  .error (.unassigned 19)

/-- Words whose op6 is 0x14. -/
noncomputable def decode14 (n : Nat) : Except DecodeError Instr :=
  if bn n 0 12 = 0 then .ok (.vrcpF32 (bf n 19 7) (bf n 12 7)) else
  if bn n 0 12 = 1 then .ok (.vrsqrtF32 (bf n 19 7) (bf n 12 7)) else
  if bn n 0 12 = 2 then .ok (.vsqrtF32 (bf n 19 7) (bf n 12 7)) else
  if bn n 0 12 = 3 then .ok (.vexp2F32 (bf n 19 7) (bf n 12 7)) else
  if bn n 0 12 = 4 then .ok (.vlog2F32 (bf n 19 7) (bf n 12 7)) else
  if bn n 0 12 = 5 then .ok (.vsinF32 (bf n 19 7) (bf n 12 7)) else
  if bn n 0 12 = 6 then .ok (.vcosF32 (bf n 19 7) (bf n 12 7)) else
  if bn n 0 12 = 7 then .ok (.vtanhF32 (bf n 19 7) (bf n 12 7)) else
  if bn n 0 5 = 8 then .ok (.vdivF32 (bf n 19 7) (bf n 12 7) (bf n 5 7)) else
  .error (.unassigned 20)

/-- Words whose op6 is 0x15. -/
noncomputable def decode15 (n : Nat) : Except DecodeError Instr :=
  if bn n 0 5 = 0 then .ok (.vaddsF32 (bf n 19 7) (bf n 12 7) (bf n 5 7)) else
  if bn n 0 5 = 1 then .ok (.vsubsF32 (bf n 19 7) (bf n 12 7) (bf n 5 7)) else
  if bn n 0 5 = 2 then .ok (.vmulsF32 (bf n 19 7) (bf n 12 7) (bf n 5 7)) else
  if bn n 0 5 = 3 then .ok (.vfmasF32 (bf n 19 7) (bf n 12 7) (bf n 5 7)) else
  if bn n 0 5 = 4 then .ok (.vminsF32 (bf n 19 7) (bf n 12 7) (bf n 5 7)) else
  if bn n 0 5 = 5 then .ok (.vmaxsF32 (bf n 19 7) (bf n 12 7) (bf n 5 7)) else
  .error (.unassigned 21)

/-- Words whose op6 is 0x16. -/
noncomputable def decode16 (n : Nat) : Except DecodeError Instr :=
  if bn n 3 4 = 0 then .ok (.vcvtWide (bf n 19 7) (bf n 12 7) (bf n 9 3) (bf n 8 1) (bf n 7 1) (bf n 0 3)) else
  if bn n 3 2 = 1 then .ok (.vcvtNarrowToF32 (bf n 19 7) (bf n 12 7) (bf n 5 7) (bf n 0 3)) else
  if bn n 3 2 = 2 then .ok (.vcvtF32ToNarrow (bf n 19 7) (bf n 12 7) (bf n 5 7) (bf n 0 3)) else
  .error (.unassigned 22)

/-- Words whose op6 is 0x17. -/
noncomputable def decode17 (n : Nat) : Except DecodeError Instr :=
  if bn n 0 5 = 0 then .ok (.vcmpEqI32 (bf n 19 7) (bf n 12 7) (bf n 5 7)) else
  if bn n 0 5 = 1 then .ok (.vcmpNeI32 (bf n 19 7) (bf n 12 7) (bf n 5 7)) else
  if bn n 0 5 = 2 then .ok (.vcmpLtI32 (bf n 19 7) (bf n 12 7) (bf n 5 7)) else
  if bn n 0 5 = 3 then .ok (.vcmpLeI32 (bf n 19 7) (bf n 12 7) (bf n 5 7)) else
  if bn n 0 5 = 4 then .ok (.vcmpLtN32 (bf n 19 7) (bf n 12 7) (bf n 5 7)) else
  if bn n 0 5 = 5 then .ok (.vcmpLeN32 (bf n 19 7) (bf n 12 7) (bf n 5 7)) else
  if bn n 0 5 = 6 then .ok (.vcmpEqF32 (bf n 19 7) (bf n 12 7) (bf n 5 7)) else
  if bn n 0 5 = 7 then .ok (.vcmpNeF32 (bf n 19 7) (bf n 12 7) (bf n 5 7)) else
  if bn n 0 5 = 8 then .ok (.vcmpLtF32 (bf n 19 7) (bf n 12 7) (bf n 5 7)) else
  if bn n 0 5 = 9 then .ok (.vcmpLeF32 (bf n 19 7) (bf n 12 7) (bf n 5 7)) else
  if bn n 0 5 = 10 then .ok (.vcmpUnF32 (bf n 19 7) (bf n 12 7) (bf n 5 7)) else
  if bn n 0 5 = 16 then .ok (.pand (bf n 19 7) (bf n 12 7) (bf n 5 7)) else
  if bn n 0 5 = 17 then .ok (.por (bf n 19 7) (bf n 12 7) (bf n 5 7)) else
  if bn n 0 5 = 18 then .ok (.pxor (bf n 19 7) (bf n 12 7) (bf n 5 7)) else
  if bn n 0 5 = 19 then .ok (.pandn (bf n 19 7) (bf n 12 7) (bf n 5 7)) else
  if bn n 0 12 = 20 then .ok (.pnot (bf n 19 7) (bf n 12 7)) else
  .error (.unassigned 23)

/-- Words whose op6 is 0x18. -/
noncomputable def decode18 (n : Nat) : Except DecodeError Instr :=
  if bn n 0 5 = 0 then .ok (.vshfl (bf n 19 7) (bf n 12 7) (bf n 5 7)) else
  if bn n 0 5 = 1 then .ok (.vprmXor (bf n 19 7) (bf n 12 7) (bf n 5 7)) else
  if bn n 0 5 = 2 then .ok (.vprmRot (bf n 19 7) (bf n 12 7) (bf n 5 7)) else
  if bn n 0 5 = 3 then .ok (.vbcst (bf n 19 7) (bf n 12 7) (bf n 5 7)) else
  if bn n 0 12 = 4 then .ok (.vredF32 (bf n 19 7) (bf n 12 7)) else
  if bn n 0 12 = 5 then .ok (.vredI32 (bf n 19 7) (bf n 12 7)) else
  if bn n 0 12 = 6 then .ok (.vredminF32 (bf n 19 7) (bf n 12 7)) else
  if bn n 0 12 = 7 then .ok (.vredmaxF32 (bf n 19 7) (bf n 12 7)) else
  if bn n 0 12 = 8 then .ok (.vredminI32 (bf n 19 7) (bf n 12 7)) else
  if bn n 0 12 = 9 then .ok (.vredmaxI32 (bf n 19 7) (bf n 12 7)) else
  if bn n 0 12 = 10 then .ok (.vredandB32 (bf n 19 7) (bf n 12 7)) else
  if bn n 0 12 = 11 then .ok (.vredorB32 (bf n 19 7) (bf n 12 7)) else
  if bn n 0 12 = 12 then .ok (.vscanF32 (bf n 19 7) (bf n 12 7)) else
  if bn n 0 12 = 13 then .ok (.vscanI32 (bf n 19 7) (bf n 12 7)) else
  if bn n 0 12 = 14 then .ok (.vscanxF32 (bf n 19 7) (bf n 12 7)) else
  if bn n 0 12 = 15 then .ok (.vscanxI32 (bf n 19 7) (bf n 12 7)) else
  if bn n 0 12 = 16 then .ok (.vmatch (bf n 19 7) (bf n 12 7)) else
  .error (.unassigned 24)

/-- Words whose op6 is 0x19. -/
noncomputable def decode19 (n : Nat) : Except DecodeError Instr :=
  if bn n 0 12 = 0 then .ok (.srd (bf n 19 7) (bf n 12 7)) else
  if bn n 0 19 = 1 then .ok (.fpcrd (bf n 19 7)) else
  if bn n 0 12 = 2 ∧ bn n 19 7 = 0 then .ok (.fpcwr (bf n 12 7)) else
  if bn n 0 12 = 3 then .ok (.vmov (bf n 19 7) (bf n 12 7)) else
  if bn n 0 12 = 4 then .ok (.vmovs (bf n 19 7) (bf n 12 7)) else
  if bn n 0 5 = 5 then .ok (.smovv (bf n 19 7) (bf n 12 7) (bf n 5 7)) else
  if bn n 0 5 = 6 then .ok (.vins (bf n 19 7) (bf n 12 7) (bf n 5 7)) else
  if bn n 0 12 = 7 then .ok (.p2s (bf n 19 7) (bf n 12 7)) else
  if bn n 0 12 = 8 then .ok (.s2p (bf n 19 7) (bf n 12 7)) else
  .error (.unassigned 25)

/-- Words whose op6 is 0x1a. -/
noncomputable def decode1A (n : Nat) : Except DecodeError Instr :=
  .ok (.vld (bf n 19 7) (bf n 12 7) (bf n 5 7) (bf n 2 3) (bf n 0 2))

/-- Words whose op6 is 0x1b. -/
noncomputable def decode1B (n : Nat) : Except DecodeError Instr :=
  .ok (.vst (bf n 19 7) (bf n 12 7) (bf n 5 7) (bf n 2 3) (bf n 0 2))

/-- Words whose op6 is 0x1c. -/
noncomputable def decode1C (n : Nat) : Except DecodeError Instr :=
  if bn n 11 1 = 0 then .ok (.vldc (bf n 19 7) (bf n 12 7) (bf n 9 2) (bf n 0 9)) else
  if bn n 11 1 = 1 then .ok (.vstc (bf n 19 7) (bf n 12 7) (bf n 9 2) (bf n 0 9)) else
  .error (.unassigned 28)

/-- Words whose op6 is 0x1d. -/
noncomputable def decode1D (n : Nat) : Except DecodeError Instr :=
  if bn n 11 1 = 0 then .ok (.sld (bf n 19 7) (bf n 12 7) (bf n 9 2) (bf n 0 9)) else
  if bn n 11 1 = 1 then .ok (.sst (bf n 19 7) (bf n 12 7) (bf n 9 2) (bf n 0 9)) else
  .error (.unassigned 29)

/-- Words whose op6 is 0x1e. -/
noncomputable def decode1E (n : Nat) : Except DecodeError Instr :=
  if bn n 0 2 = 0 then .ok (.lld (bf n 19 7) (bf n 12 7) (bf n 5 7) (bf n 2 3)) else
  if bn n 0 2 = 1 then .ok (.lst (bf n 19 7) (bf n 12 7) (bf n 5 7) (bf n 2 3)) else
  .error (.unassigned 30)

/-- Words whose op6 is 0x1f. -/
noncomputable def decode1F (n : Nat) : Except DecodeError Instr :=
  if bn n 3 4 = 1 then .ok (.slda (bf n 19 7) (bf n 12 7) (bf n 7 5) (bf n 2 1) (bf n 0 2)) else
  if bn n 3 4 = 5 then .ok (.sstr (bf n 19 7) (bf n 12 7) (bf n 7 5) (bf n 2 1) (bf n 0 2)) else
  if bn n 3 4 = 9 then .ok (.vlda (bf n 19 7) (bf n 12 7) (bf n 7 5) (bf n 2 1) (bf n 0 2)) else
  if bn n 3 4 = 13 then .ok (.vstr (bf n 19 7) (bf n 12 7) (bf n 7 5) (bf n 2 1) (bf n 0 2)) else
  .error (.unassigned 31)

/-- Words whose op6 is 0x20. -/
noncomputable def decode20 (n : Nat) : Except DecodeError Instr :=
  .ok (.vatom (bf n 19 7) (bf n 12 7) (bf n 5 7) (bf n 4 1) (bf n 0 4))

/-- Words whose op6 is 0x21. -/
noncomputable def decode21 (n : Nat) : Except DecodeError Instr :=
  .ok (.satom (bf n 19 7) (bf n 12 7) (bf n 5 7) (bf n 4 1) (bf n 0 4))

/-- Words whose op6 is 0x22. -/
noncomputable def decode22 (n : Nat) : Except DecodeError Instr :=
  if bn n 0 5 = 0 then .ok (.xcopy (bf n 19 7) (bf n 12 7) (bf n 5 7)) else
  if bn n 0 5 = 1 then .ok (.xcopyt (bf n 19 7) (bf n 12 7) (bf n 5 7)) else
  if bn n 0 5 = 2 then .ok (.xgath (bf n 19 7) (bf n 12 7) (bf n 5 7)) else
  if bn n 0 5 = 3 ∧ bn n 19 7 = 0 then .ok (.pft (bf n 12 7) (bf n 5 7)) else
  if bn n 0 5 = 4 ∧ bn n 19 7 = 0 then .ok (.look (bf n 12 7) (bf n 5 7)) else
  .error (.unassigned 34)

/-- Words whose op6 is 0x23. -/
noncomputable def decode23 (n : Nat) : Except DecodeError Instr :=
  if bn n 6 13 = 0 ∧ bn n 21 5 = 0 then .ok (.waitc (bf n 19 2) (bf n 0 6)) else
  if bn n 0 7 = 0 ∧ bn n 14 12 = 128 then .ok (.tagwany (bf n 7 7)) else
  if bn n 0 7 = 0 ∧ bn n 14 12 = 256 then .ok (.tagwall (bf n 7 7)) else
  if bn n 0 7 = 0 ∧ bn n 21 5 = 3 then .ok (.tagffr (bf n 14 7) (bf n 7 7)) else
  if bn n 0 7 = 0 ∧ bn n 14 12 = 512 then .ok (.tagclr (bf n 7 7)) else
  if bn n 0 14 = 0 ∧ bn n 21 5 = 5 then .ok (.tagrd (bf n 14 7)) else
  .error (.unassigned 35)

/-- Words whose op6 is 0x24. -/
noncomputable def decode24 (n : Nat) : Except DecodeError Instr :=
  if bn n 5 21 = 0 then .ok (.fence (bf n 0 5)) else
  if bn n 0 26 = 2097152 then .ok .fenceTc else
  if bn n 4 22 = 262144 then .ok (.bar (bf n 0 4)) else
  if bn n 4 22 = 393216 then .ok (.rbar (bf n 0 4)) else
  if bn n 0 26 = 8388608 then .ok .mclose else
  .error (.unassigned 36)

/-- Words whose op6 is 0x25. -/
noncomputable def decode25 (n : Nat) : Except DecodeError Instr :=
  if bn n 8 4 = 0 ∧ bn n 19 7 = 0 then .ok (.send (bf n 12 7) (bf n 6 2) (bf n 0 6)) else
  if bn n 8 11 = 2 then .ok (.recv (bf n 19 7) (bf n 6 2) (bf n 0 6)) else
  if bn n 6 13 = 16 then .ok (.chpoll (bf n 19 7) (bf n 0 6)) else
  if bn n 6 6 = 24 then .ok (.amsg (bf n 19 7) (bf n 12 7) (bf n 0 6)) else
  .error (.unassigned 37)

/-- Words whose op6 is 0x26. -/
noncomputable def decode26 (n : Nat) : Except DecodeError Instr :=
  if bn n 0 5 = 0 then .ok (.launch (bf n 19 7) (bf n 12 7) (bf n 5 7)) else
  if bn n 0 12 = 1 then .ok (.lwait (bf n 19 7) (bf n 12 7)) else
  if bn n 0 5 = 2 then .ok (.spawn (bf n 19 7) (bf n 12 7) (bf n 5 7)) else
  if bn n 0 5 = 3 then .ok (.tdef (bf n 19 7) (bf n 12 7) (bf n 5 7)) else
  .error (.unassigned 38)

/-- Words whose op6 is 0x27. -/
noncomputable def decode27 (n : Nat) : Except DecodeError Instr :=
  if bn n 0 7 = 0 ∧ bn n 9 2 = 0 then .ok (.mma (bf n 22 4) (bf n 18 4) (bf n 11 7) (bf n 8 1) (bf n 7 1)) else
  if bn n 0 7 = 0 ∧ bn n 9 2 = 1 then .ok (.mmas (bf n 22 4) (bf n 18 4) (bf n 11 7) (bf n 8 1) (bf n 7 1)) else
  if bn n 0 3 = 0 ∧ bn n 9 2 = 2 then .ok (.mmax (bf n 22 4) (bf n 18 4) (bf n 11 7) (bf n 8 1) (bf n 7 1) (bf n 3 4)) else
  .error (.unassigned 39)

/-- Words whose op6 is 0x28. -/
noncomputable def decode28 (n : Nat) : Except DecodeError Instr :=
  if bn n 0 11 = 0 ∧ bn n 18 4 = 0 then .ok (.tcfg (bf n 22 4) (bf n 11 7)) else
  if bn n 0 11 = 256 ∧ bn n 18 4 = 0 then .ok (.tld (bf n 22 4) (bf n 11 7)) else
  if bn n 0 11 = 512 ∧ bn n 18 4 = 0 then .ok (.tst (bf n 22 4) (bf n 11 7)) else
  if bn n 0 22 = 768 then .ok (.tzero (bf n 22 4)) else
  if bn n 0 6 = 0 ∧ bn n 8 14 = 4 then .ok (.txfer (bf n 22 4) (bf n 6 2)) else
  if bn n 0 6 = 0 ∧ bn n 8 14 = 5 then .ok (.trecv (bf n 22 4) (bf n 6 2)) else
  if bn n 0 11 = 1536 ∧ bn n 18 8 = 0 then .ok (.amcpOut (bf n 11 7)) else
  if bn n 0 11 = 1664 ∧ bn n 18 8 = 0 then .ok (.amcpIn (bf n 11 7)) else
  if bn n 0 11 = 1792 ∧ bn n 18 8 = 0 then .ok (.amzero (bf n 11 7)) else
  .error (.unassigned 40)

/-- Words whose op6 is 0x29. -/
noncomputable def decode29 (n : Nat) : Except DecodeError Instr :=
  if bn n 0 5 = 0 then .ok (.xratom (bf n 19 7) (bf n 12 7) (bf n 5 7)) else
  if bn n 0 5 = 1 ∧ bn n 19 7 = 0 then .ok (.xcoll (bf n 12 7) (bf n 5 7)) else
  .error (.unassigned 41)

/-- Words whose op6 is 0x2a. -/
noncomputable def decode2A (n : Nat) : Except DecodeError Instr :=
  if bn n 0 12 = 0 then .ok (.segq (bf n 19 7) (bf n 12 7)) else
  if bn n 0 12 = 1 ∧ bn n 19 7 = 0 then .ok (.ferry (bf n 12 7)) else
  .error (.unassigned 42)

/-- The instruction of a word before its operand limits are checked. -/
noncomputable def decodeRaw (n : Nat) : Except DecodeError Instr :=
  match n / 2 ^ 26 with
  | 1 => decode01 n
  | 2 => decode02 n
  | 3 => decode03 n
  | 4 => decode04 n
  | 5 => decode05 n
  | 6 => decode06 n
  | 7 => decode07 n
  | 8 => decode08 n
  | 9 => decode09 n
  | 10 => decode0A n
  | 11 => decode0B n
  | 12 => decode0C n
  | 13 => decode0D n
  | 14 => decode0E n
  | 15 => decode0F n
  | 16 => decode10 n
  | 17 => decode11 n
  | 18 => decode12 n
  | 19 => decode13 n
  | 20 => decode14 n
  | 21 => decode15 n
  | 22 => decode16 n
  | 23 => decode17 n
  | 24 => decode18 n
  | 25 => decode19 n
  | 26 => decode1A n
  | 27 => decode1B n
  | 28 => decode1C n
  | 29 => decode1D n
  | 30 => decode1E n
  | 31 => decode1F n
  | 32 => decode20 n
  | 33 => decode21 n
  | 34 => decode22 n
  | 35 => decode23 n
  | 36 => decode24 n
  | 37 => decode25 n
  | 38 => decode26 n
  | 39 => decode27 n
  | 40 => decode28 n
  | 41 => decode29 n
  | 42 => decode2A n
  | op => .error (.unassigned op)

/-- The operand limits applied to a decoded instruction. -/
def checked : Except DecodeError Instr → Except DecodeError Instr
  | .error e => .error e
  | .ok i =>
    match i.check with
    | none => .ok i
    | some e => .error (.operand e)

/-- The instruction of a word of a wave's clause. -/
noncomputable def decodeWord (w : Word) : Except DecodeError Instr := checked (decodeRaw w.toNat)

/-- A little-endian word from four bytes. -/
def wordOfBytes (b0 b1 b2 b3 : Byte) : Word :=
  BitVec.ofNat 32 (b0.toNat + 2 ^ 8 * b1.toNat + 2 ^ 16 * b2.toNat + 2 ^ 24 * b3.toNat)

/-- The first instruction of a list of bytes, with the rest of the list. -/
noncomputable def decodeBytes : List Byte → Except DecodeError (Instr × List Byte)
  | b0 :: b1 :: b2 :: b3 :: rest =>
    match decodeWord (wordOfBytes b0 b1 b2 b3) with
    | .ok i => .ok (i, rest)
    | .error e => .error e
  | _ => .error .short

/-- The line instruction of a keeper word (R288): RISC-V custom-0, R-type, funct7 zero. -/
noncomputable def decodeKeeper (n : Nat) : Option Instr :=
  if bn n 0 7 = 11 ∧ bn n 25 7 = 0 then
    match bn n 12 3 with
    | 0 => some (.ksel (bf n 20 5) (bf n 15 5) (bf n 7 5))
    | 1 => some (.klw (bf n 20 5) (bf n 15 5) (bf n 7 5))
    | 2 => some (.ksw (bf n 20 5) (bf n 15 5) (bf n 7 5))
    | 3 => some (.kfadd (bf n 20 5) (bf n 15 5) (bf n 7 5))
    | 4 => some (.kend (bf n 20 5) (bf n 15 5) (bf n 7 5))
    | _ => none
  else none

/-- The instruction of a word of the opcode table (bit 0 the least significant of the first word). -/
noncomputable def decodeTableWord (nbits w : Nat) : Option Instr :=
  if nbits = 32 then
    match decodeWord (BitVec.ofNat 32 w) with
    | .ok i => some i
    | .error _ => decodeKeeper (w % 2 ^ 32)
  else none

/-- A word from its fixed bits and its fields, each a value with its lowest bit. -/
def pack (base : Nat) : List (Nat × Nat) → Nat
  | [] => base
  | (v, lo) :: rest => v * 2 ^ lo + pack base rest

/-- The word of an instruction as a number; none for the device's own steps, which have no word. -/
def encodeNat : Instr → Option Nat
  | .powerGood _ => none
  | .startupStepTimeout _ => none
  | .powerRemoval => none
  | .upstreamHotReset => none
  | .linkDown => none
  | .functionLevelReset _ => none
  | .operatingPointLower _ => none
  | .operatingPointRaise _ => none
  | .operatingPointCeiling _ _ => none
  | .viBuild _ _ => none
  | .viStart _ => none
  | .freezeRequest _ => none
  | .viResume _ => none
  | .viTeardown _ => none
  | .teardownComplete _ => none
  | .supervisorBudgetExpiry _ => none
  | .kick _ _ _ _ => none
  | .queueStart _ _ _ => none
  | .queueStop _ _ _ => none
  | .slotRead _ _ => none
  | .staleKickTimeout _ _ => none
  | .dispatch => none
  | .candidateReserved _ => none
  | .reachStart _ _ => none
  | .ferryGridStart _ => none
  | .spawnBinTimeout _ _ => none
  | .binWaveStart _ _ => none
  | .waveBoost _ => none
  | .clauseStart _ => none
  | .fetchFillComplete _ => none
  | .lookoutStart _ => none
  | .lookoutTimeout _ => none
  | .longLatencyComplete _ _ => none
  | .terminalInstructionComplete _ => none
  | .barrierComplete _ => none
  | .trapEntry _ => none
  | .engineFailureTrap _ => none
  | .watchdogExpiry _ => none
  | .watchdogTrap _ => none
  | .singleStepTrap _ => none
  | .exitTakesEffect _ => none
  | .teamComplete _ _ => none
  | .gridRetire _ => none
  | .travellerDepart _ => none
  | .travellerArrival _ => none
  | .travellerReoffer _ _ => none
  | .overflowTake _ => none
  | .landingQueueAdvance _ => none
  | .segmentReplication _ _ => none
  | .replicaLoadComplete _ _ => none
  | .pincmdPin _ _ => none
  | .pincmdUnpin _ _ => none
  | .pinWindowComplete _ _ => none
  | .ownershipTransfer _ => none
  | .ownershipHoldExpiry _ => none
  | .keeperMessage _ => none
  | .keeperRelease _ => none
  | .keeperStrike _ => none
  | .copyComplete _ _ => none
  | .gatherComplete _ _ => none
  | .collectiveComplete _ _ => none
  | .xratomResult _ _ => none
  | .amsgReply _ => none
  | .matrixOpBegin _ _ => none
  | .matrixOpComplete _ _ => none
  | .readShared _ => none
  | .readOwn _ => none
  | .upgrade _ => none
  | .writeback _ => none
  | .controlAtomic _ => none
  | .dataShared _ => none
  | .dataExclusive _ => none
  | .completion _ => none
  | .forwardedRead _ => none
  | .invalidate _ => none
  | .acknowledgement _ => none
  | .mirrorUpdate _ => none
  | .mirrorAcknowledgement _ => none
  | .tensorRead _ => none
  | .tensorWrite _ => none
  | .remoteAtomic _ => none
  | .collectiveData _ => none
  | .readData _ => none
  | .writeCompletion _ => none
  | .atomicResult _ => none
  | .collectiveAcknowledgement _ => none
  | .faultRefusal _ => none
  | .frozenRefusal _ => none
  | .faultPageResume _ _ => none
  | .faultPageAbort _ _ => none
  | .streamResume _ => none
  | .streamAbort _ => none
  | .tensorRequestTimeout _ => none
  | .controlRequestTimeout _ => none
  | .linkReplay _ => none
  | .portTraining _ => none
  | .capabilityRecordSend _ => none
  | .capabilityRecord _ _ => none
  | .spdmMessage _ _ => none
  | .measurementAccept _ _ => none
  | .portRunCommand _ => none
  | .portRetrain _ => none
  | .keyUpdate _ => none
  | .linkStateSend => none
  | .linkState _ _ => none
  | .peerLost _ => none
  | .sharerRecall _ _ => none
  | .adoptionServe _ => none
  | .ringInjection _ _ => none
  | .ringSharedMove _ _ => none
  | .ringEscapeMove _ _ => none
  | .ringEject _ _ => none
  | .channelPacketArrival _ => none
  | .channelAccept _ _ _ => none
  | .channelReject _ _ _ => none
  | .channelReoffer _ _ _ => none
  | .cpsend _ _ => none
  | .cprecv _ _ => none
  | .cppoll _ => none
  | .cptabWrite _ _ _ => none
  | .chentWrite _ _ => none
  | .tlbinv _ _ => none
  | .tlbinvComplete _ => none
  | .capinv _ _ => none
  | .capinvComplete _ => none
  | .registerWrite _ _ => none
  | .hostPostedWrite _ _ => none
  | .hostRead _ _ => none
  | .strike _ => none
  | .strikeReport _ => none
  | .quarantineRelease _ => none
  | .entryConfirm _ => none
  | .uncorrectableError _ => none
  | .poisonConsumed _ _ => none
  | .preemptRequest _ => none
  | .pgraceExpiry _ => none
  | .engineStopped _ _ => none
  | .preemptResume _ => none
  | .debugHalt _ => none
  | .debugRelease _ => none
  | .nop => some (pack 0x04000000 [])
  | .yield => some (pack 0x04200000 [])
  | .exit => some (pack 0x04400000 [])
  | .br o => some (pack 0x08000000 [(o.toNat, 0)])
  | .call o => some (pack 0x08200000 [(o.toNat, 0)])
  | .ret a => some (pack 0x08400000 [(a.toNat, 14)])
  | .jmpr a => some (pack 0x08600000 [(a.toNat, 14)])
  | .brsNz a o => some (pack 0x0c000000 [(a.toNat, 21), (o.toNat, 0)])
  | .brsZ a o => some (pack 0x0c080000 [(a.toNat, 21), (o.toNat, 0)])
  | .brpAny p o => some (pack 0x10000000 [(p.toNat, 21), (o.toNat, 0)])
  | .brpAll p o => some (pack 0x10080000 [(p.toNat, 21), (o.toNat, 0)])
  | .brpNone p o => some (pack 0x10100000 [(p.toNat, 21), (o.toNat, 0)])
  | .msplit d a => some (pack 0x14000000 [(d.toNat, 19), (a.toNat, 12)])
  | .melse a b => some (pack 0x14000001 [(a.toNat, 12), (b.toNat, 5)])
  | .mjoin a => some (pack 0x14000002 [(a.toNat, 12)])
  | .mpush a b => some (pack 0x14000003 [(a.toNat, 12), (b.toNat, 5)])
  | .mpop d => some (pack 0x14000004 [(d.toNat, 19)])
  | .exmrd d => some (pack 0x14000005 [(d.toNat, 19)])
  | .exmwr a => some (pack 0x14000006 [(a.toNat, 12)])
  | .bexz o => some (pack 0x14000007 [(o.toNat, 5)])
  | .sysc n => some (pack 0x18000000 [(n.toNat, 0)])
  | .hvc n => some (pack 0x18200000 [(n.toNat, 0)])
  | .rett r => some (pack 0x18400000 [(r.toNat, 0)])
  | .bkpt n => some (pack 0x18600000 [(n.toNat, 0)])
  | .prd d n => some (pack 0x18800000 [(d.toNat, 14), (n.toNat, 0)])
  | .pwr a n => some (pack 0x18a00000 [(a.toNat, 14), (n.toNat, 0)])
  | .wdog a => some (pack 0x18c00000 [(a.toNat, 14)])
  | .hsrc c x y z => some (pack 0x1c000000 [(c.toNat, 21), (x.toNat, 14), (y.toNat, 7), (z.toNat, 0)])
  | .hmod a b c d e f g h i j => some (pack 0x1d000000 [(a.toNat, 23), (b.toNat, 21), (c.toNat, 20), (d.toNat, 19), (e.toNat, 18), (f.toNat, 16), (g.toNat, 15), (h.toNat, 10), (i.toNat, 9), (j.toNat, 7)])
  | .hlive b m => some (pack 0x1e000000 [(b.toNat, 17), (m.toNat, 0)])
  | .hsch a b c d e => some (pack 0x1f000000 [(a.toNat, 23), (b.toNat, 21), (c.toNat, 20), (d.toNat, 19), (e.toNat, 18)])
  | .himm p => some (pack 0x20000000 [(p.toNat, 0)])
  | .sadd d a b => some (pack 0x24000000 [(d.toNat, 19), (a.toNat, 12), (b.toNat, 5)])
  | .ssub d a b => some (pack 0x24000001 [(d.toNat, 19), (a.toNat, 12), (b.toNat, 5)])
  | .smul d a b => some (pack 0x24000002 [(d.toNat, 19), (a.toNat, 12), (b.toNat, 5)])
  | .smulh d a b => some (pack 0x24000003 [(d.toNat, 19), (a.toNat, 12), (b.toNat, 5)])
  | .smulhu d a b => some (pack 0x24000004 [(d.toNat, 19), (a.toNat, 12), (b.toNat, 5)])
  | .sand d a b => some (pack 0x24000005 [(d.toNat, 19), (a.toNat, 12), (b.toNat, 5)])
  | .sor d a b => some (pack 0x24000006 [(d.toNat, 19), (a.toNat, 12), (b.toNat, 5)])
  | .sxor d a b => some (pack 0x24000007 [(d.toNat, 19), (a.toNat, 12), (b.toNat, 5)])
  | .sshl d a b => some (pack 0x24000008 [(d.toNat, 19), (a.toNat, 12), (b.toNat, 5)])
  | .sshr d a b => some (pack 0x24000009 [(d.toNat, 19), (a.toNat, 12), (b.toNat, 5)])
  | .ssra d a b => some (pack 0x2400000a [(d.toNat, 19), (a.toNat, 12), (b.toNat, 5)])
  | .smin d a b => some (pack 0x2400000b [(d.toNat, 19), (a.toNat, 12), (b.toNat, 5)])
  | .smax d a b => some (pack 0x2400000c [(d.toNat, 19), (a.toNat, 12), (b.toNat, 5)])
  | .sminu d a b => some (pack 0x2400000d [(d.toNat, 19), (a.toNat, 12), (b.toNat, 5)])
  | .smaxu d a b => some (pack 0x2400000e [(d.toNat, 19), (a.toNat, 12), (b.toNat, 5)])
  | .smov d a => some (pack 0x2400000f [(d.toNat, 19), (a.toNat, 12)])
  | .sclz d a => some (pack 0x24000010 [(d.toNat, 19), (a.toNat, 12)])
  | .sctz d a => some (pack 0x24000011 [(d.toNat, 19), (a.toNat, 12)])
  | .spopc d a => some (pack 0x24000012 [(d.toNat, 19), (a.toNat, 12)])
  | .saddi d a i => some (pack 0x28000000 [(d.toNat, 19), (a.toNat, 12), (i.toNat, 0)])
  | .sandi d a i => some (pack 0x28000200 [(d.toNat, 19), (a.toNat, 12), (i.toNat, 0)])
  | .sori d a i => some (pack 0x28000400 [(d.toNat, 19), (a.toNat, 12), (i.toNat, 0)])
  | .sxori d a i => some (pack 0x28000600 [(d.toNat, 19), (a.toNat, 12), (i.toNat, 0)])
  | .sshli d a i => some (pack 0x28000800 [(d.toNat, 19), (a.toNat, 12), (i.toNat, 0)])
  | .sshri d a i => some (pack 0x28000a00 [(d.toNat, 19), (a.toNat, 12), (i.toNat, 0)])
  | .ssrai d a i => some (pack 0x28000c00 [(d.toNat, 19), (a.toNat, 12), (i.toNat, 0)])
  | .smovi d i j2 => some (pack 0x28000e00 [(d.toNat, 19), (i.toNat, 12), (j2.toNat, 0)])
  | .scmpEq d a b => some (pack 0x2c000000 [(d.toNat, 19), (a.toNat, 12), (b.toNat, 5)])
  | .scmpNe d a b => some (pack 0x2c000001 [(d.toNat, 19), (a.toNat, 12), (b.toNat, 5)])
  | .scmpLt d a b => some (pack 0x2c000002 [(d.toNat, 19), (a.toNat, 12), (b.toNat, 5)])
  | .scmpLe d a b => some (pack 0x2c000003 [(d.toNat, 19), (a.toNat, 12), (b.toNat, 5)])
  | .scmpLtu d a b => some (pack 0x2c000004 [(d.toNat, 19), (a.toNat, 12), (b.toNat, 5)])
  | .scmpLeu d a b => some (pack 0x2c000005 [(d.toNat, 19), (a.toNat, 12), (b.toNat, 5)])
  | .ssel d a b => some (pack 0x2c000006 [(d.toNat, 19), (a.toNat, 12), (b.toNat, 5)])
  | .sbfx d a b => some (pack 0x2c000007 [(d.toNat, 19), (a.toNat, 12), (b.toNat, 5)])
  | .sbfxu d a b => some (pack 0x2c000008 [(d.toNat, 19), (a.toNat, 12), (b.toNat, 5)])
  | .sbfi d a b => some (pack 0x2c000009 [(d.toNat, 19), (a.toNat, 12), (b.toNat, 5)])
  | .vaddI32 d a b => some (pack 0x30000000 [(d.toNat, 19), (a.toNat, 12), (b.toNat, 5)])
  | .vaddN32 d a b => some (pack 0x30000001 [(d.toNat, 19), (a.toNat, 12), (b.toNat, 5)])
  | .vsubI32 d a b => some (pack 0x30000002 [(d.toNat, 19), (a.toNat, 12), (b.toNat, 5)])
  | .vsubN32 d a b => some (pack 0x30000003 [(d.toNat, 19), (a.toNat, 12), (b.toNat, 5)])
  | .vmulI32 d a b => some (pack 0x30000004 [(d.toNat, 19), (a.toNat, 12), (b.toNat, 5)])
  | .vmulhI32 d a b => some (pack 0x30000005 [(d.toNat, 19), (a.toNat, 12), (b.toNat, 5)])
  | .vmulhN32 d a b => some (pack 0x30000006 [(d.toNat, 19), (a.toNat, 12), (b.toNat, 5)])
  | .vmadI32 d a b => some (pack 0x30000007 [(d.toNat, 19), (a.toNat, 12), (b.toNat, 5)])
  | .vandB32 d a b => some (pack 0x30000008 [(d.toNat, 19), (a.toNat, 12), (b.toNat, 5)])
  | .vorB32 d a b => some (pack 0x30000009 [(d.toNat, 19), (a.toNat, 12), (b.toNat, 5)])
  | .vxorB32 d a b => some (pack 0x3000000a [(d.toNat, 19), (a.toNat, 12), (b.toNat, 5)])
  | .vshlB32 d a b => some (pack 0x3000000b [(d.toNat, 19), (a.toNat, 12), (b.toNat, 5)])
  | .vshrN32 d a b => some (pack 0x3000000c [(d.toNat, 19), (a.toNat, 12), (b.toNat, 5)])
  | .vshrI32 d a b => some (pack 0x3000000d [(d.toNat, 19), (a.toNat, 12), (b.toNat, 5)])
  | .vminI32 d a b => some (pack 0x3000000e [(d.toNat, 19), (a.toNat, 12), (b.toNat, 5)])
  | .vminN32 d a b => some (pack 0x3000000f [(d.toNat, 19), (a.toNat, 12), (b.toNat, 5)])
  | .vmaxI32 d a b => some (pack 0x30000010 [(d.toNat, 19), (a.toNat, 12), (b.toNat, 5)])
  | .vmaxN32 d a b => some (pack 0x30000011 [(d.toNat, 19), (a.toNat, 12), (b.toNat, 5)])
  | .vclzB32 d a => some (pack 0x30000012 [(d.toNat, 19), (a.toNat, 12)])
  | .vpopcB32 d a => some (pack 0x30000013 [(d.toNat, 19), (a.toNat, 12)])
  | .vselB32 d a b => some (pack 0x30000014 [(d.toNat, 19), (a.toNat, 12), (b.toNat, 5)])
  | .vdot4I32 d a b => some (pack 0x30000015 [(d.toNat, 19), (a.toNat, 12), (b.toNat, 5)])
  | .vdot4N32 d a b => some (pack 0x30000016 [(d.toNat, 19), (a.toNat, 12), (b.toNat, 5)])
  | .vabsI32 d a => some (pack 0x30000017 [(d.toNat, 19), (a.toNat, 12)])
  | .vaddi d a i => some (pack 0x34000000 [(d.toNat, 19), (a.toNat, 12), (i.toNat, 0)])
  | .vandi d a i => some (pack 0x34000200 [(d.toNat, 19), (a.toNat, 12), (i.toNat, 0)])
  | .vori d a i => some (pack 0x34000400 [(d.toNat, 19), (a.toNat, 12), (i.toNat, 0)])
  | .vxori d a i => some (pack 0x34000600 [(d.toNat, 19), (a.toNat, 12), (i.toNat, 0)])
  | .vshli d a i => some (pack 0x34000800 [(d.toNat, 19), (a.toNat, 12), (i.toNat, 0)])
  | .vshri d a i => some (pack 0x34000a00 [(d.toNat, 19), (a.toNat, 12), (i.toNat, 0)])
  | .vsrai d a i => some (pack 0x34000c00 [(d.toNat, 19), (a.toNat, 12), (i.toNat, 0)])
  | .vmovi d i j2 => some (pack 0x34000e00 [(d.toNat, 19), (i.toNat, 12), (j2.toNat, 0)])
  | .vaddI64 d a b => some (pack 0x38000000 [(d.toNat, 19), (a.toNat, 12), (b.toNat, 5)])
  | .vaddN64 d a b => some (pack 0x38000001 [(d.toNat, 19), (a.toNat, 12), (b.toNat, 5)])
  | .vsubI64 d a b => some (pack 0x38000002 [(d.toNat, 19), (a.toNat, 12), (b.toNat, 5)])
  | .vsubN64 d a b => some (pack 0x38000003 [(d.toNat, 19), (a.toNat, 12), (b.toNat, 5)])
  | .vmulI64 d a b => some (pack 0x38000004 [(d.toNat, 19), (a.toNat, 12), (b.toNat, 5)])
  | .vandN64 d a b => some (pack 0x38000005 [(d.toNat, 19), (a.toNat, 12), (b.toNat, 5)])
  | .vorN64 d a b => some (pack 0x38000006 [(d.toNat, 19), (a.toNat, 12), (b.toNat, 5)])
  | .vxorN64 d a b => some (pack 0x38000007 [(d.toNat, 19), (a.toNat, 12), (b.toNat, 5)])
  | .vshlN64 d a b => some (pack 0x38000008 [(d.toNat, 19), (a.toNat, 12), (b.toNat, 5)])
  | .vshrN64 d a b => some (pack 0x38000009 [(d.toNat, 19), (a.toNat, 12), (b.toNat, 5)])
  | .vshrI64 d a b => some (pack 0x3800000a [(d.toNat, 19), (a.toNat, 12), (b.toNat, 5)])
  | .vminI64 d a b => some (pack 0x3800000b [(d.toNat, 19), (a.toNat, 12), (b.toNat, 5)])
  | .vminN64 d a b => some (pack 0x3800000c [(d.toNat, 19), (a.toNat, 12), (b.toNat, 5)])
  | .vmaxI64 d a b => some (pack 0x3800000d [(d.toNat, 19), (a.toNat, 12), (b.toNat, 5)])
  | .vmaxN64 d a b => some (pack 0x3800000e [(d.toNat, 19), (a.toNat, 12), (b.toNat, 5)])
  | .vmulwI32 d a b => some (pack 0x3800000f [(d.toNat, 19), (a.toNat, 12), (b.toNat, 5)])
  | .vmulwN32 d a b => some (pack 0x38000010 [(d.toNat, 19), (a.toNat, 12), (b.toNat, 5)])
  | .vaddsI32 d a b => some (pack 0x3c000000 [(d.toNat, 19), (a.toNat, 12), (b.toNat, 5)])
  | .vsubsI32 d a b => some (pack 0x3c000001 [(d.toNat, 19), (a.toNat, 12), (b.toNat, 5)])
  | .vmulsI32 d a b => some (pack 0x3c000002 [(d.toNat, 19), (a.toNat, 12), (b.toNat, 5)])
  | .vandsB32 d a b => some (pack 0x3c000003 [(d.toNat, 19), (a.toNat, 12), (b.toNat, 5)])
  | .vorsB32 d a b => some (pack 0x3c000004 [(d.toNat, 19), (a.toNat, 12), (b.toNat, 5)])
  | .vxorsB32 d a b => some (pack 0x3c000005 [(d.toNat, 19), (a.toNat, 12), (b.toNat, 5)])
  | .vshlsB32 d a b => some (pack 0x3c000006 [(d.toNat, 19), (a.toNat, 12), (b.toNat, 5)])
  | .vshrsN32 d a b => some (pack 0x3c000007 [(d.toNat, 19), (a.toNat, 12), (b.toNat, 5)])
  | .vshrsI32 d a b => some (pack 0x3c000008 [(d.toNat, 19), (a.toNat, 12), (b.toNat, 5)])
  | .vminsI32 d a b => some (pack 0x3c000009 [(d.toNat, 19), (a.toNat, 12), (b.toNat, 5)])
  | .vmaxsI32 d a b => some (pack 0x3c00000a [(d.toNat, 19), (a.toNat, 12), (b.toNat, 5)])
  | .vaddsI64 d a b => some (pack 0x3c00000b [(d.toNat, 19), (a.toNat, 12), (b.toNat, 5)])
  | .vaddF32 d a b => some (pack 0x40000000 [(d.toNat, 19), (a.toNat, 12), (b.toNat, 5)])
  | .vsubF32 d a b => some (pack 0x40000001 [(d.toNat, 19), (a.toNat, 12), (b.toNat, 5)])
  | .vmulF32 d a b => some (pack 0x40000002 [(d.toNat, 19), (a.toNat, 12), (b.toNat, 5)])
  | .vminF32 d a b => some (pack 0x40000003 [(d.toNat, 19), (a.toNat, 12), (b.toNat, 5)])
  | .vmaxF32 d a b => some (pack 0x40000004 [(d.toNat, 19), (a.toNat, 12), (b.toNat, 5)])
  | .vabsF32 d a => some (pack 0x40000005 [(d.toNat, 19), (a.toNat, 12)])
  | .vnegF32 d a => some (pack 0x40000006 [(d.toNat, 19), (a.toNat, 12)])
  | .vcpysF32 d a b => some (pack 0x40000007 [(d.toNat, 19), (a.toNat, 12), (b.toNat, 5)])
  | .vrintF32 d a => some (pack 0x40000008 [(d.toNat, 19), (a.toNat, 12)])
  | .vclassF32 d a => some (pack 0x40000009 [(d.toNat, 19), (a.toNat, 12)])
  | .vaddF16Bf16 d a b f => some (pack 0x44000000 [(d.toNat, 19), (a.toNat, 12), (b.toNat, 5), (f.toNat, 4)])
  | .vsubF16Bf16 d a b f => some (pack 0x44000001 [(d.toNat, 19), (a.toNat, 12), (b.toNat, 5), (f.toNat, 4)])
  | .vmulF16Bf16 d a b f => some (pack 0x44000002 [(d.toNat, 19), (a.toNat, 12), (b.toNat, 5), (f.toNat, 4)])
  | .vminF16Bf16 d a b f => some (pack 0x44000003 [(d.toNat, 19), (a.toNat, 12), (b.toNat, 5), (f.toNat, 4)])
  | .vmaxF16Bf16 d a b f => some (pack 0x44000004 [(d.toNat, 19), (a.toNat, 12), (b.toNat, 5), (f.toNat, 4)])
  | .vabsF16Bf16 d a f => some (pack 0x44000005 [(d.toNat, 19), (a.toNat, 12), (f.toNat, 4)])
  | .vnegF16Bf16 d a f => some (pack 0x44000006 [(d.toNat, 19), (a.toNat, 12), (f.toNat, 4)])
  | .vfmaF32 d a b => some (pack 0x48000000 [(d.toNat, 19), (a.toNat, 12), (b.toNat, 5)])
  | .vfmsF32 d a b => some (pack 0x48000001 [(d.toNat, 19), (a.toNat, 12), (b.toNat, 5)])
  | .vfnmaF32 d a b => some (pack 0x48000002 [(d.toNat, 19), (a.toNat, 12), (b.toNat, 5)])
  | .vfnmsF32 d a b => some (pack 0x48000003 [(d.toNat, 19), (a.toNat, 12), (b.toNat, 5)])
  | .vfmaF16Bf16 d a b f => some (pack 0x4c000000 [(d.toNat, 19), (a.toNat, 12), (b.toNat, 5), (f.toNat, 4)])
  | .vfmsF16Bf16 d a b f => some (pack 0x4c000001 [(d.toNat, 19), (a.toNat, 12), (b.toNat, 5), (f.toNat, 4)])
  | .vfnmaF16Bf16 d a b f => some (pack 0x4c000002 [(d.toNat, 19), (a.toNat, 12), (b.toNat, 5), (f.toNat, 4)])
  | .vfnmsF16Bf16 d a b f => some (pack 0x4c000003 [(d.toNat, 19), (a.toNat, 12), (b.toNat, 5), (f.toNat, 4)])
  | .vdot2 d a b f => some (pack 0x4c000004 [(d.toNat, 19), (a.toNat, 12), (b.toNat, 5), (f.toNat, 4)])
  | .vrcpF32 d a => some (pack 0x50000000 [(d.toNat, 19), (a.toNat, 12)])
  | .vrsqrtF32 d a => some (pack 0x50000001 [(d.toNat, 19), (a.toNat, 12)])
  | .vsqrtF32 d a => some (pack 0x50000002 [(d.toNat, 19), (a.toNat, 12)])
  | .vexp2F32 d a => some (pack 0x50000003 [(d.toNat, 19), (a.toNat, 12)])
  | .vlog2F32 d a => some (pack 0x50000004 [(d.toNat, 19), (a.toNat, 12)])
  | .vsinF32 d a => some (pack 0x50000005 [(d.toNat, 19), (a.toNat, 12)])
  | .vcosF32 d a => some (pack 0x50000006 [(d.toNat, 19), (a.toNat, 12)])
  | .vtanhF32 d a => some (pack 0x50000007 [(d.toNat, 19), (a.toNat, 12)])
  | .vdivF32 d a b => some (pack 0x50000008 [(d.toNat, 19), (a.toNat, 12), (b.toNat, 5)])
  | .vaddsF32 d a b => some (pack 0x54000000 [(d.toNat, 19), (a.toNat, 12), (b.toNat, 5)])
  | .vsubsF32 d a b => some (pack 0x54000001 [(d.toNat, 19), (a.toNat, 12), (b.toNat, 5)])
  | .vmulsF32 d a b => some (pack 0x54000002 [(d.toNat, 19), (a.toNat, 12), (b.toNat, 5)])
  | .vfmasF32 d a b => some (pack 0x54000003 [(d.toNat, 19), (a.toNat, 12), (b.toNat, 5)])
  | .vminsF32 d a b => some (pack 0x54000004 [(d.toNat, 19), (a.toNat, 12), (b.toNat, 5)])
  | .vmaxsF32 d a b => some (pack 0x54000005 [(d.toNat, 19), (a.toNat, 12), (b.toNat, 5)])
  | .vcvtWide d a t h g s => some (pack 0x58000000 [(d.toNat, 19), (a.toNat, 12), (t.toNat, 9), (h.toNat, 8), (g.toNat, 7), (s.toNat, 0)])
  | .vcvtNarrowToF32 d a f i => some (pack 0x58000008 [(d.toNat, 19), (a.toNat, 12), (f.toNat, 5), (i.toNat, 0)])
  | .vcvtF32ToNarrow d a f i => some (pack 0x58000010 [(d.toNat, 19), (a.toNat, 12), (f.toNat, 5), (i.toNat, 0)])
  | .vcmpEqI32 d a b => some (pack 0x5c000000 [(d.toNat, 19), (a.toNat, 12), (b.toNat, 5)])
  | .vcmpNeI32 d a b => some (pack 0x5c000001 [(d.toNat, 19), (a.toNat, 12), (b.toNat, 5)])
  | .vcmpLtI32 d a b => some (pack 0x5c000002 [(d.toNat, 19), (a.toNat, 12), (b.toNat, 5)])
  | .vcmpLeI32 d a b => some (pack 0x5c000003 [(d.toNat, 19), (a.toNat, 12), (b.toNat, 5)])
  | .vcmpLtN32 d a b => some (pack 0x5c000004 [(d.toNat, 19), (a.toNat, 12), (b.toNat, 5)])
  | .vcmpLeN32 d a b => some (pack 0x5c000005 [(d.toNat, 19), (a.toNat, 12), (b.toNat, 5)])
  | .vcmpEqF32 d a b => some (pack 0x5c000006 [(d.toNat, 19), (a.toNat, 12), (b.toNat, 5)])
  | .vcmpNeF32 d a b => some (pack 0x5c000007 [(d.toNat, 19), (a.toNat, 12), (b.toNat, 5)])
  | .vcmpLtF32 d a b => some (pack 0x5c000008 [(d.toNat, 19), (a.toNat, 12), (b.toNat, 5)])
  | .vcmpLeF32 d a b => some (pack 0x5c000009 [(d.toNat, 19), (a.toNat, 12), (b.toNat, 5)])
  | .vcmpUnF32 d a b => some (pack 0x5c00000a [(d.toNat, 19), (a.toNat, 12), (b.toNat, 5)])
  | .pand d a b => some (pack 0x5c000010 [(d.toNat, 19), (a.toNat, 12), (b.toNat, 5)])
  | .por d a b => some (pack 0x5c000011 [(d.toNat, 19), (a.toNat, 12), (b.toNat, 5)])
  | .pxor d a b => some (pack 0x5c000012 [(d.toNat, 19), (a.toNat, 12), (b.toNat, 5)])
  | .pandn d a b => some (pack 0x5c000013 [(d.toNat, 19), (a.toNat, 12), (b.toNat, 5)])
  | .pnot d a => some (pack 0x5c000014 [(d.toNat, 19), (a.toNat, 12)])
  | .vshfl d a b => some (pack 0x60000000 [(d.toNat, 19), (a.toNat, 12), (b.toNat, 5)])
  | .vprmXor d a b => some (pack 0x60000001 [(d.toNat, 19), (a.toNat, 12), (b.toNat, 5)])
  | .vprmRot d a b => some (pack 0x60000002 [(d.toNat, 19), (a.toNat, 12), (b.toNat, 5)])
  | .vbcst d a b => some (pack 0x60000003 [(d.toNat, 19), (a.toNat, 12), (b.toNat, 5)])
  | .vredF32 d a => some (pack 0x60000004 [(d.toNat, 19), (a.toNat, 12)])
  | .vredI32 d a => some (pack 0x60000005 [(d.toNat, 19), (a.toNat, 12)])
  | .vredminF32 d a => some (pack 0x60000006 [(d.toNat, 19), (a.toNat, 12)])
  | .vredmaxF32 d a => some (pack 0x60000007 [(d.toNat, 19), (a.toNat, 12)])
  | .vredminI32 d a => some (pack 0x60000008 [(d.toNat, 19), (a.toNat, 12)])
  | .vredmaxI32 d a => some (pack 0x60000009 [(d.toNat, 19), (a.toNat, 12)])
  | .vredandB32 d a => some (pack 0x6000000a [(d.toNat, 19), (a.toNat, 12)])
  | .vredorB32 d a => some (pack 0x6000000b [(d.toNat, 19), (a.toNat, 12)])
  | .vscanF32 d a => some (pack 0x6000000c [(d.toNat, 19), (a.toNat, 12)])
  | .vscanI32 d a => some (pack 0x6000000d [(d.toNat, 19), (a.toNat, 12)])
  | .vscanxF32 d a => some (pack 0x6000000e [(d.toNat, 19), (a.toNat, 12)])
  | .vscanxI32 d a => some (pack 0x6000000f [(d.toNat, 19), (a.toNat, 12)])
  | .vmatch d a => some (pack 0x60000010 [(d.toNat, 19), (a.toNat, 12)])
  | .srd d s => some (pack 0x64000000 [(d.toNat, 19), (s.toNat, 12)])
  | .fpcrd d => some (pack 0x64000001 [(d.toNat, 19)])
  | .fpcwr a => some (pack 0x64000002 [(a.toNat, 12)])
  | .vmov d a => some (pack 0x64000003 [(d.toNat, 19), (a.toNat, 12)])
  | .vmovs d a => some (pack 0x64000004 [(d.toNat, 19), (a.toNat, 12)])
  | .smovv d a b => some (pack 0x64000005 [(d.toNat, 19), (a.toNat, 12), (b.toNat, 5)])
  | .vins d a b => some (pack 0x64000006 [(d.toNat, 19), (a.toNat, 12), (b.toNat, 5)])
  | .p2s d a => some (pack 0x64000007 [(d.toNat, 19), (a.toNat, 12)])
  | .s2p d a => some (pack 0x64000008 [(d.toNat, 19), (a.toNat, 12)])
  | .vld d a b z p => some (pack 0x68000000 [(d.toNat, 19), (a.toNat, 12), (b.toNat, 5), (z.toNat, 2), (p.toNat, 0)])
  | .vst d a b z p => some (pack 0x6c000000 [(d.toNat, 19), (a.toNat, 12), (b.toNat, 5), (z.toNat, 2), (p.toNat, 0)])
  | .vldc d a z i => some (pack 0x70000000 [(d.toNat, 19), (a.toNat, 12), (z.toNat, 9), (i.toNat, 0)])
  | .vstc d a z i => some (pack 0x70000800 [(d.toNat, 19), (a.toNat, 12), (z.toNat, 9), (i.toNat, 0)])
  | .sld d a z i => some (pack 0x74000000 [(d.toNat, 19), (a.toNat, 12), (z.toNat, 9), (i.toNat, 0)])
  | .sst d a z i => some (pack 0x74000800 [(d.toNat, 19), (a.toNat, 12), (z.toNat, 9), (i.toNat, 0)])
  | .lld d a b z => some (pack 0x78000000 [(d.toNat, 19), (a.toNat, 12), (b.toNat, 5), (z.toNat, 2)])
  | .lst d a b z => some (pack 0x78000001 [(d.toNat, 19), (a.toNat, 12), (b.toNat, 5), (z.toNat, 2)])
  | .slda d a o z p => some (pack 0x7c000008 [(d.toNat, 19), (a.toNat, 12), (o.toNat, 7), (z.toNat, 2), (p.toNat, 0)])
  | .sstr d a o z p => some (pack 0x7c000028 [(d.toNat, 19), (a.toNat, 12), (o.toNat, 7), (z.toNat, 2), (p.toNat, 0)])
  | .vlda d a o z p => some (pack 0x7c000048 [(d.toNat, 19), (a.toNat, 12), (o.toNat, 7), (z.toNat, 2), (p.toNat, 0)])
  | .vstr d a o z p => some (pack 0x7c000068 [(d.toNat, 19), (a.toNat, 12), (o.toNat, 7), (z.toNat, 2), (p.toNat, 0)])
  | .vatom d a b w c => some (pack 0x80000000 [(d.toNat, 19), (a.toNat, 12), (b.toNat, 5), (w.toNat, 4), (c.toNat, 0)])
  | .satom d a b w c => some (pack 0x84000000 [(d.toNat, 19), (a.toNat, 12), (b.toNat, 5), (w.toNat, 4), (c.toNat, 0)])
  | .xcopy d a b => some (pack 0x88000000 [(d.toNat, 19), (a.toNat, 12), (b.toNat, 5)])
  | .xcopyt d a b => some (pack 0x88000001 [(d.toNat, 19), (a.toNat, 12), (b.toNat, 5)])
  | .xgath d a b => some (pack 0x88000002 [(d.toNat, 19), (a.toNat, 12), (b.toNat, 5)])
  | .pft a b => some (pack 0x88000003 [(a.toNat, 12), (b.toNat, 5)])
  | .look a b => some (pack 0x88000004 [(a.toNat, 12), (b.toNat, 5)])
  | .waitc c n => some (pack 0x8c000000 [(c.toNat, 19), (n.toNat, 0)])
  | .tagwany a => some (pack 0x8c200000 [(a.toNat, 7)])
  | .tagwall a => some (pack 0x8c400000 [(a.toNat, 7)])
  | .tagffr d a => some (pack 0x8c600000 [(d.toNat, 14), (a.toNat, 7)])
  | .tagclr a => some (pack 0x8c800000 [(a.toNat, 7)])
  | .tagrd d => some (pack 0x8ca00000 [(d.toNat, 14)])
  | .fence m => some (pack 0x90000000 [(m.toNat, 0)])
  | .fenceTc => some (pack 0x90200000 [])
  | .bar b => some (pack 0x90400000 [(b.toNat, 0)])
  | .rbar b => some (pack 0x90600000 [(b.toNat, 0)])
  | .mclose => some (pack 0x90800000 [])
  | .send a n c => some (pack 0x94000000 [(a.toNat, 12), (n.toNat, 6), (c.toNat, 0)])
  | .recv d n c => some (pack 0x94000200 [(d.toNat, 19), (n.toNat, 6), (c.toNat, 0)])
  | .chpoll d c => some (pack 0x94000400 [(d.toNat, 19), (c.toNat, 0)])
  | .amsg d a h => some (pack 0x94000600 [(d.toNat, 19), (a.toNat, 12), (h.toNat, 0)])
  | .launch d a b => some (pack 0x98000000 [(d.toNat, 19), (a.toNat, 12), (b.toNat, 5)])
  | .lwait d a => some (pack 0x98000001 [(d.toNat, 19), (a.toNat, 12)])
  | .spawn d a b => some (pack 0x98000002 [(d.toNat, 19), (a.toNat, 12), (b.toNat, 5)])
  | .tdef d a b => some (pack 0x98000003 [(d.toNat, 19), (a.toNat, 12), (b.toNat, 5)])
  | .mma a b s z t => some (pack 0x9c000000 [(a.toNat, 22), (b.toNat, 18), (s.toNat, 11), (z.toNat, 8), (t.toNat, 7)])
  | .mmas a b s z t => some (pack 0x9c000200 [(a.toNat, 22), (b.toNat, 18), (s.toNat, 11), (z.toNat, 8), (t.toNat, 7)])
  | .mmax a b s z t m => some (pack 0x9c000400 [(a.toNat, 22), (b.toNat, 18), (s.toNat, 11), (z.toNat, 8), (t.toNat, 7), (m.toNat, 3)])
  | .tcfg a s => some (pack 0xa0000000 [(a.toNat, 22), (s.toNat, 11)])
  | .tld a s => some (pack 0xa0000100 [(a.toNat, 22), (s.toNat, 11)])
  | .tst a s => some (pack 0xa0000200 [(a.toNat, 22), (s.toNat, 11)])
  | .tzero a => some (pack 0xa0000300 [(a.toNat, 22)])
  | .txfer a p => some (pack 0xa0000400 [(a.toNat, 22), (p.toNat, 6)])
  | .trecv a p => some (pack 0xa0000500 [(a.toNat, 22), (p.toNat, 6)])
  | .amcpOut s => some (pack 0xa0000600 [(s.toNat, 11)])
  | .amcpIn s => some (pack 0xa0000680 [(s.toNat, 11)])
  | .amzero s => some (pack 0xa0000700 [(s.toNat, 11)])
  | .xratom d a b => some (pack 0xa4000000 [(d.toNat, 19), (a.toNat, 12), (b.toNat, 5)])
  | .xcoll a b => some (pack 0xa4000001 [(a.toNat, 12), (b.toNat, 5)])
  | .segq d a => some (pack 0xa8000000 [(d.toNat, 19), (a.toNat, 12)])
  | .ferry a => some (pack 0xa8000001 [(a.toNat, 12)])
  | .ksel b a d => some (pack 0x0000000b [(b.toNat, 20), (a.toNat, 15), (d.toNat, 7)])
  | .klw b a d => some (pack 0x0000100b [(b.toNat, 20), (a.toNat, 15), (d.toNat, 7)])
  | .ksw b a d => some (pack 0x0000200b [(b.toNat, 20), (a.toNat, 15), (d.toNat, 7)])
  | .kfadd b a d => some (pack 0x0000300b [(b.toNat, 20), (a.toNat, 15), (d.toNat, 7)])
  | .kend b a d => some (pack 0x0000400b [(b.toNat, 20), (a.toNat, 15), (d.toNat, 7)])
  | .illegalInstruction _ => none
  | .keeperBaseInstruction _ => none
  | .prefetchComplete _ _ => none
  | .landingOccupancySample _ => none
  | .lossOfTraining _ => none
  | .upstreamLinkUp => none
  | .stoppedWaveRestart _ _ => none

/-- The word of an instruction. -/
def encode (i : Instr) : Option Word := (encodeNat i).map (BitVec.ofNat 32)

end Sys2Proof
end

