-- ==== Sys2Proof/Config.lean ====
section
/-!
DEFINITION. What one Goriton package fixes: the figures of R2 and R14 that rules compute with, and the values that the
spec leaves open (free values, which have no body).
-/
namespace Sys2Proof.Config

/-- The n-th value that the spec leaves open, 64 bits wide: a rule takes the bits it needs (log entries 2 and 3). -/
opaque freeValue : Nat → DWord

/-- Whether an ECDSA P-384 signature verifies over a SHA-384 digest under the platform public key in the mask ROM. The
spec does not give the key (R24, log entry 4). -/
opaque signatureVerifies : List Byte → List Byte → Bool

/-- The monitor's entry address for hypervisor mode on compute cores: in the monitor's region of hub-private memory,
which the spec does not place (R420, R428, log entry 5). -/
opaque monitorEntry : DWord

/-- The number of bytes of the monitor's region (R421, log entry 5). -/
opaque monitorSize : Nat

/-- The bytes of a firmware image in flash (0 control cores, 1 partition monitor): where the images lie in flash is not given (R26
step 4, log entry 4). The flash is given as its listed bytes. -/
opaque firmwareImage : Nat → List (Nat × Byte) → List Byte

/-- The offset in the package's control memory at which a firmware image is loaded, which is not given either (R26 step 4, log
entry 4). -/
opaque firmwareBase : Nat → Nat

/-- Which of the 8,192 sets of a slice holds a line: the spec does not give the index (R271, R281, log entry 11). -/
opaque setIndex : Nat → Nat

/-- Which of the 256 sets of an L1 data cache holds a line: the spec does not give the index (R271, log entry 107). -/
opaque l1Set : Nat → Nat

/-- Core cycles for which a held write, arrival or exit is kept (R455). -/
def quarantine : Nat := 64

/-- Number of Crica ports of a package (R2). -/
def ports : Nat := 64

/-- Number of L2 slices, and of keepers, of a package (R2). -/
def slices : Nat := 96

/-- The flit buffers that a receiving port has for a virtual channel (R358). -/
def flitBuffers (vc : Nat) : Nat := if vc = 4 then 32 else 64

/-- The number of packets after which a key must have been updated (R363). -/
def counterLimit : Nat := 2 ^ 40

/-- Power blocks of a package (R17): 6 sectors, 12 slice groups, 8 HBM stacks, 16 port groups, the hub. -/
def powerBlocks : Nat := 43

/-- `PGRACE` after start-up (R449). -/
def pgraceReset : Nat := 1024

/-- Entries of the range matcher (R106), team entries (R114). -/
def matcherEntries : Nat := 4096

/-- Team entries of a package (R114). -/
def teamEntries : Nat := 65536

/-- Uncore cycles before a candidate becomes reserved (R111). -/
def reserveWait : Nat := 2000000

/-- Uncore cycles for which a region stays with its new owner (R285). -/
def ownershipHold : Nat := 8192

end Sys2Proof.Config
end

