-- ==== Sys2Proof/Machine/State.lean ====
section
/-!
DEFINITION. The state of one Goriton package and of the boundary at which the rest of its domain, the upstream host, the
control cores and the platform act on it. Every field is plain data. INVENTORY.md lists each with its rule.
-/
namespace Sys2Proof.Machine

/-- Sparse registers or bytes: key and value pairs in rising key order, none of them zero; an absent key reads zero. -/
abbrev Cells (w : Nat) := List (Nat × BitVec w)

/-- The three modes (R420). -/
inductive Mode where
  | user
  | supervisor
  | hypervisor
  deriving DecidableEq, Repr

/-! ## The wave -/

/-- The registers of a wave that a restart restores (R460): masks, register files, `fpc`, `rvsp`, the mode and every
per-wave privileged register of R422. Vector element (r, l) has key 64 r + l. -/
structure Arch where
  exm : DWord
  vregs : Cells 32
  sregs : Cells 64
  preds : Cells 64
  fpc : DWord
  rvsp : DWord
  mode : Mode
  sdepth : Nat
  ddepth : Bool
  sstep : Bool
  estat : DWord
  epc : DWord
  ecause : Cells 32
  emask : DWord
  eaddr : Cells 64
  evec : DWord
  uhtv : DWord
  wdog : DWord
  hstat : DWord
  hepc : DWord
  deriving DecidableEq, Repr

/-- A section of an image (R40). -/
structure Section where
  kind : Nat
  seg : Nat
  off : Nat
  size : Nat
  deriving DecidableEq, Repr

/-- The local store of one team of the reach, as the reach window and the pair store see it (R49, R50, R132): the team, the position
of its core in the cluster, the core, and the run. -/
structure StoreRun where
  team : Nat := 0
  pos : Nat
  core : Nat
  base : Nat
  limit : Nat
  deriving DecidableEq, Repr

/-- What a wave's launch fixes for it: its place, its counts, its private block, its image and its tables (R61, R62,
R126, R127, R130). `own` is the run of its own core, `partner` that of the other core of a pair. -/
structure Env where
  vi : Nat
  asid : Nat
  grid : Nat
  team : Nat
  reach : Nat
  depth : Nat
  wavew : Nat
  wavesPerTeam : Nat
  waveid : Nat
  gx : Nat
  gy : Nat
  gz : Nat
  nV : Nat
  nS : Nat
  privLane : Nat
  privWave : Nat
  privBase : Nat
  privSize : Nat
  image : DWord
  entry : Nat
  sections : List Section
  ferry : Bool
  det : Bool
  lookouts : Bool
  own : StoreRun
  partner : Option StoreRun
  window : List StoreRun
  ttBase : DWord
  ttCount : Nat
  ovfBase : Nat
  ovfSize : Nat
  teams : Nat
  args : List DWord
  deriving DecidableEq, Repr

/-- One register element written by a long-latency instruction (R154, R155), or the flags that it raises (R187). -/
inductive RegWrite where
  | flags (f : BitVec 5)
  | vec (r lane : Nat) (x : Word)
  | scal (r : Nat) (x : DWord)
  deriving DecidableEq, Repr

/-- A place in memory: a physical key (see `State.mem`), or a byte of a core's local store. -/
inductive Place where
  | mem (key : Nat)
  | store (core off : Nat)
  deriving DecidableEq, Repr

/-- A long-latency instruction in progress: the flag it is attached to (R153), how many steps elsewhere it still awaits,
and the elements it has to write, as far as they are known. `racing` names the elements that a load read from a sector whose fill
was pending, with the places of their bytes (R291), and `landed` those that have been written early (R155). -/
structure LongOp where
  id : Nat
  flag : Option Nat
  left : Nat
  writes : List RegWrite
  racing : List (Nat × List Place) := []
  landed : List Nat := []
  deriving DecidableEq, Repr

/-- A trap that is due (R426): whole-wave or lane trap, the lanes with their cause words and addresses, whether it is a
boundary trap, the number of an HVC, and whether it arose during a replay. -/
structure Trap where
  whole : Bool
  mask : DWord
  causes : Cells 32
  addrs : Cells 64
  boundary : Bool
  hvc : Option Nat
  deriving DecidableEq, Repr

/-- A failed operation whose engine-failure trap is pending (R310): status, counter and stream of the cause word. -/
structure EngineFailure where
  status : OpStatus
  counter : Option Nat
  stream : Nat
  deriving DecidableEq, Repr

/-- Where a wave stands. `ready`: between clauses; `inClause`: issuing; `stalled`: at a terminal instruction (R156);
`exiting`: EXIT is held (R455); `stopped`: a cause met in hypervisor mode (R447). -/
inductive WaveStatus where
  | absent
  | ready
  | inClause
  | stalled
  | exiting
  | exited
  | stopped
  deriving DecidableEq, Repr

/-- Why a wave is held at a clause boundary (R32, R443, R449). -/
inductive StopKind where
  | halted
  | preempted
  | frozen
  deriving DecidableEq, Repr

/-- A position in a program: the header address, the header, the words of the clause, the next word, whether the clause
is entered in its middle (R158, R235), and whether the group named is one that a return passes over (R432). -/
structure Position where
  pc : DWord
  header : Word
  words : List Word
  ridx : Nat
  mid : Bool
  skip : Bool
  deriving DecidableEq, Repr

/-- A region entry that a wave has reached (R457): its restart state, the mask that a replay is to restore, the boundary traps that
were due and the engine failures reported since, the long-latency instructions that were still in progress at it, and when it was
reached. -/
structure RegionEntry where
  arch : Arch
  replay : Option DWord
  expiryDue : Bool
  stepDue : Bool
  taken : List EngineFailure
  lls : List Nat
  pos : Position
  inClause : Bool
  reachedAt : Nat
  confirmed : Bool
  deriving DecidableEq, Repr

/-- A barrier at which a wave has arrived (R403), whether its arrival has been released (R455), and whether the barrier has
completed while a watchdog handler held the wave (R405). -/
structure Arrival where
  reachLevel : Bool
  number : Nat
  released : Bool
  complete : Bool
  deriving DecidableEq, Repr

/-- A batch of matrix operations (R336, R337): those not completed, how many it took in, the flags that its MMAs raised, and
when it was closed. -/
structure Batch where
  left : List Nat
  size : Nat
  flags : BitVec 5
  closedAt : Nat
  deriving DecidableEq, Repr

/-- One wave of a core, or a lookout (R144). `age` counts in groups of 8,192 the starts of the same core cycle (R141); `unserved` is
the core cycle since which it has been ready without a slot (R142), `issueSlot` the slot that it holds (R140), `fenceAt` the cycle in
which the fence issued at which it is stalled (R392), `lookoutOver` that a lookout is to end at its next boundary (R146). -/
structure Wave where
  core : Nat
  slot : Nat
  env : Env
  status : WaveStatus
  pos : Position
  hints : List Word
  replay : Option DWord
  badResume : Option DWord
  fellX : Bool
  arch : Arch
  ll : List LongOp
  ocx : Nat
  ocm : Nat
  ocg : Nat
  ock : Nat
  openBatch : Batch
  batches : List Batch
  pending : Option Trap
  stepDue : Bool
  expiryDue : Bool
  failures : List EngineFailure
  arrival : Option Arrival
  stop : Option StopKind
  svStart : Option Nat
  svDepth : Nat
  prio : Nat
  noShare : Bool
  yieldDue : Bool
  yielded : Bool
  age : Nat
  readySince : Nat
  unserved : Option Nat
  issueSlot : Nat
  boostedAt : Option Nat
  entries : List RegionEntry
  entryDue : Bool
  issued : Bool
  waitInv : Option (Bool × DWord)
  fenceAt : Option Nat
  lookoutOf : Option Nat
  lookoutStart : Nat
  lookoutRange : Nat × Nat
  lookoutOver : Bool
  deriving DecidableEq, Repr

/-! ## The core -/

/-- An atomic as it travels to its home (R303, R304): operation, size in bytes, operand and expected value. -/
structure AtomicOp where
  op : Nat
  size : Nat
  b : DWord
  e : DWord
  deriving DecidableEq, Repr

/-- A ferry traveller (R252, R256). `offerAt` is the uncore cycle from which it may be offered again, `departAt` the core cycle in which
its quarantine ends (R255), `age` its wave's (R257), `tag` the number of its message on the ring. -/
structure Traveller where
  grid : Nat
  slot : Nat
  entry : Nat
  lmask : BitVec 16
  lbase : Nat
  spawn : Bool
  seg : Nat
  preds : BitVec 12
  src : Nat
  team : Nat
  regs : List (Nat × Word)
  offerAt : Nat
  departAt : Nat
  age : Nat := 0
  tag : Nat := 0
  deriving DecidableEq, Repr

/-- A channel packet (R409, R415). -/
structure ChanPacket where
  vi : Nat
  route : Nat
  stop : Nat
  ep : Nat
  dch : Nat
  sch : Nat
  srcStop : Nat
  srcEp : Nat
  seq : Nat
  flits : Nat
  payload : List Byte
  offered : Bool
  offerAt : Nat
  deriving DecidableEq, Repr

/-- What a held item does when the quarantine releases it (R455). An atomic writes its old value to the elements `dst` of
long-latency instruction `ll`, acquires when it has an observer mask, and waits for the operations `after` (R305); one that has
been sent to another home stays until the response with its tag arrives. -/
inductive HeldKind where
  | write (p : Place) (bytes : List Byte)
  | atomic (p : Place) (a : AtomicOp) (ll : Nat) (dst : List RegWrite) (acquire : Bool) (after : List Nat) (sent : Option Nat)
  | launch (vi q seq : Nat) (addr : DWord) (bytes : List Byte) (entry : Option Nat)
  | start (op : Nat)
  | send (p : ChanPacket)
  | take (ch : Nat) (p : ChanPacket)
  | tags (cleared : DWord)
  | spawn (bin : Nat) (lanes : Nat)
  | overflow (t : Traveller)
  | arrive
  | exit
  deriving DecidableEq, Repr

/-- A held item: the wave slot that made it, the core cycle of its issue, and its effect; of a store also its cache policy (R278), and
whether it is a release towards the cores (R301). -/
structure Held where
  slot : Nat
  at_ : Nat
  kind : HeldKind
  policy : Nat := 0
  rel : Bool := false
  deriving DecidableEq, Repr

/-- A lane waiting in a spawn bin (R117): its two argument words, or the registers and predicate bits of a landed
traveller (R260), and whether the quarantine still holds it (R124). -/
structure BinLane where
  regs : List (Nat × Word)
  preds : BitVec 12
  held : Bool
  deriving DecidableEq, Repr

/-- A bound spawn bin (R117, R118). `left` is the running timer, absent while the bin is empty. -/
structure Bin where
  index : Nat
  grid : Nat
  team : Nat
  entry : Nat
  reload : Nat
  sticky : Bool
  markedReady : Bool
  left : Option Nat
  lanes : List BinLane
  deriving DecidableEq, Repr

/-- A clause held in the instruction store (R44, R147): header address, header and words, for the image of one grid. -/
structure StoredClause where
  vi : Nat
  grid : Nat
  addr : DWord
  header : Word
  words : List Word
  deriving DecidableEq, Repr

/-- The kinds of matrix operation (R333). -/
inductive MatrixKind where
  | mma (zero trans : Bool)
  | mmas (zero trans : Bool) (sx sy : DWord)
  | mmax (zero trans : Bool) (tm : Nat)
  | tld (addr : DWord)
  | tst (addr : DWord)
  | tzero
  | txfer (port : Nat)
  | trecv (port : Nat)
  | amcpOut (s : DWord)
  | amcpIn (s : DWord)
  | amzero (s : DWord)
  deriving DecidableEq, Repr

/-- A queued matrix operation with the state it captured at issue (R333): tiles, their configurations, the origin; the first
cycle in which it may begin, and when it began (R352). -/
structure MatrixOp where
  id : Nat
  slot : Nat
  env : Env
  kind : MatrixKind
  ta : Nat
  tb : Nat
  tca : DWord
  tcb : DWord
  origin : DWord
  issuedAt : Nat
  notBefore : Nat
  begunAt : Option Nat
  issueSlot : Nat := 0
  done : Nat := 0
  deriving DecidableEq, Repr

/-- The matrix set of a core (R129, R328, R331, R349). Tile byte b of tile t has key 8192 t + b; accumulator element
(i, j) has key 128 i + j. -/
structure MatrixData where
  tiles : Cells 8
  tcs : Cells 64
  accum : Cells 32
  rill : List (Nat × List Byte)
  deriving DecidableEq, Repr

/-- A completed matrix operation whose writes are still held (R463), with the data before it, and the tile that a TRECV took. -/
structure MatrixUndo where
  op : MatrixOp
  at_ : Nat
  before : MatrixData
  took : List Byte
  upTo : Nat := 2 ^ 32
  deriving DecidableEq, Repr

/-- A matrix set: its data, its holder (grid and team), its queue, what may still be rolled back (R464), and the grid for
which its receive buffers were emptied (R349). -/
structure MatrixSet where
  data : MatrixData
  holder : Option (Nat × Nat)
  queue : List MatrixOp
  undo : List MatrixUndo
  rillGrid : Option Nat
  deriving DecidableEq, Repr

/-- A team placed on a core and what it takes there (R130, R131). -/
structure Resident where
  grid : Nat
  team : Nat
  slots : List Nat
  vbytes : Nat
  lbase : Nat
  lsize : Nat
  regsFreed : Bool
  deriving DecidableEq, Repr

/-- A prefetch held by the core's prefetch unit (R318): its priority, level and class, and the descriptor that it read with the context
in which it translates. -/
structure Prefetch where
  prio : Nat
  level : Nat
  cls : Nat
  env : Env
  mode : Mode
  desc : List Byte
  deriving DecidableEq, Repr

/-- One compute core (R2, R129). `nextAge` is the number of the group of its latest starts, and `ageAt` their core cycle (R141);
`occAt` is the uncore cycle of the landing occupancy sampled last (R258), `leftAt` the first core cycle in which a traveller may leave
(R257). `tagsNew` are the tags that were set in uncore cycle `tagsAt`, `tagsWas` those of them that had been set before (R323). -/
structure Core where
  id : Nat
  vi : Option Nat
  residents : List Resident
  store : Cells 8
  tagmap : DWord
  matrix : MatrixSet
  bins : List Bin
  chsel : Nat
  chtab : Cells 64
  rxq : List (Nat × ChanPacket)
  outgoing : List ChanPacket
  chseq : Cells 32
  held : List Held
  istore : List StoredClause
  segment : Option Nat
  segText : List Byte
  loading : Bool
  departure : List Traveller
  landing : List Traveller
  occSample : Nat
  halted : Bool
  prefetches : List Prefetch
  struck : Option Nat
  nextAge : Nat
  ageAt : Nat
  occAt : Nat := 0
  leftAt : Nat := 0
  tagsNew : DWord := 0
  tagsWas : DWord := 0
  tagsAt : Nat := 0
  deriving DecidableEq, Repr

/-! ## Virtual interfaces, launching and placement -/

/-- The VI states of R28. -/
inductive ViPhase where
  | absent
  | built
  | active
  | frozen
  | teardown
  deriving DecidableEq, Repr

/-- One page of a VI's translation: the ASID, the first byte of the virtual page with its space bits, the physical key, the rights
(R290, R293), and whether it is a 2 MiB page instead of one of 64 KiB. The format of the tables in memory is not given (log
entry 8). -/
structure Page where
  large : Bool := false
  asid : Nat
  vpage : Nat
  key : Nat
  read : Bool
  write : Bool
  user : Bool
  deriving DecidableEq, Repr

/-- An extent of a task (R107): a run of virtual pages that is contiguous in physical memory, with its permissions. -/
structure Extent where
  asid : Nat
  base : Nat
  key : Nat
  size : Nat
  read : Bool
  write : Bool
  user : Bool
  deriving DecidableEq, Repr

/-- Where translations are kept beside extent tables (R290): the TLB of a core, or the walker of a sector (0 to 5). -/
inductive TlbUnit where
  | core (c : Nat)
  | walker (sector : Nat)
  deriving DecidableEq, Repr

/-- A translation kept by a TLB or a walker (R290). -/
structure TlbEntry where
  unit : TlbUnit
  vi : Nat
  page : Page
  deriving DecidableEq, Repr

/-- A launch queue (R98 to R102). `waitSince` is the microsecond of the first read of a slot without a match. -/
structure Queue where
  q : Nat
  base : DWord
  log : Nat
  deviceFed : Bool
  qst : Nat
  qacc : Nat
  e : Nat
  k : Nat
  waitSince : Option Nat
  deriving DecidableEq, Repr

/-- A pinned line (R281): the line, its slice, the first byte of the virtual page by which it was pinned, and whether it holds no data
because the processor side owns its region (R284). -/
structure PinnedLine where
  line : Nat
  slice : Nat
  vpage : Nat
  away : Bool := false
  deriving DecidableEq, Repr

/-- A pin window (R281): whether its command is under way, the ASID of its addresses, and its pinned lines. -/
structure PinWindow where
  w : Nat
  active : Bool
  asid : Nat
  lines : List PinnedLine
  deriving DecidableEq, Repr

/-- A VI under pre-emption (R448 to R451): the clocks of the sectors at the request, the sectors in which the grace has run out, the
engines awaited. -/
structure Preemption where
  since : List Nat
  graceOver : List Nat
  waiting : List Engine
  saved : Bool
  deriving DecidableEq, Repr

/-- A member of a VI's domain view (R52, R355): its index in the view, its package, and the VI and first ASID there. -/
structure Member where
  ix : Nat
  pkg : Nat
  vi : Nat
  asidBase : Nat
  deriving DecidableEq, Repr

/-- An ordering stream: package, core, wave slot, stream number (R369). -/
structure Stream where
  pkg : Nat
  core : Nat
  slot : Nat
  strm : Nat
  deriving DecidableEq, Repr

/-- A virtual interface (R28). `view` is the monitor's map of its domain view; `unanswered` the remote-fault records without an
answer, with the streams that they freeze (R370, R371). -/
structure Vi where
  vi : Nat
  phase : ViPhase
  desc : ViDesc
  fcause : Nat
  fcount : Nat
  queues : List Queue
  kicks : List (Nat × DWord)
  pages : List Page
  capHeld : Option (List Byte)
  capOld : Bool
  coreSet : List Nat
  digests : List (List Byte)
  view : List Member
  pins : List PinWindow
  preempt : Option Preemption
  remoteFaults : Nat
  unanswered : List (Nat × Stream)
  accepted : Nat
  deriving DecidableEq, Repr

/-- The state of a reach of a grid (R138, R139, R468). -/
inductive ReachPhase where
  | waiting
  | placed
  | running
  | ended
  deriving DecidableEq, Repr

/-- A team of a grid: where it is placed and its counts (R114, R115). -/
structure TeamState where
  team : Nat
  cores : List Nat
  lbase : Nat
  ended : Bool
  entry : Option Nat
  deriving DecidableEq, Repr

/-- A reach of a grid. -/
structure Reach where
  index : Nat
  phase : ReachPhase
  relaunches : Nat
  teams : List TeamState
  deriving DecidableEq, Repr

/-- A team entry (R114): generation, outstanding attached children and `PERR`. -/
structure TeamEntry where
  index : Nat
  inUse : Bool
  gen : Nat
  outstanding : Nat
  perr : Nat
  deriving DecidableEq, Repr

/-- The launch record and extension that the launch engine keeps for a grid (R61, R62). -/
structure LaunchRecord where
  lseq : Nat
  prio : Nat
  flags : BitVec 8
  shape : BitVec 16
  nV : Nat
  nS : Nat
  llocal : Nat
  privLane : Nat
  privWave : Nat
  gx : Nat
  gy : Nat
  gz : Nat
  image : DWord
  entry : Nat
  dep : BitVec 32
  compl : DWord
  parent : DWord
  args : List DWord
  ranges : List (DWord × DWord)
  ttBase : DWord
  ttCount : Nat
  privBase : DWord
  privSize : Nat
  segMap : DWord
  ovfBase : DWord
  ovfSize : Nat
  deriving DecidableEq, Repr

/-- The live copy of one segment's entry in the segment map (R249, R250, R266): its valid replicas in ascending order of the replica
fields 1 to 3 that hold them, which `spots` numbers. -/
structure SegmentEntry where
  seg : Nat
  primary : Nat
  replicas : List Nat
  spots : List Nat := []
  loading : Option Nat
  hotSince : Option Nat
  deriving DecidableEq, Repr

/-- The live segment map of a ferry-mode grid (R248, R250). -/
structure SegmentMap where
  high : Nat
  dwell : Nat
  spare : List Nat
  segs : List SegmentEntry
  deriving DecidableEq, Repr

/-- A grid: an accepted task from acceptance to retirement (R104, R106, R109, R479). -/
structure Grid where
  id : Nat
  vi : Nat
  q : Nat
  order : Nat
  depth : Nat
  ancestors : List Nat
  record : LaunchRecord
  sections : List Section
  svText : List Byte
  reaches : List Reach
  map : Option SegmentMap
  extents : List Extent
  reservedAt : Option Nat
  passedSince : Option Nat
  perr : Nat
  cefail : Nat
  firstFail : Nat
  creln : Nat
  failed : Bool
  deriving DecidableEq, Repr

/-! ## Engines, keepers, control lines, fabric, ring, hub, platform -/

/-- The kinds of asynchronous operation (R306, R325, R374, R376). A tile copy keeps the descriptor that it read, the tile's
columns, rows and origin, and its direction; a gather the lanes' source addresses; a collective its descriptor and the ranks whose operations have matched it. -/
inductive AsyncKind where
  | copy
  | copyT (t : List Byte) (cols rows c0 r0 : Nat) (toTensor : Bool)
  | gather (size : Nat) (addrs : List (Nat × DWord))
  | collective (desc : List Byte) (count : Nat) (heard : List Nat)
  | xratom (a : AtomicOp) (dst : Nat) (ll : Nat)
  | amsg (handler : Nat) (payload : List Byte) (reg : Nat)
  deriving DecidableEq, Repr

/-- An asynchronous operation (R307 to R316). `pages` are the translations that its engine made at issue, `home` the package
that it writes, `left` the ranges of units not yet performed, `out` the output elements of a collective not yet written,
`parts` the partials that have arrived (rank, first element, bytes), `reply` what an atomic or a message brought back, `policy` the cache
policy of the engine's accesses on this package.
`orphan`: its wave has ended. -/
structure AsyncOp where
  id : Nat
  kind : AsyncKind
  core : Nat
  slot : Nat
  env : Env
  mode : Mode
  counter : Option Nat
  stream : Nat
  tag : Option Nat
  src : DWord
  dst : DWord
  len : Nat
  pages : List Page
  home : Nat
  left : List (Nat × Nat)
  out : List (Nat × Nat)
  parts : List (Nat × Nat × List Byte)
  started : Bool
  status : Option OpStatus
  ended : Bool
  orphan : Bool
  reply : Option (Nat × Nat × List Byte)
  policy : Nat := 0
  deriving DecidableEq, Repr

/-- An active message at a keeper (R286, R287). -/
structure KeeperMsg where
  op : Nat
  vi : Nat
  asid : Nat
  src : Nat
  target : DWord
  handler : Nat
  payload : List Byte
  deriving DecidableEq, Repr

/-- A handler under way (R287, R288): scratch, registers, pc, code with the address of its first byte, the lines that it has
selected, the words that it has written (key and value), the current line and the address that selected it, and the count of
executed instructions. -/
structure KeeperRun where
  msg : KeeperMsg
  scratch : Cells 8
  regs : Cells 32
  pc : Word
  codeBase : Word
  code : List Byte
  lines : List Nat
  writes : List (Nat × Word)
  line : Nat
  lineVa : DWord
  count : Nat
  deriving DecidableEq, Repr

/-- A finished handler whose writes and reply are held (R465): its message, error kind, reply status, reply bytes, the lines that
it still holds, its writes, and the uncore cycle in which it ended. -/
structure KeeperHeld where
  msg : KeeperMsg
  kind : Nat
  status : Nat
  reply : List Byte
  lines : List Nat
  writes : List (Nat × Word)
  at_ : Nat
  deriving DecidableEq, Repr

/-- One keeper with its message queue (R287). -/
structure Keeper where
  slice : Nat
  queue : List KeeperMsg
  run : Option KeeperRun
  held : List KeeperHeld
  deriving DecidableEq, Repr

/-- The MOESI states of R366. -/
inductive Moesi where
  | invalid
  | shared
  | exclusive
  | modified
  | owned
  deriving DecidableEq, Repr

/-- A directory entry at the home (R366). -/
structure DirEntry where
  line : Nat
  st : Moesi
  sharers : BitVec 16
  owner : Nat
  deriving DecidableEq, Repr

/-- Where a request at the home stands (R366, R367): collecting acknowledgements, waiting for the mirror, or waiting for the
requester of a forwarded read. -/
inductive HomePhase where
  | collecting
  | mirroring
  | forwarding
  deriving DecidableEq, Repr

/-- A request that the home is serving (R366, R367): acknowledgements awaited, the entry to install, the new bytes of the line at
the home, and the packets to send then. -/
structure HomeTxn where
  line : Nat
  req : FabPacket
  phase : HomePhase
  acks : List Nat
  entry : DirEntry
  data : Option (List Byte)
  sends : List FabPacket
  deriving DecidableEq, Repr

/-- A control line that this package wants and has no right to: for writing or only for reading, since when, on behalf of which
grid and reach, and the tag of its request once sent (R366, R373). -/
structure Wanted where
  line : Nat
  write : Bool
  since : Nat
  grid : Nat
  reach : Nat
  tag : Option Nat
  deriving DecidableEq, Repr

/-- The control-space home agent, and this package's copies of control lines (R365 to R367). A line is a control
physical address divided by 128. `backing` holds the bytes of a home line of which this package has a copy that may be newer. -/
structure ControlHome where
  dir : List DirEntry
  mirror : List DirEntry
  copies : List (Nat × Moesi)
  backing : List (Nat × List Byte)
  txns : List HomeTxn
  wanted : List Wanted
  deriving DecidableEq, Repr

/-- The states of a port (R361, R364). -/
inductive PortState where
  | spare
  | untrained
  | training
  | failed
  | unlocked
  | locked
  | running
  | error
  deriving DecidableEq, Repr

/-- A Crica port (R354, R358, R360 to R364): `waiting` are the packets that await credits, `unacked` those sent whose flits the other end
still holds; `keyEpoch` and `txCount` are the sending key and counter, `rxEpoch` and `rxCount` the receiving ones; `spdm` counts the
messages of the SPDM exchange. -/
structure Port where
  n : Nat
  state : PortState
  peer : Nat
  tries : Nat
  sent : Nat
  lanes : BitVec 4
  speed : Nat
  width : Nat
  laneMap : BitVec 8
  spdm : Nat
  finished : Bool
  runCommanded : Bool
  peerRun : Bool
  replays : Nat
  keyEpoch : Nat
  txCount : Nat
  rxCount : Nat
  unacked : List FabPacket
  waiting : List FabPacket := []
  rxEpoch : Nat := 0
  deriving DecidableEq, Repr

/-- A request of this package that awaits a response (R369, R373): the operation and range it serves, when it was sent,
and whether it is held in a frozen stream. -/
structure Request where
  tag : Nat
  op : Nat
  off : Nat
  len : Nat
  packet : FabPacket
  sentAt : Nat
  held : Bool
  control : Bool
  resends : Nat
  deriving DecidableEq, Repr

/-- The recall of a lost package's control lines (R471, R473): who has answered, when it was declared. -/
structure Recall where
  pkg : Nat
  answered : List Nat
  since : Nat
  served : Bool
  deriving DecidableEq, Repr

/-- The fabric side of the package. `records` are the capability records that ports have sent, `linkSent` the microsecond of the
last link-state packets, `collGens` numbers the failed collectives of a VI, a group and a member (R379, log entry 31), and
`untold` are the losses of packages of which VIs are still to be told (R475). -/
structure Fabric where
  ports : List Port
  records : List (Nat × CapRecord)
  linkSent : Nat
  outbox : List FabPacket
  requests : List Request
  frozen : List Stream
  homeFrozen : List Stream
  collGens : List (Nat × Nat × Nat × Nat) := []
  heldIn : List FabPacket
  seqOut : List (Nat × Nat × Nat)
  seqIn : List (Nat × Nat × Nat)
  reorder : List FabPacket
  heard : List (Nat × Nat)
  bundles : List (Nat × List Nat)
  lost : List Nat
  recalls : List Recall
  headerFailures : List (Nat × Nat × Nat)
  untold : List (Nat × Nat) := []
  deriving DecidableEq, Repr

/-- A message on the ring: where each of its flits that is still on the ring lies, header first, the stop at which it last lay
in shared slots, when its header arrived at its stop, and from which uncore cycle on each of these flits may be sent on (R416 to
R418). -/
structure RingPos where
  msg : RingMsg
  flitsAt : List Nat
  sharedAt : Nat
  arrived : Nat
  times : List Nat := []
  deriving DecidableEq, Repr

/-- A slot of a stop's buffer for a direction and class that has emptied, shared or the escape slot of lo or hi, and the uncore cycle from
which the upstream stop counts it free (R417). -/
structure EmptiedSlot where
  stop : Nat
  ccw : Bool
  cls : Nat
  escape : Option Bool
  from_ : Nat
  deriving DecidableEq, Repr

/-- The sector ring: messages on it, messages waiting at their stop's sources, and messages that have left it; `links` are the links in
use, by stop and direction, with the first uncore cycle in which each is free (R418). -/
structure Ring where
  onRing : List RingPos
  waiting : List (Nat × Nat × RingMsg)
  turn : List (Nat × Nat)
  ejected : List RingMsg
  emptied : List EmptiedSlot := []
  links : List (Nat × Bool × Nat) := []
  deriving DecidableEq, Repr

/-- A control core's channel endpoint (R413): 0 to 15 at H0, 16 to 31 at H1. `polled` is what the last read of `CPPOLL` gave. -/
structure Endpoint where
  ep : Nat
  vi : Option Nat
  cpout : Cells 8
  cpin : Cells 8
  ignored : Nat
  lastCh : Nat
  polled : DWord
  chsel : Nat
  chtab : Cells 64
  chseq : Cells 32
  rxq : List (Nat × ChanPacket)
  outgoing : List ChanPacket
  deriving DecidableEq, Repr

/-- What the partition monitor and the control cores are told (R27, R36, R38, R370, R447, R470, R475, R479). -/
inductive HubEvent where
  | hostLink (up : Bool)
  | functionReset (vi : Nat)
  | stackFailed (stack : Nat)
  | completionLost (vi lseq : Nat)
  | remoteFault (vi seq : Nat)
  | waveStopped (w : WaveRef)
  | headerFailed (sender port vc : Nat)
  | peerLost (vi pkg : Nat)
  deriving DecidableEq, Repr

/-- A marked ownership region of 2 MiB (R284, R285). -/
structure OwnRegion where
  region : Nat
  accel : Bool
  holdUntil : Nat
  wanted : Bool
  deriving DecidableEq, Repr

/-- An opaque block in hub-private memory (R433): the slot number in its handle, the slot to which it belongs now (its handle is kept
across pre-emption), its number 0 to 3, and what it holds (R428). -/
structure OpaqueBlock where
  slotNo : Nat
  home : Nat
  block : Nat
  m : DWord
  w : DWord
  emask : DWord
  ecause : Cells 32
  eaddr : Cells 64
  mode : Mode
  hyper : Bool
  deriving DecidableEq, Repr

/-- The saved context of a VI (R452), with the opaque blocks of its waves (R433) and the poison of its local stores. -/
structure SavedContext where
  vi : Nat
  cores : List Core
  waves : List Wave
  blocks : List OpaqueBlock
  poison : List (Nat × Nat)
  deriving DecidableEq, Repr

/-- What the endpoint answers to a read by the upstream host (R33, R399, R467). -/
inductive HostAnswer where
  | data (bytes : List Byte)
  | poisoned
  | viAbsent
  deriving DecidableEq, Repr

/-- An access of the upstream host, or of a control core (`control`), that is held (R33, R284, R366): a write of bytes, or a read of a
number of them. -/
structure HostRequest where
  control : Bool := false
  write : Bool
  target : HostTarget
  bytes : List Byte
  len : Nat
  deriving DecidableEq, Repr

/-- The hub's own state. `hostReads` and `controlReads` are what the host and the control cores have read. -/
structure Hub where
  events : List HubEvent
  endpoints : List Endpoint
  regions : List OwnRegion
  blocks : List OpaqueBlock
  strikes : Cells 32
  saved : List SavedContext
  pgrace : Nat
  supervisors : List (Nat × List Byte)
  hostReads : List HostAnswer
  hostHeld : List HostRequest
  controlReads : List HostAnswer
  discarded : Nat
  deriving DecidableEq, Repr

/-- Where start-up stands (R26, R27). A step with detail 0 has not begun; with another, it has not succeeded so far. -/
inductive StartPhase where
  | off
  | step (n detail : Nat)
  | romFailed
  | recovery (step detail : Nat)
  | up
  deriving DecidableEq, Repr

/-- A power block (R17 to R19), with its clock running or gated (R22). -/
structure PowerBlock where
  block : Nat
  powered : Bool
  gated : Bool
  point : Nat
  ceiling : Nat
  deriving DecidableEq, Repr

/-- The fields of the configuration record that the running package uses (R23). -/
structure ConfigRecord where
  secver : Nat
  pkg : Nat
  domsize : Nat
  selfHosted : Bool
  portmap : List Nat
  plimit : List Nat
  deriving DecidableEq, Repr

/-- The platform side: flash, start-up, power blocks, the configuration record, the upstream link (R22 to R38). `mappings` are the VIs
whose functions have their host-facing queue mappings, `config` the configuration space of each function as the host has written it
(R38), `measurement` the partition monitor's as recorded at step 5 of start-up (R26). -/
structure Platform where
  flash : Cells 8
  phase : StartPhase
  record : ConfigRecord
  deadStack : Option Nat
  blocks : List PowerBlock
  linkUp : Bool
  functions : List Nat
  mappings : List Nat
  config : List (Nat × Cells 8)
  mgmtStatus : DWord
  measurement : List Byte
  deriving DecidableEq, Repr

/-- A record submitted by LAUNCH and not accepted yet: VI, queue, sequence number, and the grids that are the child's ancestors
(R104, R113). -/
structure Lineage where
  vi : Nat
  q : Nat
  seq : Nat
  ancestors : List Nat
  deriving DecidableEq, Repr

/-- The launch engine's package-wide state (R104, R110, R111, R114). -/
structure LaunchEngine where
  pointers : List Nat
  entries : List TeamEntry
  lineage : List Lineage
  deriving DecidableEq, Repr

/-- The clocks (R4, R17, R18, R20, log entry 9): the core cycles of each sector, the uncore cycles of each slice group and those of the
hub, all counted in eighths of a cycle of the block's own clock, and microseconds. `beat` counts the nominal core cycles that the
device has gone on by itself, and is the model's own. -/
structure Clock where
  beat : Nat
  sectors : List Nat
  groups : List Nat
  hub : Nat
  us : Nat
  deriving DecidableEq, Repr

/-- A cache of the data hierarchy (R271): the L1 of a core, the L2 slice with a number, the memory-side cache of a stack. -/
inductive CacheUnit where
  | l1 (core : Nat)
  | l2 (slice : Nat)
  | side (stack : Nat)
  deriving DecidableEq, Repr

/-- The classes of lines (R278, R279); in the L1 and the memory-side cache a stream line is the next victim of its set. -/
inductive LineClass where
  | stream
  | normal
  | keep
  deriving DecidableEq, Repr

/-- A line in a cache: its number (a key divided by 128), its sectors that are filled (R8), its class, and whether it is a visitor copy
(R275). Its bytes are those of memory (R276). -/
structure CachedLine where
  unit : CacheUnit
  line : Nat
  sectors : BitVec 4
  cls : LineClass
  visitor : Bool
  deriving DecidableEq, Repr

/-- What the partition monitor sets in hub-private state: a VI's supervisor digests (R43) and core set (R129), the VI of a channel
endpoint (R413), a marked ownership region (R284), `PGRACE` (R449); and the mask or the other state of a wave that is halted for debug
(R223, R443). -/
inductive MonitorAct where
  | digests (vi : Nat) (ds : List (List Byte))
  | cores (vi : Nat) (cs : List Nat)
  | endpoint (ep : Nat) (vi : Option Nat)
  | region (region : Nat) (accel marked : Bool)
  | grace (n : Nat)
  | mask (w : WaveRef) (exm : DWord)
  | rewrite (w : WaveRef) (r : WaveRewrite)
  deriving DecidableEq, Repr

/-- What happens next, in the order in which the outside world and the unspecified latencies of the device let things
happen (log entry 1). `op`: a row of the opcode table takes place; `issue`: the focused wave issues its next word;
`keeper`: the focused keeper issues its next instruction; `focus`: another wave is looked at; `tick`: time passes;
`perform`: part of an asynchronous operation is performed; `land`: one element of a long-latency result is written;
`want`: a wanted control line is asked for; `linkAck`: the other end of a port acknowledges packets; `monitor`: the partition monitor sets hub-private state;
`page`: the VI's supervisor edits a page table; `domainView`: the partition monitor maps a VI's domain view (R52); `cachePage`: a
translation is kept by, or leaves, a TLB or a walker; `holdCaps`: the checks that follow use the old or the new capability entries
(R96); `race`: bytes of an element that a load read from a sector whose fill was pending take the value of a store that has landed
since (R291); `gate`: the clock of a block at operating point 0 is gated or runs (R22); `controlRead`, `controlWrite`: a control core
accesses a VI's kick page or memory (R97, R99, R284); `heldAccess`: a held access of the host or of a control core is tried again;
`hostMap`, `hostConfig`: the upstream host sets up a function again (R38). -/
inductive Happening where
  | op (i : Instr)
  | issue
  | keeper
  | focus (w : WaveRef)
  | tick (core uncore us : Nat)
  | perform (op off len : Nat)
  | land (w : WaveRef) (op n : Nat)
  | page (vi : Nat) (p : Page) (present : Bool)
  | cachePage (unit : TlbUnit) (vi : Nat) (p : Page) (present : Bool)
  | race (w : WaveRef) (op n : Nat) (bytes : List Nat)
  | gate (block : Nat) (on : Bool)
  | controlRead (t : HostTarget) (len : Nat)
  | controlWrite (t : HostTarget) (bytes : List Byte)
  | heldAccess (n : Nat)
  | hostMap (vi : Nat)
  | hostConfig (function off : Nat) (b : Byte)
  | holdCaps (vi : Nat) (old : Bool)
  | domainView (vi : Nat) (view : List Member)
  | want (line : Nat)
  | linkAck (port n : Nat)
  | monitor (m : MonitorAct)
  deriving DecidableEq, Repr

/-- One Goriton package. `wave` is the wave looked at and `core` its core; `waves` and `cores` are the others.
`mem` holds tensor bytes at their physical address, control bytes at 2^40 plus their control physical address, mirrored
control bytes at 2^41 plus it, host memory at 2^42 plus the host address, and the monitor's region of hub-private memory
at 2^43 plus the address. `poison` lists poisoned 32-byte sectors
(key divided by 32); `storePoison` those of local stores. `caches` lists the cached lines, the most recently used first. -/
structure State where
  clock : Clock
  free : Nat
  ids : Nat
  agenda : List Happening
  wave : Wave
  core : Core
  waves : List Wave
  cores : List Core
  mem : List Host.Cell
  poison : List Nat
  storePoison : List (Nat × Nat)
  vis : List Vi
  launch : LaunchEngine
  grids : List Grid
  ops : List AsyncOp
  net : List Traveller
  keeper : Keeper
  keepers : List Keeper
  control : ControlHome
  fabric : Fabric
  ring : Ring
  hub : Hub
  platform : Platform
  tlbs : List TlbEntry
  caches : List CachedLine
  deriving DecidableEq, Repr

/-- Why a step stops. No rule of the spec stops the machine, so no meaning raises one. -/
inductive Fault where
  /-- A happening names an event that cannot take place in this state. Raised by nobody: the agenda goes on without such an
  event, and the state stays as it is (log entry 105). -/
  | eventNotPossible
  deriving DecidableEq, Repr

/-- Why the model gives no meaning. -/
inductive Refusal where
  /-- The instruction is not modelled yet. Raised by `exec` only. Safe: nothing is claimed of it. -/
  | notModelled (mnemonic : String)
  deriving DecidableEq, Repr

/-! ## Reset -/

/-- No matrix data: every tile, configuration and element zero, every rill buffer empty (R134). -/
def MatrixData.zero : MatrixData := { tiles := [], tcs := [], accum := [], rill := [] }

/-- An empty core (R129, R134, R135). -/
def Core.empty (id : Nat) : Core :=
  { id := id, vi := none, residents := [], store := [], tagmap := 0,
    matrix := { data := .zero, holder := none, queue := [], undo := [], rillGrid := none },
    bins := [], chsel := 0, chtab := [], rxq := [], outgoing := [], chseq := [], held := [], istore := [],
    segment := none, segText := [], loading := false, departure := [], landing := [], occSample := 0, halted := false,
    prefetches := [], struck := none, nextAge := 0, ageAt := 0 }

/-- `rvsp` at a wave's start (R136). -/
def rvspStart : DWord := 0x1000000000000000

/-- The registers of a wave at its start with the given mask, arguments and supervisor section (R136, R422). -/
def Arch.start (exm evec : DWord) (sregs : Cells 64) : Arch :=
  { exm := exm, vregs := [], sregs := sregs, preds := [], fpc := 0, rvsp := rvspStart, mode := .user, sdepth := 0,
    ddepth := false, sstep := false, estat := 0, epc := 0, ecause := [], emask := 0, eaddr := [], evec := evec,
    uhtv := 0, wdog := 0, hstat := 0, hepc := 0 }

/-- A run of no local store. -/
def StoreRun.none (core : Nat) : StoreRun := { pos := 0, core := core, base := 0, limit := 0 }

/-- The launch context of the wave slot that is looked at before any launch (log entry 6). -/
def Env.idle : Env :=
  { vi := 0, asid := 0, grid := 0, team := 0, reach := 0, depth := 0, wavew := 16, wavesPerTeam := 1, waveid := 0,
    gx := 1, gy := 1, gz := 1, nV := 128, nS := 128, privLane := 0, privWave := 64, privBase := 0, privSize := 64,
    image := 0x4000000000000000, entry := 0, sections := [], ferry := false, det := false, lookouts := false,
    own := .none 0, partner := Option.none, window := [], ttBase := 0, ttCount := 0, ovfBase := 0, ovfSize := 0,
    teams := 1, args := [] }

/-- An empty batch. -/
def Batch.empty : Batch := { left := [], size := 0, flags := 0, closedAt := 0 }

/-- A position at the header address `pc`, no clause latched. -/
def Position.at (pc : DWord) : Position := { pc := pc, header := 0, words := [], ridx := 0, mid := false, skip := false }

/-- A wave at its start in a slot (R136). -/
def Wave.start (core slot : Nat) (env : Env) (arch : Arch) (pc : DWord) (status : WaveStatus) (age now : Nat) : Wave :=
  { core := core, slot := slot, env := env, status := status, pos := .at pc, hints := [], replay := none,
    badResume := none, fellX := false, arch := arch, ll := [], ocx := 0, ocm := 0, ocg := 0, ock := 0,
    openBatch := .empty, batches := [], pending := none, stepDue := false, expiryDue := false, failures := [],
    arrival := none, stop := none, svStart := none, svDepth := 0, prio := 0, noShare := false, yieldDue := false,
    yielded := false, age := age, readySince := now, unserved := none, issueSlot := 0, boostedAt := none, entries := [], entryDue := true, issued := false,
    waitInv := none, fenceAt := none, lookoutOf := none, lookoutStart := 0, lookoutRange := (0, 0),
    lookoutOver := false }

/-- A keeper with nothing to do. -/
def Keeper.idle (slice : Nat) : Keeper := { slice := slice, queue := [], run := none, held := [] }

/-- An endpoint of a control core, mapped to no VI. -/
def Endpoint.idle (ep : Nat) : Endpoint :=
  { ep := ep, vi := none, cpout := [], cpin := [], ignored := 0, lastCh := 0, polled := 0, chsel := 0, chtab := [], chseq := [],
    rxq := [], outgoing := [] }

/-- A Crica port before start-up. -/
def Port.idle (n : Nat) : Port :=
  { n := n, state := .untrained, peer := 255, tries := 0, sent := 0, lanes := 0, speed := 0, width := 0, laneMap := 0, spdm := 0,
    finished := false, runCommanded := false, peerRun := false, replays := 0, keyEpoch := 0, txCount := 0,
    rxCount := 0, unacked := [] }

/-- A power block before start-up: operating point 0, nominal ceiling (R18, R22). -/
def PowerBlock.idle (b : Nat) : PowerBlock := { block := b, powered := false, gated := false, point := 0, ceiling := 7 }

/-- The 384 core numbers of a package: `coreid`[8:0] with sector 0 to 2 (R127). -/
def coreIds : List Nat :=
  (List.range 512).filter fun c => c / 64 % 4 < 3

/-- The platform before power: flash as written, nothing read from it (R22, R26). -/
def Platform.reset : Platform :=
  { flash := [], phase := .off,
    record := { secver := 0, pkg := 0, domsize := 8, selfHosted := false, portmap := [], plimit := [] },
    deadStack := none, blocks := (List.range Config.powerBlocks).map PowerBlock.idle, linkUp := false, functions := [],
    mappings := [], config := [], mgmtStatus := 0, measurement := [] }

/-- The machine right after the loss or first supply of power: every volatile state empty, start-up not begun (R22, R26).
The wave looked at is an empty slot with the register values of R136. -/
def State.reset : State :=
  { clock := { beat := 0, sectors := List.replicate 6 0, groups := List.replicate 12 0, hub := 0, us := 0 }, free := 0, ids := 1, agenda := [],
    wave := Wave.start 0 0 .idle (.start 0xFFFF 0x4000000000000000 []) 0x4000000000000000 .absent 0 0,
    core := .empty 0, waves := [], cores := [], mem := [], poison := [], storePoison := [], vis := [],
    launch := { pointers := List.replicate 24 0, entries := [], lineage := [] }, grids := [], ops := [], net := [],
    keeper := .idle 0, keepers := [],
    control := { dir := [], mirror := [], copies := [], backing := [], txns := [], wanted := [] },
    fabric :=
      { ports := (List.range Config.ports).map Port.idle, records := [], linkSent := 0, outbox := [], requests := [], frozen := [], homeFrozen := [],
        heldIn := [], seqOut := [], seqIn := [], reorder := [], heard := [], bundles := [], lost := [], recalls := [],
        headerFailures := [] },
    ring := { onRing := [], waiting := [], turn := [], ejected := [] },
    hub :=
      { events := [], endpoints := (List.range 32).map Endpoint.idle, regions := [], blocks := [], strikes := [],
        saved := [], pgrace := Config.pgraceReset, supervisors := [], hostReads := [], hostHeld := [], controlReads := [], discarded := 0 },
    platform := .reset, tlbs := [], caches := [] }

end Sys2Proof.Machine
end

