-- ==== Sys2Proof/Machine/Cells.lean ====
section
/-!
DEFINITION. Reading and writing sparse cells (registers, memory bytes) in their one canonical form: keys strictly rising,
no zero listed.
-/
namespace Sys2Proof.Machine

/-- The value at a key; zero when the key is not listed. -/
def Cells.read {w : Nat} : Cells w → Nat → BitVec w
  | [], _ => 0
  | (k', v) :: rest, k => if k = k' then v else Cells.read rest k

/-- A value put at its place in key order. -/
def Cells.put {w : Nat} : Cells w → Nat → BitVec w → Cells w
  | [], k, v => [(k, v)]
  | (k', v') :: rest, k, v =>
    if k < k' then (k, v) :: (k', v') :: rest
    else if k = k' then (k, v) :: rest
    else (k', v') :: Cells.put rest k v

/-- The key removed. -/
def Cells.drop {w : Nat} (c : Cells w) (k : Nat) : Cells w := c.filter fun p => decide (p.1 ≠ k)

/-- A write: zero removes the entry. -/
def Cells.write {w : Nat} (c : Cells w) (k : Nat) (v : BitVec w) : Cells w :=
  if v = 0 then Cells.drop c k else Cells.put c k v

/-- Consecutive values written from key `k` on. -/
def Cells.writeList {w : Nat} (c : Cells w) (k : Nat) : List (BitVec w) → Cells w
  | [] => c
  | v :: vs => Cells.writeList (Cells.write c k v) (k + 1) vs

/-- `n` consecutive values from key `k` on. -/
def Cells.readList {w : Nat} (c : Cells w) (k n : Nat) : List (BitVec w) := (List.range n).map fun i => Cells.read c (k + i)

/-- The canonical form: keys strictly rising, no zero listed. -/
def Cells.wf {w : Nat} : Cells w → Bool
  | [] => true
  | [(_, v)] => decide (v ≠ 0)
  | (k, v) :: (k', v') :: rest => decide (v ≠ 0) && decide (k < k') && Cells.wf ((k', v') :: rest)

/-- The canonical form of memory: unlisted bytes read zero (log entry 7). -/
abbrev Memory.wf (m : List Host.Cell) : Bool := Cells.wf (w := 8) m

/-- Little-endian bytes of a number (R7). -/
def bytesOf : Nat → Nat → List Byte
  | 0, _ => []
  | n + 1, x => BitVec.ofNat 8 x :: bytesOf n (x / 256)

/-- The number of little-endian bytes (R7). -/
def numOf : List Byte → Nat
  | [] => 0
  | b :: bs => b.toNat + 256 * numOf bs

/-- The field of `n` bytes at offset `o` of a byte list, as a number. -/
def fieldAt (bs : List Byte) (o n : Nat) : Nat := numOf ((bs.drop o).take n)

/-- Bits hi down to lo of a number (R12). -/
def bitsN (x hi lo : Nat) : Nat := x / 2 ^ lo % 2 ^ (hi + 1 - lo)

/-- `x` as an `n`-bit two's complement number. -/
def sextN (n x : Nat) : Int := if x % 2 ^ n < 2 ^ (n - 1) then (x % 2 ^ n : Nat) else ((x % 2 ^ n : Nat) : Int) - 2 ^ n

/-- The signed and the wrapped reading between `Int` and 64-bit words. -/
def ofInt (n : Nat) (x : Int) : BitVec n := BitVec.ofInt n x

end Sys2Proof.Machine
end

