-- ==== Sys2Proof/Machine/Fp.lean ====
section
/-!
DEFINITION. The numbers of chapter 03: formats (R64 to R72), exact values, and the one rounding (R78 to R81, R86).
A finite value is held exactly as `m * 2^e` with a sign.
-/
namespace Sys2Proof.Machine

/-- A floating-point format (R64, R67): width, trailing significand, bias, and the codes of NaN, of +infinity and of the
largest finite value. `sign` is the weight of the sign bit, 0 in an unsigned format. -/
structure Fmt where
  width : Nat
  t : Nat
  bias : Int
  sign : Nat
  ieee : Bool
  nan : Nat
  inf : Option Nat
  maxc : Nat
  deriving DecidableEq, Repr

/-- binary32, binary16 and bfloat16 (R64). -/
def Fmt.f32 : Fmt := ⟨32, 23, 127, 2 ^ 31, true, 0x7FC00000, some 0x7F800000, 0x7F7FFFFF⟩
def Fmt.f16 : Fmt := ⟨16, 10, 15, 2 ^ 15, true, 0x7E00, some 0x7C00, 0x7BFF⟩
def Fmt.bf16 : Fmt := ⟨16, 7, 127, 2 ^ 15, true, 0x7FC0, some 0x7F80, 0x7F7F⟩

/-- A narrow format binaryKpP in its four variants (R67). -/
def Fmt.narrow (k p : Nat) (unsigned finite : Bool) : Fmt :=
  let w := if unsigned then k - p + 1 else k - p
  let top := if unsigned then 2 ^ k - 2 else 2 ^ (k - 1) - 1
  { width := k, t := p - 1, bias := 2 ^ (w - 1), sign := if unsigned then 0 else 2 ^ (k - 1), ieee := false,
    nan := if unsigned then 2 ^ k - 1 else 2 ^ (k - 1), inf := if finite then none else some top,
    maxc := if finite then top else top - 1 }

/-- The precisions that R67 supports at each width. -/
def narrowValid (k p : Nat) : Bool :=
  (k == 8 && 1 ≤ p && p ≤ 7) || (k == 6 && 1 ≤ p && p ≤ 5) || (k == 4 && 1 ≤ p && p ≤ 3)

/-- What a code stands for: a NaN (signalling or quiet), an infinity, or a finite value `m * 2^e` with its sign. -/
inductive Val where
  | nan (signalling : Bool)
  | inf (neg : Bool)
  | fin (neg : Bool) (m : Nat) (e : Int)
  deriving DecidableEq, Repr

namespace Val

/-- Whether the value is a finite zero. -/
def isZero : Val → Bool
  | fin _ m _ => m == 0
  | _ => false

/-- Whether the sign is minus. A NaN has none. -/
def isNeg : Val → Bool
  | fin n _ _ => n
  | inf n => n
  | nan _ => false

/-- The value with the other sign. -/
def negate : Val → Val
  | fin n m e => fin (!n) m e
  | inf n => inf (!n)
  | nan s => nan s

/-- Whether the value is a NaN, and a signalling one. -/
def isNan : Val → Bool
  | nan _ => true
  | _ => false

def isSnan : Val → Bool
  | nan s => s
  | _ => false

def isInf : Val → Bool
  | inf _ => true
  | _ => false

end Val

/-- The magnitude bits of a code, without its sign. -/
def Fmt.mag (f : Fmt) (c : Nat) : Nat := if f.sign = 0 then c % 2 ^ f.width else c % f.sign

/-- The sign of a code. -/
def Fmt.neg (f : Fmt) (c : Nat) : Bool := f.sign != 0 && decide (c / f.sign % 2 = 1)

/-- The finite value of magnitude code `c` (R68; the same reading serves R64). -/
def Fmt.finite (f : Fmt) (neg : Bool) (c : Nat) : Val :=
  let e := c / 2 ^ f.t
  let m := c % 2 ^ f.t
  if e = 0 then .fin neg m (1 - f.bias - f.t) else .fin neg (2 ^ f.t + m) ((e : Int) - f.bias - f.t)

/-- The value of a code (R64, R65, R67, R68, R72). -/
def Fmt.decode (f : Fmt) (code : Nat) : Val :=
  let c := code % 2 ^ f.width
  let g := f.mag c
  if f.ieee then
    match f.inf with
    | none => .fin false 0 0
    | some i =>
      if g = i then .inf (f.neg c)
      else if g > i then .nan (decide (g / 2 ^ (f.t - 1) % 2 = 0))
      else f.finite (f.neg c) g
  else if c = f.nan then .nan false
  else if f.inf = some g then .inf (f.neg c)
  else f.finite (f.neg c) g

/-- Whether the code is a subnormal of a standard format: non-zero, exponent field zero. -/
def Fmt.subnormal (f : Fmt) (code : Nat) : Bool := decide (0 < f.mag code ∧ f.mag code < 2 ^ f.t)

/-- A subnormal read as a zero of its sign when FTZ is set; narrow formats are never flushed (R80, R85). -/
def Fmt.decodeFtz (f : Fmt) (ftz : Bool) (code : Nat) : Val :=
  if ftz && f.ieee && f.subnormal code then .fin (f.neg code) 0 0 else f.decode code

/-- The sticky flags in the order of `FLAGS` (R76). -/
abbrev FpFlags := BitVec 5
def fNV : FpFlags := 1
def fDZ : FpFlags := 2
def fOF : FpFlags := 4
def fUF : FpFlags := 8
def fNX : FpFlags := 16

/-- The rounding modes (R76, R78). -/
inductive Rm where
  | rne
  | rtz
  | rup
  | rdn
  deriving DecidableEq, Repr

/-- The coding of `RM` (R76). -/
def Rm.decode : Nat → Rm
  | 0 => .rne
  | 1 => .rtz
  | 2 => .rup
  | _ => .rdn

/-- Rounding, saturation and flushing in effect for one instruction (R77). -/
structure FpEnv where
  rm : Rm
  sat : Bool
  ftz : Bool
  deriving DecidableEq, Repr

/-- The environment of the matrix engine, of the collective engine and of atomics (R84, R303, R382). -/
def FpEnv.plain : FpEnv := ⟨.rne, false, false⟩

/-- Whether a discarded part `r` of `2^k` rounds a magnitude with last bit `odd` away from zero (R78). -/
def roundsUp (rm : Rm) (neg odd : Bool) (r k : Nat) : Bool :=
  match rm with
  | .rne => decide (2 * r > 2 ^ k) || (decide (2 * r = 2 ^ k ∧ r ≠ 0) && odd)
  | .rtz => false
  | .rup => decide (r ≠ 0) && !neg
  | .rdn => decide (r ≠ 0) && neg

/-- `m * 2^e` in units of `2^q`: the rounded count and whether it is inexact. -/
def roundUnits (rm : Rm) (neg : Bool) (m : Nat) (e q : Int) : Nat × Bool :=
  if q ≤ e then (m * 2 ^ (e - q).toNat, false)
  else
    let k := (q - e).toNat
    let d := m / 2 ^ k
    let r := m % 2 ^ k
    (if roundsUp rm neg (decide (d % 2 = 1)) r k then d + 1 else d, decide (r ≠ 0))

/-- Position of the leading one of a non-zero magnitude. -/
def leadPos (m : Nat) : Nat := Nat.log2 m

/-- `m1 * 2^e1 > m2 * 2^e2`. -/
def magGt (m1 : Nat) (e1 : Int) (m2 : Nat) (e2 : Int) : Bool :=
  let e := min e1 e2
  decide (m1 * 2 ^ (e1 - e).toNat > m2 * 2 ^ (e2 - e).toNat)

/-- A rounded code with its flags. -/
structure FpRes where
  code : Nat
  flags : FpFlags
  deriving DecidableEq, Repr

/-- A code with the sign bit of the format when it has one. -/
def Fmt.withSign (f : Fmt) (neg : Bool) (c : Nat) : Nat := if neg then f.sign + c else c

/-- The code of `q * 2^qe`, where `qe` is the quantum that the rounding used. Narrow formats have no negative zero. -/
def Fmt.encode (f : Fmt) (neg : Bool) (q : Nat) (qe : Int) : Nat :=
  let c := if q < 2 ^ f.t then q else ((qe + f.t + f.bias).toNat) * 2 ^ f.t + (q - 2 ^ f.t)
  if c = 0 ∧ f.ieee = false then 0 else f.withSign neg c

/-- The result when the magnitude overflows (R86). -/
def Fmt.overflow (f : Fmt) (env : FpEnv) (neg : Bool) : Nat :=
  let big := match f.inf with
    | some i => f.withSign neg i
    | none => f.nan
  let mx := f.withSign neg f.maxc
  if env.sat then mx
  else
    match env.rm, neg with
    | .rne, _ => big
    | .rtz, _ => mx
    | .rup, false => big
    | .rup, true => mx
    | .rdn, false => mx
    | .rdn, true => big

/-- The largest finite value of the format. -/
def Fmt.maxVal (f : Fmt) : Nat × Int :=
  match f.finite false f.maxc with
  | .fin _ m e => (m, e)
  | _ => (0, 0)

/-- The rounding of the exact finite value `m * 2^e` to the format, with overflow, tininess after rounding, and flushing
of a tiny result under FTZ (R78 to R81, R86). -/
def Fmt.roundFin (f : Fmt) (env : FpEnv) (neg : Bool) (m : Nat) (e : Int) : FpRes :=
  if m = 0 then ⟨f.encode neg 0 (1 - f.bias - f.t), 0⟩
  else
    let top : Int := e + leadPos m
    let qu : Int := top - f.t
    let unb := roundUnits env.rm neg m e qu
    let emin : Int := 1 - f.bias
    let tiny := !(magGt unb.1 qu 1 emin) && !(decide (unb.1 * 2 ^ (qu - emin).toNat = 2 ^ (emin - qu).toNat))
    let mx := f.maxVal
    if magGt unb.1 qu mx.1 mx.2 then ⟨f.overflow env neg, fOF ||| fNX⟩
    else
      let q : Int := max qu (emin - f.t)
      let r := roundUnits env.rm neg m e q
      if env.ftz && f.ieee && tiny then ⟨f.encode neg 0 q, fUF ||| fNX⟩
      else ⟨f.encode neg r.1 q, (if r.2 then fNX else 0) ||| (if tiny && r.2 then fUF else 0)⟩

/-- The rounding of any exact value that an operation produced: NaN is canonical; an exact infinity saturates without a
flag (R65, R79). -/
def Fmt.round (f : Fmt) (env : FpEnv) : Val → FpRes
  | .nan _ => ⟨f.nan, 0⟩
  | .inf neg =>
    match f.inf with
    | some i => ⟨f.withSign neg (if env.sat then f.maxc else i), 0⟩
    | none => ⟨if env.sat then f.withSign neg f.maxc else f.nan, 0⟩
  | .fin neg m e => f.roundFin env neg m e

/-! ## Exact operations -/

/-- An exact result with the NV and DZ flags of the operation. -/
abbrev Exact := Val × FpFlags

/-- NV when an operand is a signalling NaN (R65). -/
def snanFlag (xs : List Val) : FpFlags := if xs.any Val.isSnan then fNV else 0

/-- The exact product; infinity times zero is invalid. -/
def mulExact (a b : Val) : Exact :=
  match a, b with
  | .nan _, _ => (.nan false, snanFlag [a, b])
  | _, .nan _ => (.nan false, snanFlag [a, b])
  | .inf n1, .inf n2 => (.inf (n1 != n2), 0)
  | .inf n1, .fin n2 m2 _ => if m2 = 0 then (.nan false, fNV) else (.inf (n1 != n2), 0)
  | .fin n1 m1 _, .inf n2 => if m1 = 0 then (.nan false, fNV) else (.inf (n1 != n2), 0)
  | .fin n1 m1 e1, .fin n2 m2 e2 => (.fin (n1 != n2) (m1 * m2) (e1 + e2), 0)

/-- The signed count of a finite value in units of `2^e`, `e` at most its own exponent. -/
def Val.units (e : Int) : Val → Int
  | .fin neg m e' => let n : Int := m * 2 ^ (e' - e).toNat; if neg then -n else n
  | _ => 0

/-- The least exponent among finite values. -/
def minExp : List Val → Int
  | [] => 0
  | .fin _ _ e :: vs => vs.foldl (fun a v => match v with | .fin _ _ e' => min a e' | _ => a) e
  | _ :: vs => minExp vs

/-- The exact sum of terms: NaN, opposite infinities (invalid), one infinity, or the finite sum. A zero sum of terms of
one sign keeps it; otherwise it is -0 in RDN and +0 in the other modes (R201, R205). -/
def sumExact (rm : Rm) (vs : List Val) : Exact :=
  if vs.any Val.isNan then (.nan false, snanFlag vs)
  else if vs.any (· == .inf true) then
    if vs.any (· == .inf false) then (.nan false, fNV) else (.inf true, 0)
  else if vs.any (· == .inf false) then (.inf false, 0)
  else
    let e := minExp vs
    let n := vs.foldl (fun a v => a + v.units e) (0 : Int)
    if n = 0 then
      let neg := if vs.all Val.isNeg then true else if vs.all (fun v => !v.isNeg) then false else decide (rm = .rdn)
      (.fin neg 0 0, 0)
    else (.fin (decide (n < 0)) n.natAbs e, 0)

/-- `±(a × b) ± c` exactly (R205). The product's invalid flag stands even when `c` is a quiet NaN. -/
def fmaExact (rm : Rm) (negP negC : Bool) (a b c : Val) : Exact :=
  let p := mulExact a b
  let s := sumExact rm [if negP then p.1.negate else p.1, if negC then c.negate else c]
  (s.1, p.2 ||| s.2 ||| snanFlag [c])

/-- Total comparison of non-NaN values: -1, 0 or 1; zeros are equal. -/
def cmpVal (a b : Val) : Int :=
  match a, b with
  | .inf n1, .inf n2 => if n1 = n2 then 0 else if n1 then -1 else 1
  | .inf n, _ => if n then -1 else 1
  | _, .inf n => if n then 1 else -1
  | x, y =>
    let e := minExp [x, y]
    let d := x.units e - y.units e
    if d < 0 then -1 else if d = 0 then 0 else 1

/-- VMIN and VMAX (R202): the chosen operand with the NV flag of a signalling NaN. -/
def minmaxExact (isMax : Bool) (a b : Val) : Exact :=
  let fl := snanFlag [a, b]
  if a.isNan then (if b.isNan then .nan false else b, fl)
  else if b.isNan then (a, fl)
  else
    let c := cmpVal a b
    let aLess := decide (c < 0) || (decide (c = 0) && a.isNeg && !b.isNeg)
    (if aLess = isMax then b else a, fl)

/-- One operation finished: the exact value rounded, with every flag (R200). -/
def Fmt.finish (f : Fmt) (env : FpEnv) (x : Exact) : FpRes :=
  let r := f.round env x.1
  ⟨r.code, x.2 ||| r.flags⟩

/-- Rounding of a binary32 value to an integral value in the mode in effect (R203). -/
def rintExact (rm : Rm) : Val → Exact
  | .fin neg m e =>
    let r := roundUnits rm neg m e 0
    (.fin neg r.1 0, if r.2 then fNX else 0)
  | v => (v, snanFlag [v])

/-- The class word of a code (R203). -/
def classWord (code : Nat) : Nat :=
  let f := Fmt.f32
  match f.decode code with
  | .nan s => if s then 1 else 2
  | .inf n => if n then 4 else 512
  | .fin n m _ =>
    if m = 0 then (if n then 32 else 64)
    else if f.subnormal code then (if n then 16 else 128)
    else (if n then 8 else 256)

/-! ## Quotients and square roots, with a sticky last bit -/

/-- A magnitude with one more bit: odd when something was discarded below it. -/
def sticky (q : Nat) (inexact : Bool) (e : Int) : Nat × Int := (2 * q + (if inexact then 1 else 0), e - 1)

/-- The quotient of two finite non-zero values to more than 60 significant bits, with a sticky bit. -/
def divMag (m1 : Nat) (e1 : Int) (m2 : Nat) (e2 : Int) : Nat × Int :=
  let s := leadPos m2 + 64
  let n := m1 * 2 ^ s
  sticky (n / m2) (decide (n % m2 ≠ 0)) (e1 - e2 - s)

/-- a / b (R208). -/
def divExact (a b : Val) : Exact :=
  match a, b with
  | .nan _, _ => (.nan false, snanFlag [a, b])
  | _, .nan _ => (.nan false, snanFlag [a, b])
  | .inf _, .inf _ => (.nan false, fNV)
  | .inf n1, .fin n2 _ _ => (.inf (n1 != n2), 0)
  | .fin n1 _ _, .inf n2 => (.fin (n1 != n2) 0 0, 0)
  | .fin n1 m1 e1, .fin n2 m2 e2 =>
    if m2 = 0 then (if m1 = 0 then (.nan false, fNV) else (.inf (n1 != n2), fDZ))
    else if m1 = 0 then (.fin (n1 != n2) 0 0, 0)
    else let q := divMag m1 e1 m2 e2; (.fin (n1 != n2) q.1 q.2, 0)

/-- Integer square root by bits: the largest r with bits below 2^(i) such that r * r ≤ n. -/
def isqrtAux (n : Nat) : Nat → Nat → Nat
  | 0, r => r
  | i + 1, r => let r' := r + 2 ^ i; isqrtAux n i (if r' * r' ≤ n then r' else r)

def isqrt (n : Nat) : Nat := isqrtAux n (Nat.log2 n / 2 + 1) 0

/-- The square root of a finite positive value, with a sticky bit. -/
def sqrtMag (m : Nat) (e : Int) : Nat × Int :=
  let s : Nat := 128 + (if e % 2 = 0 then 0 else 1)
  let n := m * 2 ^ s
  let r := isqrt n
  sticky r (decide (r * r ≠ n)) ((e - s) / 2)

/-- The reciprocal square root of a finite positive value, with a sticky bit. -/
def rsqrtMag (m : Nat) (e : Int) : Nat × Int :=
  let odd : Nat := if e % 2 = 0 then 0 else 1
  let m' := m * 2 ^ odd
  let k := leadPos m' + 80
  let r := isqrt (2 ^ (2 * k) / m')
  sticky r (decide (r * r * m' ≠ 2 ^ (2 * k))) (-(k : Int) - (e - odd) / 2)

/-- √a and 1/√a (R208). -/
def sqrtExact : Val → Exact
  | .nan s => (.nan false, snanFlag [.nan s])
  | .inf n => if n then (.nan false, fNV) else (.inf false, 0)
  | .fin n m e =>
    if m = 0 then (.fin n 0 0, 0) else if n then (.nan false, fNV)
    else let r := sqrtMag m e; (.fin false r.1 r.2, 0)

def rsqrtExact : Val → Exact
  | .nan s => (.nan false, snanFlag [.nan s])
  | .inf n => if n then (.nan false, fNV) else (.fin false 0 0, 0)
  | .fin n m e =>
    if m = 0 then (.inf n, fDZ) else if n then (.nan false, fNV)
    else let r := rsqrtMag m e; (.fin false r.1 r.2, 0)

end Sys2Proof.Machine
end

