-- ==== Sys2Proof/Machine/Operands.lean ====
section
/-!
DEFINITION. Every operand form: registers of a wave, lanes, masks, pairs, the hint words of an instruction group (R160 to
R170), and the immediates (R162, R166).
-/
namespace Sys2Proof.Machine

/-- The mask of lanes below `n` (R9). -/
def lowMask (n : Nat) : DWord := BitVec.ofNat 64 (2 ^ n - 1)

/-- Bit `l` of a mask. -/
def bitOf (m : DWord) (l : Nat) : Bool := m.getLsbD l

/-- The lanes of mask `m` below `n`, ascending: `active(m)` (R12). -/
def lanesOf (m : DWord) (n : Nat) : List Nat := (List.range n).filter fun l => bitOf m l

/-- One lane's mask. -/
def laneBit (l : Nat) : DWord := BitVec.ofNat 64 (2 ^ l)

/-- A mask of the lanes of a list. -/
def maskOf (ls : List Nat) : DWord := ls.foldl (fun m l => m ||| laneBit l) 0

/-- The key of element (r, l) of the vector registers. -/
def vkey (r l : Nat) : Nat := 64 * r + l

namespace Wave

/-- Scalar register r. -/
def s (w : Wave) (r : Nat) : DWord := Cells.read w.arch.sregs r

/-- Lane l of vector register r. -/
def v (w : Wave) (r l : Nat) : Word := Cells.read w.arch.vregs (vkey r l)

/-- Lane l of the vector pair at even register r: low word in the even register (R185). -/
def pair (w : Wave) (r l : Nat) : DWord := BitVec.ofNat 64 ((w.v r l).toNat + 2 ^ 32 * (w.v (r + 1) l).toNat)

/-- The mask of the wave's lanes. -/
def lanes (w : Wave) : DWord := lowMask w.env.wavew

/-- `exm`; bits at and above `wavew` read as zero (R9). -/
def exm (w : Wave) : DWord := w.arch.exm &&& w.lanes

/-- A predicate register; bits at and above `wavew` read as zero (R9). -/
def pred (w : Wave) (p : Nat) : DWord := Cells.read w.arch.preds p &&& w.lanes

/-- The active lanes, ascending. -/
def active (w : Wave) : List Nat := lanesOf w.exm w.env.wavew

/-- Whether every lane is active (R243). -/
def full (w : Wave) : Bool := decide (w.exm = w.lanes)

def setArch (w : Wave) (a : Arch) : Wave := { w with arch := a }

def setS (w : Wave) (r : Nat) (x : DWord) : Wave :=
  { w with arch := { w.arch with sregs := Cells.write w.arch.sregs r x } }

def setV (w : Wave) (r l : Nat) (x : Word) : Wave :=
  { w with arch := { w.arch with vregs := Cells.write w.arch.vregs (vkey r l) x } }

def setPair (w : Wave) (r l : Nat) (x : DWord) : Wave :=
  (w.setV r l (x.setWidth 32)).setV (r + 1) l ((x >>> 32).setWidth 32)

/-- A whole predicate; bits at and above `wavew` ignore the write (R9). -/
def setPred (w : Wave) (p : Nat) (m : DWord) : Wave :=
  { w with arch := { w.arch with preds := Cells.write w.arch.preds p (m &&& w.lanes) } }

/-- `exm`; bits at and above `wavew` ignore the write (R9). -/
def setExm (w : Wave) (m : DWord) : Wave := { w with arch := { w.arch with exm := m &&& w.lanes } }

def setFpc (w : Wave) (x : DWord) : Wave := { w with arch := { w.arch with fpc := x } }

/-- `rvsp`: bits [63:60] read 0b0001 and [3:0] read zero, whatever is written (R233). -/
def setRvsp (w : Wave) (x : DWord) : Wave :=
  { w with arch := { w.arch with rvsp := (x &&& 0x0FFFFFFFFFFFFFF0) ||| 0x1000000000000000 } }

/-- One element written by a long-latency instruction. -/
def land (w : Wave) : RegWrite → Wave
  | .vec r l x => w.setV r l x
  | .scal r x => w.setS r x
  | .flags f => w.setFpc (w.arch.fpc ||| f.setWidth 64)

/-- Flag fn: set while an instruction attached to it has not completed (R154). -/
def flag (w : Wave) (n : Nat) : Bool := w.ll.any fun o => o.flag == some n

end Wave

/-- The same element writes on a register snapshot. -/
def Arch.land (a : Arch) : RegWrite → Arch
  | .vec r l x => { a with vregs := Cells.write a.vregs (vkey r l) x }
  | .scal r x => { a with sregs := Cells.write a.sregs r x }
  | .flags f => { a with fpc := a.fpc ||| f.setWidth 64 }

/-! ## The clause header (R151) -/

def hdrWait (h : Word) : Nat := bitsN h.toNat 31 20
def hdrFlga (h : Word) : Nat := bitsN h.toNat 19 16
def hdrFlgb (h : Word) : Nat := bitsN h.toNat 15 12
def hdrSplit (h : Word) : Nat := bitsN h.toNat 11 8
def hdrLen (h : Word) : Nat := bitsN h.toNat 7 4
def hdrW (h : Word) : Bool := h.getLsbD 3
def hdrY (h : Word) : Bool := h.getLsbD 2
def hdrX (h : Word) : Bool := h.getLsbD 1

/-- Whether a header is legal: FLGA and FLGB not 12 to 14, bit 0 zero (R151). -/
def hdrLegal (h : Word) : Bool :=
  let ok := fun f : Nat => decide (f ≤ 11 ∨ f = 15)
  ok (hdrFlga h) && ok (hdrFlgb h) && !h.getLsbD 0

/-- The flag to which a long-latency instruction at word index i attaches (R153). -/
def hdrFlag (h : Word) (i : Nat) : Option Nat :=
  let f := if i < hdrSplit h then hdrFlga h else hdrFlgb h
  if f = 15 then none else some f

/-- The fall-through address of the clause at `pc` with header `h` (R148). -/
def fallThrough (pc : DWord) (h : Word) : DWord := pc + BitVec.ofNat 64 (4 * (hdrLen h + 2))

/-! ## Hint words (R164 to R170) -/

/-- The hints of one group, sorted by kind. -/
structure Hints where
  himm : List Nat
  hsrc : List Nat
  hmod : List Nat
  hlive : List Nat
  hsch : List Nat
  deriving DecidableEq, Repr

/-- The payload of a hint word. -/
def payload (w : Word) : Nat := w.toNat % 2 ^ 26

/-- The hint words of the open group, each in its kind. -/
def Wave.group (w : Wave) : Hints :=
  w.hints.foldl (fun h x =>
    if x.toNat / 2 ^ 26 = 8 then { h with himm := h.himm ++ [payload x] }
    else match bitsN x.toNat 25 24 with
      | 0 => { h with hsrc := h.hsrc ++ [payload x] }
      | 1 => { h with hmod := h.hmod ++ [payload x] }
      | 2 => { h with hlive := h.hlive ++ [payload x] }
      | _ => { h with hsch := h.hsch ++ [payload x] })
    { himm := [], hsrc := [], hmod := [], hlive := [], hsch := [] }

/-- The registers that an HSRC names (R167). -/
def Hints.extra (h : Hints) : List Nat :=
  match h.hsrc with
  | [] => []
  | p :: _ => [bitsN p 20 14, bitsN p 13 7, bitsN p 6 0].take (bitsN p 22 21)

/-- A modifier field of HMOD when its valid bit is set (R168). -/
def Hints.mod (h : Hints) (valid hi lo : Nat) : Option Nat :=
  match h.hmod with
  | [] => none
  | p :: _ => if bitsN p valid valid = 1 then some (bitsN p hi lo) else none

def Hints.rm (h : Hints) : Option Nat := h.mod 23 22 21
def Hints.sat (h : Hints) : Option Nat := h.mod 20 19 19
def Hints.policy (h : Hints) : Option Nat := h.mod 18 17 16
def Hints.observers (h : Hints) : Option Nat := h.mod 15 14 10
def Hints.stream (h : Hints) : Option Nat := h.mod 9 8 7

/-- The live set of HLIVE: base and mask (R169). -/
def Hints.live (h : Hints) : Nat × Nat :=
  match h.hlive with
  | [] => (0, 0)
  | p :: _ => (bitsN p 23 17, p % 2 ^ 16)

/-- The registers of a live set, ascending (R169). -/
def liveRegs (base mask : Nat) : List Nat := ((List.range 16).filter fun i => mask / 2 ^ i % 2 = 1).map (base + ·)

/-- The immediate of a `n`-bit field with its HIMMs (R162, R166), as 64 bits. -/
def immediate (h : Hints) (n low : Nat) : DWord :=
  match h.himm with
  | [] => ofInt 64 (sextN n low)
  | [h1] => ofInt 64 (sextN (26 + n) (h1 * 2 ^ n + low))
  | h1 :: h2 :: _ => ofInt 64 (sextN (52 + n) (h1 * 2 ^ (26 + n) + h2 * 2 ^ n + low))

/-- The class of an instruction's extra registers (R167, R189). -/
inductive Extra where
  | none
  | scalar
  | vector
  | vectorEven
  | predicate
  deriving DecidableEq, Repr

/-- What an instruction accepts and names: its hints (R164 to R170), the HSRC counts it allows and their class, its
registers (R161), whether it is terminal (R156), its lowest mode (R421), and whether a lookout may execute it (R145). -/
structure Form where
  himm : Bool := false
  counts : List Nat := [0]
  extra : Extra := .none
  rm : Bool := false
  sat : Bool := false
  policy : Bool := false
  observers : Bool := false
  stream : Bool := false
  live : Bool := false
  terminal : Bool := false
  vs : List Nat := []
  ss : List Nat := []
  lowest : Mode := .user
  lookout : Bool := true
  deriving DecidableEq, Repr

/-- A mode's code (R420). -/
def Mode.code : Mode → Nat
  | .user => 0
  | .supervisor => 1
  | .hypervisor => 2

def Mode.decode : Nat → Mode
  | 0 => .user
  | 1 => .supervisor
  | _ => .hypervisor

/-- Whether the group's hints are ones the instruction accepts (R164, R166 to R170). -/
def Form.acceptsHints (f : Form) (h : Hints) : Bool :=
  decide (h.himm.length ≤ 2 ∧ h.hsrc.length ≤ 1 ∧ h.hmod.length ≤ 1 ∧ h.hlive.length ≤ 1 ∧ h.hsch.length ≤ 1) &&
  (f.himm || h.himm.isEmpty) && f.counts.contains h.extra.length &&
  (f.rm || h.rm.isNone) && (f.sat || h.sat.isNone) && (f.policy || h.policy.isNone) &&
  (f.observers || h.observers.isNone) && !(h.observers == some 0) && (f.stream || h.stream.isNone) &&
  (f.live || h.hlive.isEmpty)

/-- Whether every register that the group names exists in the wave (R161), the extra registers in their class. -/
def Form.namesRegisters (f : Form) (h : Hints) (w : Wave) : Bool :=
  let v := fun r => decide (r < w.env.nV)
  let s := fun r => decide (r < w.env.nS ∨ r = 127)
  let x := match f.extra with
    | .none => true
    | .scalar => h.extra.all s
    | .vector => h.extra.all v
    | .vectorEven => h.extra.all fun r => decide (r % 2 = 0) && v r && v (r + 1)
    | .predicate => h.extra.all fun r => decide (r ≤ 11)
  let l := h.live
  f.vs.all v && f.ss.all s && x && (liveRegs l.1 l.2).all v

/-- Whether the word just issued is the last of its clause. -/
def Wave.lastWord (w : Wave) : Bool := decide (w.pos.words.length ≤ w.pos.ridx + 1)

/-- Why a group may not execute (R156, R160, R161, R164, R421): the cause code, if any. -/
def Form.refuses (f : Form) (w : Wave) : Option Nat :=
  let h := w.group
  if !(f.acceptsHints h && f.namesRegisters h w && (!f.terminal || w.lastWord)) then some 0x01
  else if w.arch.mode.code < f.lowest.code then some 0x04
  else none

end Sys2Proof.Machine
end

