-- ==== Sys2Proof/Machine/Ops.lean ====
section
/-!
DEFINITION. The operations that the meanings share: finding cores, waves and VIs; address spaces and translation (R46 to
R53, R290, R293); reading and holding bytes (R455, R456); long-latency results (R153 to R155); completing, stalling and
trapping an instruction group (R156, R165, R426 to R430, R432).
-/
namespace Sys2Proof.Machine

/-- What a meaning answers. -/
abbrev Out := Host.Outcome State Fault Refusal

/-- A happening that cannot take place in this state: the agenda goes on without it (log entry 105). -/
def State.skip (s : State) : Out := .next s

/-! ## Time (R4, R20) -/

/-- The sector of a core, 0 to 5 in ring order (R15, R127). -/
def sectorOf (core : Nat) : Nat := core / 256 * 3 + core / 64 % 4

/-- The core cycles that a core's clock has run. -/
def State.coreTime (s : State) (core : Nat) : Nat := s.clock.sectors.getD (sectorOf core) 0 / 8

/-- The core cycles of the core looked at. -/
def State.now (s : State) : Nat := s.coreTime s.core.id

/-- The uncore cycles of the hub, by which the ring, the launch engine and the regions count. -/
def State.uncore (s : State) : Nat := s.clock.hub / 8

/-- The uncore cycles of a slice and its keeper, from the clock of its group of eight slices (R17). -/
def State.sliceTime (s : State) (slice : Nat) : Nat := s.clock.groups.getD (slice / 8) 0 / 8

/-! ## Finding things -/

/-- The core with a number; a core that holds nothing is empty. -/
def State.coreAt (s : State) (c : Nat) : Core :=
  if s.core.id = c then s.core else (s.cores.find? (·.id == c)).getD (.empty c)

/-- A core put back. -/
def State.setCore (s : State) (c : Core) : State :=
  if s.core.id = c.id then { s with core := c }
  else if s.cores.any (·.id == c.id) then { s with cores := s.cores.map fun d => if d.id = c.id then c else d }
  else { s with cores := s.cores ++ [c] }

/-- Whether the wave is the one named. -/
def Wave.is (w : Wave) (r : WaveRef) : Bool := decide (w.core = r.core ∧ w.slot = r.slot)

/-- The wave in a slot, if the model holds one there. -/
def State.waveAt (s : State) (r : WaveRef) : Option Wave :=
  if s.wave.is r then some s.wave else s.waves.find? (·.is r)

/-- Every wave. -/
def State.allWaves (s : State) : List Wave := s.wave :: s.waves

/-- A change made to every wave. -/
def State.mapWaves (s : State) (f : Wave → Wave) : State := { s with wave := f s.wave, waves := s.waves.map f }

/-- A wave put back in its slot, or added. -/
def State.putWave (s : State) (w : Wave) : State :=
  if s.wave.is ⟨w.core, w.slot⟩ then { s with wave := w }
  else if s.waves.any (·.is ⟨w.core, w.slot⟩) then
    { s with waves := s.waves.map fun x => if x.is ⟨w.core, w.slot⟩ then w else x }
  else { s with waves := s.waves ++ [w] }

/-- The wave named becomes the one looked at, with its core. -/
def State.focus (s : State) (r : WaveRef) : Option State :=
  if s.wave.is r then some s
  else match s.waves.find? (·.is r) with
    | none => none
    | some w =>
      let rest := s.waves.filter fun x => !x.is r
      let c := s.coreAt w.core
      let cores := (if s.core.id = c.id then s.cores else s.core :: s.cores).filter fun d => d.id != c.id
      some { s with wave := w, waves := s.wave :: rest, core := c, cores := cores }

/-- The VI with a number. -/
def State.viAt (s : State) (v : Nat) : Option Vi := s.vis.find? (·.vi == v)

/-- A VI put back. -/
def State.setVi (s : State) (v : Vi) : State := { s with vis := s.vis.map fun x => if x.vi = v.vi then v else x }

/-- The grid with a number. -/
def State.gridAt (s : State) (g : Nat) : Option Grid := s.grids.find? (·.id == g)

/-- A grid put back. -/
def State.setGrid (s : State) (g : Grid) : State := { s with grids := s.grids.map fun x => if x.id = g.id then g else x }

/-- The package's index (R3). -/
def State.pkg (s : State) : Nat := s.platform.record.pkg

/-- Whether a package index is a member of the domain (R3, R25). -/
def State.isMember (s : State) (p : Nat) : Bool := p == s.pkg || s.platform.record.portmap.contains p

/-- A value that the spec leaves open, with the state after it (log entry 2). -/
def State.openValue (s : State) : DWord × State := (Config.freeValue s.free, { s with free := s.free + 1 })

/-- A fresh number. -/
def State.fresh (s : State) : Nat × State := (s.ids, { s with ids := s.ids + 1 })

/-- An event told to the partition monitor or the control cores. -/
def State.tell (s : State) (e : HubEvent) : State := { s with hub := { s.hub with events := s.hub.events ++ [e] } }

/-- Something that is to happen next. -/
def State.soon (s : State) (h : Happening) : State := { s with agenda := h :: s.agenda }

/-- A VI freezes on a cause, or counts a further one; a VI in another state is not touched (R30, R31, R489). -/
def State.freeze (s : State) (v cause : Nat) : State :=
  match s.viAt v with
  | none => s
  | some x =>
    match x.phase with
    | .active => s.setVi { x with phase := .frozen, fcause := cause }
    | .frozen => s.setVi { x with fcount := min 65535 (x.fcount + 1) }
    | _ => s

/-! ## Addresses -/

/-- The space of an address: bits [63:61] (R46). -/
def spaceOf (a : DWord) : Nat := bitsN a.toNat 63 61

def causeMisaligned : Nat := 0x08
def causeTranslation : Nat := 0x10
def causePermission : Nat := 0x18

/-- A permission fault that also breaks the VI's allocation (R31 cause 2, R489). -/
def causePartition : Nat := 0x218

/-- The rights that an access needs. -/
inductive Access where
  | read
  | write
  | fetch
  deriving DecidableEq, Repr

/-- The size of a page. -/
def Page.size (p : Page) : Nat := if p.large then 2 ^ 21 else 2 ^ 16

/-- Whether a page holds an address under an ASID. -/
def Page.covers (p : Page) (asid : Nat) (a : DWord) : Bool := p.asid == asid && p.vpage == a.toNat / p.size * p.size

/-- Whether an extent holds an address under an ASID. -/
def Extent.covers (x : Extent) (asid : Nat) (a : DWord) : Bool :=
  x.asid == asid && decide (x.base ≤ a.toNat ∧ a.toNat < x.base + x.size)

/-- The translation that a TLB or a walker keeps of an address of a VI. -/
def State.keptPage (s : State) (u : TlbUnit) (vi asid : Nat) (a : DWord) : Option Page :=
  (s.tlbs.find? fun x => decide (x.unit = u) && x.vi == vi && x.page.covers asid a).map (·.page)

/-- The sector whose walker serves an agent: a core's own, or for number 512 + n that of slice n's keeper. -/
def walkerOf (core : Nat) : Nat := if core < 512 then sectorOf core else (core - 512) / 16

/-- Whether an address falls in an extent of the task (R107, R290). -/
def State.inExtent (s : State) (e : Env) (a : DWord) : Bool :=
  match s.gridAt e.grid with
  | some g => g.extents.any fun x => x.covers e.asid a
  | none => false

/-- The page of the tables that holds an address. -/
def Vi.walk (v : Vi) (asid : Nat) (a : DWord) : Option Page := v.pages.find? fun p => p.covers asid a

/-- The page that translates an address for an agent of a VI, on the first path that covers it (R290): the task's extents, whose outcome
is that of a walk at the time of the access (R108), the core's TLB, the sector's walker with what it keeps, the tables. -/
def State.pageOf (s : State) (v : Vi) (e : Env) (a : DWord) : Option Page :=
  if s.inExtent e a then v.walk e.asid a
  else
    (s.keptPage (.core e.own.core) v.vi e.asid a).or
      ((s.keptPage (.walker (walkerOf e.own.core)) v.vi e.asid a).or (v.walk e.asid a))

/-- The context of an agent that is no wave, for a VI and an ASID: a number from 512 on names no core. -/
def agentEnv (vi asid agent : Nat) : Env := { Env.idle with vi := vi, asid := asid, own := .none agent }

/-- The bytes of a package's tensor range: 512 GiB, or 448 GiB with one stack unpowered (R3, R27, R273). -/
def State.tensorBytes (s : State) : Nat := if s.platform.deadStack.isSome then 7 * 2 ^ 36 else 2 ^ 39

/-- Whether a physical key names memory of the upstream host (log entry 19). -/
def isHostKey (key : Nat) : Bool := decide (2 ^ 42 ≤ key ∧ key < 2 ^ 43)

/-- Whether a physical key lies in the VI's allocation (R28, R31). -/
def Vi.owns (v : Vi) (key : Nat) : Bool :=
  if key < 2 ^ 40 then decide (v.desc.tenBase ≤ key ∧ key < v.desc.tenBase + v.desc.tenSize)
  else if isHostKey key then true
  else decide (v.desc.ctlBase ≤ key - 2 ^ 40 ∧ key - 2 ^ 40 < v.desc.ctlBase + v.desc.ctlSize)

/-- Whether an ASID lies in the VI's range (R28, R31). -/
def Vi.hasAsid (v : Vi) (asid : Nat) : Bool := decide (v.desc.asidBase ≤ asid ∧ asid < v.desc.asidBase + v.desc.asidCnt)

/-- The key of offset `o` from `CAPBASE` (log entry 14). -/
def Vi.ctlKey (v : Vi) (o : Nat) : Nat := 2 ^ 40 + v.desc.capBase.toNat % 2 ^ 39 + o

/-- Whether a key lies in the capability table of some VI, which only the partition monitor can write (R95). -/
def State.inCapTable (s : State) (key : Nat) : Bool :=
  s.vis.any fun v => decide (v.ctlKey 0 ≤ key ∧ key < v.ctlKey 0x10000)

/-- The home package of a control key: bits [38:35] of the control physical address (R51). -/
def homeOf (key : Nat) : Nat := bitsN key 38 35

/-- Translation and page rights of a control or local tensor address (R95, R273, R290, R293, R365, R489). A tensor address past the
package's range is the key of no byte, which no translation gives. -/
def State.translate (s : State) (e : Env) (mode : Mode) (acc : Access) (a : DWord) : Except Nat Nat :=
  match s.viAt e.vi with
  | none => .error causeTranslation
  | some v =>
    match s.pageOf v e a with
    | none => .error causeTranslation
    | some p =>
      let key := p.key + a.toNat % p.size
      if 2 ^ 40 ≤ key ∧ isHostKey key = false ∧ s.isMember (homeOf key) = false ∧ s.fabric.lost.contains (homeOf key) = false then
        .error causeTranslation
      else if s.tensorBytes ≤ key ∧ key < 2 ^ 40 then .error causeTranslation
      else if (mode = .user ∧ p.user = false) ∨ (acc = .write ∧ p.write = false) ∨ (acc ≠ .write ∧ p.read = false) then
        .error causePermission
      else if (v.owns key = false ∨ v.hasAsid e.asid = false) ∧ mode ≠ .hypervisor then .error causePartition
      else if acc = .write ∧ mode ≠ .hypervisor ∧ s.inCapTable key = true then .error causePermission
      else .ok key

/-- The byte of a run of local store, inside the allocation (R50, R132). -/
def StoreRun.at (r : StoreRun) (o : Nat) : Except Nat Place :=
  if o < r.limit then .ok (.store r.core (r.base + o)) else .error causePermission

/-- The byte that a local offset names, whoever holds its core (R49, R50). -/
def Env.localPlace (e : Env) (o : Nat) : Except Nat Place :=
  if o < 0x80000 then e.own.at o
  else if o < 0x100000 then
    match e.partner with
    | some r => r.at (o - 0x80000)
    | none => .error causePermission
  else if o < 0x200000 then .error causePermission
  else
    match e.window.find? fun r => r.pos == (o - 0x200000) / 0x80000 with
    | some r => r.at ((o - 0x200000) % 0x80000)
    | none => .error causePermission

/-- Whether a core still holds a team (R49, R115). -/
def Core.holdsTeam (c : Core) (grid team : Nat) : Bool := c.residents.any fun x => x.grid == grid && x.team == team

/-- The byte that a local offset reaches (R49): through the window, only while the core holds a team of the caller's reach. -/
def State.localPlace (s : State) (e : Env) (o : Nat) : Except Nat Place :=
  if o < 0x200000 then e.localPlace o
  else
    match e.window.find? fun r => r.pos == (o - 0x200000) / 0x80000 with
    | some r => if r.core = e.own.core ∨ (s.coreAt r.core).holdsTeam e.grid r.team = true then e.localPlace o else .error causePermission
    | none => .error causePermission

/-- The backing address of byte o of lane l's lane area, and of byte o of the wave area (R48). The number of the block is
the team's linear index times the waves per team plus the wave's index. -/
def Env.block (e : Env) : Nat := e.privBase + (e.team * e.wavesPerTeam + e.waveid) * (e.privLane * e.wavew + e.privWave)
def Env.laneByte (e : Env) (l o : Nat) : Nat := e.block + o / 4 * 4 * e.wavew + 4 * l + o % 4
def Env.waveByte (e : Env) (o : Nat) : Nat := e.block + e.privLane * e.wavew + o

/-- Whether a tensor address lies in the grid's private backing or ferry overflow areas, which user mode may not touch
(R48, R262). -/
def Env.guarded (e : Env) (a : DWord) : Bool :=
  decide (e.privBase ≤ a.toNat ∧ a.toNat < e.privBase + e.privSize) ||
  (e.ferry && decide (e.ovfBase ≤ a.toNat ∧ a.toNat < e.ovfBase + e.teams * e.ovfSize))

/-- Whether a tensor address lies in the private backing or the overflow areas of a grid (R48, R262). -/
def Grid.guards (g : Grid) (a : DWord) : Bool :=
  let r := g.record
  decide (r.privBase.toNat ≤ a.toNat ∧ a.toNat < r.privBase.toNat + r.privSize) ||
  (r.flags.getLsbD 1 && decide (r.ovfBase.toNat ≤ a.toNat ∧ a.toNat < r.ovfBase.toNat + r.gx * r.gy * r.gz * r.ovfSize))

/-- Whether user mode of a VI may not touch a tensor address, for the grid of the access or another of the VI. -/
def State.guarded (s : State) (e : Env) (a : DWord) : Bool :=
  e.guarded a || s.grids.any fun g => g.vi == e.vi && g.guards a

/-- The member that a domain-view index names (R52). -/
def State.viewOf (s : State) (vi ix : Nat) : Option Member :=
  match s.viAt vi with
  | none => none
  | some v => v.view.find? (·.ix == ix)

/-- The place of one byte that lane l reaches at an address, after the alignment check, in the order of R293: space
decoding (R46), translation, rights. -/
def State.place (s : State) (e : Env) (mode : Mode) (acc : Access) (l : Nat) (a : DWord) : Except Nat Place :=
  let n := a.toNat % 2 ^ 61
  match spaceOf a with
  | 0 =>
    let o := n % 2 ^ 60
    if n < 2 ^ 60 then
      if e.privLane ≤ o then .error causeTranslation
      else (s.translate e mode acc (BitVec.ofNat 64 (e.laneByte l o))).map .mem
    else if e.privWave ≤ o then .error causeTranslation
    else (s.translate e mode acc (BitVec.ofNat 64 (e.waveByte o))).map .mem
  | 1 => if 2 ^ 22 ≤ n then .error causeTranslation else s.localPlace e n
  | 2 => if 2 ^ 48 ≤ n then .error causeTranslation else (s.translate e mode acc a).map .mem
  | 3 =>
    if 2 ^ 44 ≤ n then .error causeTranslation
    else
      match s.viewOf e.vi (n / 2 ^ 40) with
      | none => .error causeTranslation
      | some m =>
        if m.pkg ≠ s.pkg then .error causePermission
        else
          match s.translate e mode acc a with
          | .error c => .error c
          | .ok k => if mode = .user ∧ s.guarded e a = true then .error causePermission else .ok (.mem k)
  | _ => .error causeTranslation

/-- What the checks of `n` bytes from an address give, ascending. -/
def State.checks (s : State) (e : Env) (mode : Mode) (acc : Access) (l : Nat) (a : DWord) : Nat → List (Except Nat Place)
  | 0 => []
  | n + 1 => s.place e mode acc l a :: s.checks e mode acc l (a + 1) n

/-- The cause that decides among the bytes of an access: every byte is translated before any right is examined (R293). -/
def firstCause (xs : List (Except Nat Place)) : Option Nat :=
  let cs := xs.filterMap fun x => match x with
    | .error c => some c
    | .ok _ => none
  if cs.contains causeTranslation then some causeTranslation else cs.head?

/-- The places of `n` bytes from an address, ascending, or the cause of the access (R293). -/
def State.places (s : State) (e : Env) (mode : Mode) (acc : Access) (l : Nat) (a : DWord) (n : Nat) : Except Nat (List Place) :=
  let xs := s.checks e mode acc l a n
  match firstCause xs with
  | some c => .error c
  | none => .ok (xs.filterMap fun x => match x with
    | .ok p => some p
    | .error _ => none)

/-- An access of the wave looked at: alignment, then the places of its bytes (R293). -/
def State.reach (s : State) (acc : Access) (l : Nat) (a : DWord) (size : Nat) : Except Nat (List Place) :=
  if a.toNat % size ≠ 0 then .error causeMisaligned
  else s.places s.wave.env s.wave.arch.mode acc l a size

/-! ## Bytes -/

/-- The released byte at a place. -/
def State.released (s : State) : Place → Byte
  | .mem k => Cells.read (w := 8) s.mem k
  | .store c o => Cells.read (s.coreAt c).store o

/-- A byte written at a place, in the canonical form. -/
def State.setByte (s : State) (p : Place) (b : Byte) : State :=
  match p with
  | .mem k => { s with mem := Cells.write (w := 8) s.mem k b }
  | .store c o => let d := s.coreAt c; s.setCore { d with store := Cells.write d.store o b }

/-- A poison bit set or cleared. -/
def State.setPoison (s : State) (p : Place) (on : Bool) : State :=
  match p with
  | .mem k =>
    let r := s.poison.filter (· != k / 32)
    { s with poison := if on then k / 32 :: r else r }
  | .store c o =>
    let r := s.storePoison.filter (· != (c, o / 32))
    { s with storePoison := if on then (c, o / 32) :: r else r }

/-- Bytes written at consecutive places; a write that covers a whole sector clears its poison bit (R466). -/
def State.setBytes (s : State) : List Place → List Byte → State
  | p :: ps, b :: bs => (s.setByte p b).setBytes ps bs
  | _, _ => s

def Place.offset : Place → Nat
  | .mem k => k
  | .store _ o => o

def State.clearCovered (s : State) (ps : List Place) : State :=
  ps.foldl (fun s p => if p.offset % 32 = 0 ∧ ((List.range 32).all fun i =>
      ps.any fun q => match p, q with
        | .mem a, .mem b => b == a + i
        | .store c a, .store d b => c == d && b == a + i
        | _, _ => false) = true then s.setPoison p false else s) s

/-- Place n bytes after a place. -/
def Place.add : Place → Nat → Place
  | .mem k, n => .mem (k + n)
  | .store c o, n => .store c (o + n)

/-- The byte that a held write has at a place. -/
def Held.byteAt (h : Held) (p : Place) : Option Byte :=
  match h.kind, p with
  | .write (.mem b) bs, .mem a => if b ≤ a ∧ a < b + bs.length then bs[a - b]? else none
  | .write (.store c b) bs, .store d a => if c = d ∧ b ≤ a ∧ a < b + bs.length then bs[a - b]? else none
  | _, _ => none

/-- Whether a wave's slot sees a held write (R456): its own; of the others the writes to a local store, but a release only when its
wave has nothing held before it (R301). -/
def Held.seenBy (h : Held) (slot : Nat) (p : Place) (before : List Nat) : Bool :=
  h.slot == slot ||
    match p with
    | .mem _ => false
    | .store _ _ => !h.rel || !before.contains h.slot

/-- The last value that held writes of a core give a place as a slot sees them (R456); `before` are the slots of the items passed. -/
def heldByteIn (slot : Nat) (p : Place) : List Nat → Option Byte → List Held → Option Byte
  | _, r, [] => r
  | before, r, h :: hs => heldByteIn slot p (h.slot :: before) (if h.seenBy slot p before then (h.byteAt p).or r else r) hs

def Core.heldByte (c : Core) (slot : Nat) (p : Place) : Option Byte := heldByteIn slot p [] none c.held

/-- The byte that the wave looked at reads at a place: its held writes, and its core's held local writes, over the released
byte (R456). -/
def State.byte (s : State) (p : Place) : Byte := (s.core.heldByte s.wave.slot p).getD (s.released p)

/-- The bytes of an access as a number (R7). -/
def State.load (s : State) (ps : List Place) : Nat := numOf (ps.map s.byte)

/-- The loads of a wave have returned what they will return: nothing read by them races any more (R291). -/
def Wave.settleLoads (w : Wave) : Wave := { w with ll := w.ll.map fun o => { o with racing := [] } }

/-- Something held from now on by the quarantine (R455), with the policy and the release mark of a store. -/
def State.holdAs (s : State) (policy : Nat) (rel : Bool) (k : HeldKind) : State :=
  { s with wave := s.wave.settleLoads,
           core := { s.core with
             held := s.core.held ++ [{ slot := s.wave.slot, at_ := s.now, kind := k, policy := policy, rel := rel }] } }

def State.hold (s : State) (k : HeldKind) : State := s.holdAs 0 false k

/-- A store of the wave, held byte by byte (R294, R455), with its cache policy (R278) and whether it is a release to the cores (R301). -/
def State.storeAs (policy : Nat) (rel : Bool) (s : State) : List Place → List Byte → State
  | p :: ps, b :: bs => State.storeAs policy rel (s.holdAs policy rel (.write p [b])) ps bs
  | _, _ => s

/-- A plain store with the normal policy. -/
def State.store (s : State) (ps : List Place) (bs : List Byte) : State := s.storeAs 0 false ps bs

/-- Whether a held atomic of the core touches one of the places: a later access of it waits (log entry 12). -/
def State.atomicHeld (s : State) (ps : List Place) : Bool :=
  s.core.held.any fun h =>
    match h.kind with
    | .atomic p a _ _ _ _ _ => ps.any fun q => (List.range a.size).any fun i => decide (q = p.add i)
    | _ => false

/-! ## Lines that other sides hold -/

/-- The control line of a key (R365). -/
def lineOf (key : Nat) : Nat := (key - 2 ^ 40) / 128

/-- The next member of the domain after an index, wrapping (R365). -/
def State.nextMember (s : State) (h : Nat) : Nat :=
  ((List.range 16).map fun i => (h + 1 + i) % 16).find? s.isMember |>.getD h

/-- The home of a control key: the mirror home once the home is lost; none when both are (R365, R473, R474). -/
def State.homeFor (s : State) (key : Nat) : Option Nat :=
  let h := homeOf key
  if s.fabric.lost.contains h = false then some h
  else
    let m := s.nextMember h
    if s.fabric.lost.contains m then none else some m

/-- Whether this package serves a line as its home now: an adopted line only from the time of R473 on. -/
def State.servesLine (s : State) (key : Nat) : Bool :=
  s.homeFor key == some s.pkg &&
    (homeOf key == s.pkg || s.fabric.recalls.any fun r => r.pkg == homeOf key && r.served)

/-- The directory entry of a line (R366). -/
def State.dirEntry (s : State) (line : Nat) : DirEntry :=
  (s.control.dir.find? (·.line == line)).getD { line := line, st := .invalid, sharers := 0, owner := 0 }

/-- This package's right to a control line is that of its copy; the home is a sharer of its own lines like any other package (R366). -/
def State.lineRight (s : State) (line : Nat) (write : Bool) : Bool :=
  match s.control.copies.find? (·.1 == line) with
  | some (_, .modified) => true
  | some (_, .exclusive) => true
  | some (_, .owned) => !write
  | some (_, .shared) => !write
  | some (_, .invalid) => false
  | none => false

/-- Whether the only homes of a control key are lost (R474). -/
def State.lineGone (s : State) (key : Nat) : Bool :=
  decide (2 ^ 40 ≤ key) && !isHostKey key && (s.homeFor key).isNone

/-- The poison bit of a place's sector (R466); a line whose only homes are lost reads as consumed poison (R474). -/
def State.poisoned (s : State) : Place → Bool
  | .mem k => s.poison.contains (k / 32) || s.lineGone k
  | .store c o => s.storePoison.contains (c, o / 32)

/-- Whether the processor side owns the 2 MiB region of a tensor key (R284). -/
def State.processorOwns (s : State) (key : Nat) : Bool :=
  s.hub.regions.any fun r => r.region == key / 2 ^ 21 && !r.accel

/-- The lines that a keeper holds, as keys divided by 128 (R289, R465). -/
def Keeper.lines (k : Keeper) : List Nat := ((k.run.map (·.lines)).getD []) ++ k.held.flatMap (·.lines)

/-- Whether some keeper holds the line of a key: no other access to it completes (R289). -/
def State.keeperHolds (s : State) (key : Nat) : Bool :=
  (s.keeper :: s.keepers).any fun k => k.lines.contains (key / 128)

/-- Whether the package side of a place is at hand: the line of a control key is held, the region of a tensor key is the
accelerator side's. -/
def State.atHand (s : State) (write : Bool) (k : Nat) : Bool :=
  if k < 2 ^ 40 then !s.processorOwns k else isHostKey k || s.lineRight (lineOf k) write || s.lineGone k

/-- Whether an access to a place can go ahead: it is at hand, and no keeper holds its line. -/
def State.available (s : State) (write : Bool) : Place → Bool
  | .mem k => s.atHand write k && !s.keeperHolds k
  | .store _ _ => true

/-- A place for which an access waits asks for its line, or for its region (R284, R366), on behalf of a grid and reach. -/
def State.askFor (s : State) (grid reach : Nat) (write : Bool) (p : Place) : State :=
  match p with
    | .mem k =>
      if s.atHand write k then s
      else if k < 2 ^ 40 then
        { s with hub := { s.hub with regions := s.hub.regions.map fun r =>
            if r.region = k / 2 ^ 21 then { r with wanted := true } else r } }
      else if s.control.wanted.any (fun x => x.line == lineOf k && (x.write || !write)) then s
      else
        let w : Wanted := { line := lineOf k, write := write, since := s.clock.us, grid := grid, reach := reach, tag := none }
        { s with control := { s.control with wanted := s.control.wanted ++ [w] } }
    | .store _ _ => s

/-- The same for the wave looked at. -/
def State.ask (s : State) (write : Bool) (p : Place) : State := s.askFor s.wave.env.grid s.wave.env.reach write p

/-- Whether an atomic of the wave that acquires is still held: accesses after it wait (R301, R305). -/
def State.acquiring (s : State) : Bool :=
  s.core.held.any fun h =>
    match h.kind with
    | .atomic _ _ _ _ acq _ _ => acq && h.slot == s.wave.slot
    | _ => false

/-- Whether a control-space atomic of the wave is still held: a later control-space load waits (R388, R390). -/
def State.controlAtomicHeld (s : State) : Bool :=
  s.core.held.any fun h =>
    match h.kind with
    | .atomic (.mem k) _ _ _ _ _ _ => decide (2 ^ 40 ≤ k) && h.slot == s.wave.slot
    | _ => false

def Place.isControl : Place → Bool
  | .mem k => decide (2 ^ 40 ≤ k)
  | .store _ _ => false

/-- Whether a read of some places must wait: a line or region that another side holds, a held atomic on the bytes (log
entry 12), or an atomic that it may not pass (R301, R305, R388, R390). -/
def State.blocked (s : State) (ps : List Place) : Bool :=
  ps.any (fun p => !s.available false p) || s.atomicHeld ps || s.acquiring || (ps.any Place.isControl && s.controlAtomicHeld)

/-- What a waiting read asks for. -/
def State.askAll (s : State) (ps : List Place) : State := ps.foldl (fun s p => s.ask false p) s

/-- Whether the entry of the reconvergence stack at an address cannot be read yet. -/
def State.entryBlocked (s : State) (a : DWord) : Bool :=
  match s.reach .read 0 a 16 with
  | .ok ps => s.blocked ps
  | .error _ => false

/-- What the reading of the entry waits for is asked for (R284, R366). -/
def State.entryAsk (s : State) (a : DWord) : State :=
  match s.reach .read 0 a 16 with
  | .ok ps => s.askAll ps
  | .error _ => s

/-! ## Completing a group -/

/-- Flags raised in `fpc` (R83). -/
def Wave.raise (w : Wave) (f : BitVec 5) : Wave := w.setFpc (w.arch.fpc ||| f.setWidth 64)

/-- A setting of HSCH takes effect when the modified instruction issues (R170). -/
def Wave.schedule (w : Wave) : Wave :=
  match w.group.hsch with
  | [] => w
  | p :: _ =>
    let w := if bitsN p 23 23 = 1 then { w with prio := bitsN p 22 21 } else w
    let w := if bitsN p 19 19 = 1 then { w with noShare := bitsN p 18 18 = 1 } else w
    if bitsN p 20 20 = 1 then { w with yieldDue := true } else w

/-- The position after the word at `ridx`: the next word, or the fall-through clause (R148, R152). -/
def Wave.pastWord (w : Wave) : Wave :=
  if w.lastWord then
    { w with pos := .at (fallThrough w.pos.pc w.pos.header), fellX := hdrX w.pos.header, status := .ready }
  else { w with pos := { w.pos with ridx := w.pos.ridx + 1 }, status := .inClause }

/-- A replay ends with its group: the mask that the trap left is restored (R432). -/
def Wave.restoreMask (w : Wave) : Wave :=
  match w.replay with
  | some m => { w with arch := { w.arch with exm := m &&& w.lanes }, replay := none }
  | none => w

/-- A group completes: HSCH applied, a replay's mask restored (R432), single step noted (R442), the hints consumed, the
next word reached. -/
def Wave.retire (w : Wave) : Wave :=
  { w.schedule.restoreMask.pastWord with
    hints := [], issued := false, fenceAt := none, stepDue := w.stepDue || (w.arch.sstep && decide (w.arch.mode = .user)) }

/-- The age of a wave that starts on a core in a cycle: by the group of the cycle's starts, and in it by a key (R141). -/
def Core.ageNow (c : Core) (now key : Nat) : Core × Nat :=
  let g := if c.ageAt = now then c.nextAge else c.nextAge + 1
  ({ c with nextAge := g, ageAt := now }, g * 8192 + key)

/-- A wave between clauses that has asked to yield becomes the youngest on its core (R141, R170, R240). -/
def State.aged (s : State) : State :=
  if s.wave.yieldDue = true ∧ s.wave.status = .ready then
    let a := s.core.ageNow s.now (6144 + s.wave.issueSlot)
    { s with wave := { s.wave with age := a.2, yieldDue := false }, core := a.1 }
  else s

/-- The instruction completes. -/
def State.done (s : State) : Out := .next ({ s with wave := s.wave.retire } : State).aged

/-- A region begins where the wave now stands (R457). -/
def State.enter (s : State) : State :=
  let w := s.wave
  let e : RegionEntry :=
    { arch := w.arch, replay := w.replay, expiryDue := w.expiryDue, stepDue := w.stepDue, taken := [],
      lls := w.ll.map (·.id), pos := w.pos, inClause := decide (w.status = .inClause), reachedAt := s.now, confirmed := false }
  { s with wave := { w with entries := w.entries ++ [e], entryDue := false } }

/-- A region-ending instruction completes: the group after it begins a region (R457, R458). -/
def State.doneEnd (s : State) : Out := .next ({ s with wave := s.wave.retire } : State).aged.enter

/-- A taken transfer: the next clause is at `t`. -/
def Wave.jump (w : Wave) (t : DWord) : Wave := { w.retire with pos := .at t, fellX := false, status := .ready }

/-- The word waits and issues again: nothing has happened yet. -/
def State.wait (s : State) : Out := .next { s with wave := { s.wave with issued := true } }

/-- The wave stalls at a terminal instruction and releases its slot (R156). -/
def State.stall (s : State) : Out := .next { s with wave := { s.wave.settleLoads with status := .stalled } }

/-- Whether something that a core made in a cycle has left its quarantine (R455): 64 cycles have run, and no strike that is still to be
reported came before it (R454). -/
def Core.ripe (c : Core) (now made : Nat) : Bool := decide (made + Config.quarantine ≤ now) && c.struck.all fun t => decide (made < t)

/-- A long-latency instruction issues: attached to its flag by its word index, with the elements it will write and the number
of steps that it awaits (R153, R154). -/
def State.issueLong (s : State) (left : Nat) (ws : List RegWrite) : State :=
  let w := s.wave
  let o : LongOp := { id := s.ids, flag := hdrFlag w.pos.header w.pos.ridx, left := left, writes := ws }
  { s with ids := s.ids + 1, wave := { w with ll := w.ll ++ [o] } }

/-- A load issues: `racing` are the elements whose sector is still being filled, with the places of their bytes (R291); what earlier
loads of the wave returned races no more. -/
def State.issueLoad (s : State) (ws : List RegWrite) (racing : List (Nat × List Place)) : State :=
  let w := s.wave.settleLoads
  let o : LongOp := { id := s.ids, flag := hdrFlag w.pos.header w.pos.ridx, left := 0, writes := ws, racing := racing }
  { s with ids := s.ids + 1, wave := { w with ll := w.ll ++ [o] } }

/-- The elements that a long-latency instruction has not written early: what an own write has put since into one that landed stays
(R155, log entry 123). -/
def LongOp.rest (o : LongOp) : List RegWrite :=
  o.writes.zipIdx.filterMap fun x => if o.landed.contains x.2 then none else some x.1

/-- A long-latency instruction writes its last elements and completes (R154); region entries reached while it was in
progress take its values too (log entry 13). -/
def Wave.finishLong (w : Wave) (id : Nat) : Wave :=
  match w.ll.find? (·.id == id) with
  | none => w
  | some o =>
    let w := { o.rest.foldl Wave.land w with ll := w.ll.filter fun x => x.id != id }
    { w with entries := w.entries.map fun e =>
        if e.lls.contains id then { e with arch := o.rest.foldl Arch.land e.arch, lls := e.lls.filter (· != id) } else e }

/-- Every long-latency instruction whose values are known completes (R158). -/
def Wave.finishAll (w : Wave) : Wave := (w.ll.filter (·.left == 0)).foldl (fun w o => w.finishLong o.id) w

/-! ## Traps (R426 to R430) -/

/-- A cause word with the write bit of an address fault (R425). -/
def causeWord (code : Nat) (acc : Access) : Word :=
  BitVec.ofNat 32 (code % 256 + match acc with
    | .read => 0
    | .write => 2 ^ 8
    | .fetch => 2 ^ 9)

/-- A whole-wave trap with a cause word and, for an address cause, the address (R426). -/
def Wave.wholeTrap (w : Wave) (c : Word) (addr : Option DWord) : Trap :=
  let ls := List.range w.env.wavew
  { whole := true, mask := w.exm, causes := ls.map fun l => (l, c),
    addrs := match addr with
      | some a => if a = 0 then [] else ls.map fun l => (l, a)
      | none => [],
    boundary := false, hvc := none }

/-- A lane trap (R426): for each trapping lane its cause word and address. -/
def laneTrap (ls : List (Nat × Word × Option DWord)) : Trap :=
  { whole := false, mask := maskOf (ls.map (·.1)), causes := ls.map fun x => (x.1, x.2.1),
    addrs := (ls.filterMap fun x => x.2.2.map fun a => (x.1, a)).filter fun x => decide (x.2 ≠ 0),
    boundary := false, hvc := none }

/-- The vector of a cause code (R425). -/
def vectorOf (code : Nat) : Nat :=
  if code < 0x08 then 0 else if code < 0x10 then 1 else if code < 0x18 then 2 else if code < 0x20 then 3
  else if code < 0x28 then 4 else if code < 0x30 then 5 else if code < 0x38 then 6 else 7

/-- The lowest vector among a trap's causes (R426). -/
def Trap.vector (t : Trap) : Nat := t.causes.foldl (fun v c => min v (vectorOf (c.2.toNat % 256))) 7

/-- The floating-point sets of a trap's lanes, in bits [12:8] (R436). -/
def Trap.fpSets (t : Trap) : DWord :=
  t.causes.foldl (fun m c => m ||| if c.2.toNat % 256 = 0x20 then BitVec.ofNat 64 (bitsN c.2.toNat 12 8 * 2 ^ 8) else 0) 0

/-- Whether an address lies in a section that satisfies `k` (R45). -/
def Env.inSection (e : Env) (k : Section → Bool) (a : DWord) : Bool :=
  e.sections.any fun x => k x && decide (e.image.toNat + x.off ≤ a.toNat ∧ a.toNat < e.image.toNat + x.off + x.size)

def Section.isCode (x : Section) : Bool := x.kind == 1 || x.kind == 2
def Section.isSupervisor (x : Section) : Bool := x.kind == 3

/-- A resume word of a kind (R235). -/
def resumeWord (pc : DWord) (ridx : Nat) (mid : Bool) (kind : Nat) : DWord :=
  (pc &&& 0xE000FFFFFFFFFFFC) ||| BitVec.ofNat 64 ((if mid then ridx * 2 ^ 57 + 2 ^ 56 else 0) + kind)

/-- The header address that a resume word names (R235). -/
def resumeAddr (w : DWord) : DWord := w &&& 0xE000FFFFFFFFFFFC
def resumeIdx (w : DWord) : Nat := bitsN w.toNat 60 57
def resumeMid (w : DWord) : Bool := w.getLsbD 56

/-- The resume word of the open group, or of the clause not yet started (R158, R165, R428). A group that begins its clause
is named with `RMID` 0 (R486). -/
def Wave.resumePoint (w : Wave) : DWord :=
  let i := w.pos.ridx - w.hints.length
  match w.status with
  | .inClause => resumeWord w.pos.pc i (i != 0) 1
  | .stalled => resumeWord w.pos.pc i (i != 0) 1
  | _ => match w.badResume with
    | some x => (x &&& 0xFFFFFFFFFFFFFFFC) ||| 1
    | none => resumeWord w.pos.pc w.pos.ridx (w.pos.ridx != 0) 1

/-- A push onto the reconvergence stack as MPUSH makes it: two 8-byte accesses of one block, both or neither (R237). -/
def State.push (s : State) (m w : DWord) : Except (Nat × DWord) State :=
  let a := s.wave.arch.rvsp
  match s.reach .write 0 a 16 with
  | .error c => .error (c, a)
  | .ok ps =>
    let s := s.store ps (bytesOf 8 m.toNat ++ bytesOf 8 w.toNat)
    .ok { s with wave := s.wave.setRvsp (a + 16) }

/-- The 16 bytes at an address of the wave area, as two 8-byte values (R237). -/
def State.entryAt (s : State) (a : DWord) : Except (Nat × DWord) (DWord × DWord) :=
  match s.reach .read 0 a 16 with
  | .error c => .error (c, a)
  | .ok ps => .ok (BitVec.ofNat 64 (s.load (ps.take 8)), BitVec.ofNat 64 (s.load (ps.drop 8)))

/-- A free opaque block of the wave's slot (R433). -/
def State.freeBlock (s : State) (slotNo : Nat) : Nat :=
  ((List.range 4).find? fun b => !(s.hub.blocks.any fun x => x.home == slotNo && x.block == b)).getD 3

/-- The handle of an opaque block (R433). -/
def handleOf (slotNo b : Nat) : DWord := BitVec.ofNat 64 (slotNo * 2 ^ 10 + b * 2 ^ 2 + 2)

/-- The package-wide slot number (R433). -/
def Wave.slotNo (w : Wave) : Nat := w.core * 32 + w.slot

/-- The hypervisor level of trap entry (R428): a new opaque block, `hstat`, `hepc`, the monitor's entry. -/
def State.enterHyper (s : State) (t : Trap) (code escalated : Nat) (m w : DWord) : State :=
  let v := s.wave
  let b := s.freeBlock v.slotNo
  let blk : OpaqueBlock :=
    { slotNo := v.slotNo, home := v.slotNo, block := b, m := m, w := w, emask := t.mask, ecause := t.causes, eaddr := t.addrs,
      mode := v.arch.mode, hyper := true }
  let h := handleOf v.slotNo b
  let s := { s with hub := { s.hub with blocks := s.hub.blocks ++ [blk] } }
  let s := match s.push m h with
    | .ok s' => s'
    | .error _ => s
  let hst := BitVec.ofNat 64 (code + escalated * 2 ^ 8 + v.arch.mode.code * 2 ^ 16 + (t.hvc.getD 0) * 2 ^ 18)
  { s with wave := { s.wave with arch := { s.wave.arch with hstat := hst, hepc := h, mode := .hypervisor, exm := t.mask },
                                 pos := .at Config.monitorEntry } }

/-- Whether an address counts as a clause header of a section kind (R427). -/
def Env.isHeader (e : Env) (k : Section → Bool) (a : DWord) : Bool := decide (a.toNat % 4 = 0) && e.inSection k a

/-- `estat` of a trap (R424). -/
def estatOf (t : Trap) (w : Wave) (opaque_ : Bool) : DWord :=
  BitVec.ofNat 64 (t.vector + w.arch.mode.code * 2 ^ 3 + (if t.whole then 2 ^ 5 else 0) + (if t.boundary then 2 ^ 6 else 0) +
    (if opaque_ then 2 ^ 7 else 0) + (if w.arch.ddepth then 2 ^ 8 else 0) + (if w.replay.isSome then 2 ^ 9 else 0))

/-- The supervisor's registers written at entry (R428, R437). -/
def Wave.saveTrap (v : Wave) (t : Trap) (opaque_ : Bool) (epc : DWord) : Wave :=
  { v with arch := { v.arch with estat := estatOf t v opaque_, epc := epc, emask := t.mask, ecause := t.causes,
                                 eaddr := t.addrs } }

/-- The first cause code of a trap. -/
def Trap.code (t : Trap) : Nat :=
  ((t.causes.find? fun c => vectorOf (c.2.toNat % 256) == t.vector).map fun c => c.2.toNat % 256).getD 0

/-- The supervisor level of trap entry (R427, R428): the entry pushed, the registers written, the depth and mode changed;
a push that fails, or a vector that is no clause header of the supervisor section, goes to the hypervisor level. -/
def State.enterSupervisor (s : State) (t : Trap) (m w : DWord) : State :=
  let v := s.wave
  let target := v.arch.evec + BitVec.ofNat 64 (64 * t.vector)
  if v.env.isHeader Section.isSupervisor target = false then s.enterHyper t 0x43 0 m w
  else
    let fer := v.env.ferry
    let b := s.freeBlock v.slotNo
    let blk : OpaqueBlock :=
      { slotNo := v.slotNo, home := v.slotNo, block := b, m := m, w := w, emask := t.mask, ecause := [], eaddr := [], mode := v.arch.mode,
        hyper := false }
    let e := if fer then handleOf v.slotNo b else w
    match s.push m e with
    | .error _ => s.enterHyper t 0x42 t.code m w
    | .ok s =>
      let s := if fer then { s with hub := { s.hub with blocks := s.hub.blocks ++ [blk] } } else s
      let v := s.wave.saveTrap t fer e
      { s with wave := { v with arch := { v.arch with sdepth := v.arch.sdepth + 1, mode := .supervisor, exm := t.mask },
                                pos := .at target } }

/-- The delegated level (R427, R436): taken only if both entries can be pushed. -/
def State.enterDelegated (s : State) (t : Trap) (m w : DWord) : Option State :=
  let v := s.wave
  if t.vector = 4 ∧ v.arch.mode = .user ∧ v.arch.fpc.getLsbD 14 = true ∧ v.arch.ddepth = false ∧ v.env.ferry = false ∧
      v.env.isHeader Section.isCode v.arch.uhtv = true then
    match s.push t.mask t.fpSets with
    | .error _ => none
    | .ok s1 =>
      match s1.push m w with
      | .error _ => none
      | .ok s2 =>
        let v := s2.wave.saveTrap t false w
        some { s2 with wave := { v with arch := { v.arch with ddepth := true, exm := t.mask },
                                        pos := .at v.arch.uhtv } }
  else none

/-- How many handlers a wave is in that RETT ends one by one: its supervisor depth, and one more in hypervisor mode (R432, R440). -/
def Arch.level (a : Arch) : Nat := a.sdepth + if a.mode = .hypervisor then 1 else 0

/-- Whether the push of trap entry leaves the VI's allocations (R489, log entry 124). -/
def State.pushBreaks (s : State) : Bool :=
  match s.reach .write 0 s.wave.arch.rvsp 16 with
  | .error c => c == causePartition
  | .ok _ => false

/-- Trap entry (R427, R428): `w` is the resume word; the handler's first clause starts 12 core cycles later. In hypervisor mode the wave
stops instead (R447). -/
def State.enterTrap (s : State) (t : Trap) : State :=
  let v := s.wave
  let w := v.resumePoint
  if v.arch.mode = Mode.hypervisor then
    ({ s with wave := { v with status := .stopped, hints := [], pending := none } }).tell (.waveStopped ⟨v.core, v.slot⟩)
  else
    let m := v.replay.getD v.exm
    let sd := v.arch.sdepth
    let wd := v.svStart
    let s1 :=
      match s.enterDelegated t m w with
      | some s' => s'
      | none =>
        match t.hvc with
        | some _ => s.enterHyper t 0x40 0 m w
        | none =>
          if v.arch.mode = Mode.user ∨ sd < 3 then s.enterSupervisor t m w
          else s.enterHyper t 0x41 t.code m w
    let v := s1.wave
    let watch := decide (t.code = 0x28) && wd.isNone
    let u : State := { s1 with wave :=
        { v with status := .ready, hints := [], replay := none, badResume := none, fellX := false, pending := none,
                 issued := false, fenceAt := none, svStart := if watch then some s.now else wd,
                 svDepth := if watch then v.arch.level else v.svDepth, entryDue := true, readySince := s.now + 12 } }
    if s.pushBreaks then u.freeze v.env.vi 2 else u

/-- What stands of an instruction some of whose lanes trap: what the others have done (R83, R299); in hypervisor mode, where the group
has no effect, nothing (R447). -/
def State.partly (s s1 : State) : State := if s.wave.arch.mode = .hypervisor then s else s1

/-- A lookout ends: it leaves nothing behind (R145). -/
def Wave.endLookout (w : Wave) : Wave :=
  { w with status := .absent, lookoutOf := none, ll := [], hints := [], entries := [], pending := none }

/-- A trap cause of a lookout ends it (R145). A trap is taken: at once when every long-latency instruction can complete, else when it has (R158, R428). -/
def State.takeTrap (s : State) (t : Trap) : State :=
  let w := s.wave.finishAll
  if w.lookoutOf.isSome then { s with wave := s.wave.endLookout }
  else if w.ll.isEmpty then ({ s with wave := w } : State).enterTrap t
  else { s with wave := { w with pending := some t } }

/-- A trap is taken and the instruction ends for its lanes. -/
def State.trap (s : State) (t : Trap) : Out := .next (s.takeTrap t)

/-- A whole-wave trap of a code without address or detail. -/
def State.trapCode (s : State) (code : Nat) : Out := s.trap (s.wave.wholeTrap (BitVec.ofNat 32 code) none)

/-- A trap of an access that breaks the VI's allocation: the VI freezes with cause 2 in the same step, and the trap is kept
until the monitor resumes the VI (R489); a lookout ends instead (R145). -/
def State.trapBreach (s : State) (t : Trap) : Out :=
  if s.wave.lookoutOf.isSome then .next (({ s with wave := s.wave.endLookout } : State).freeze s.wave.env.vi 2)
  else .next (({ s with wave := { s.wave with pending := some t } } : State).freeze s.wave.env.vi 2)

/-- A whole-wave trap of an address cause (R489 for a breach of the allocation). -/
def State.trapAddr (s : State) (code : Nat) (acc : Access) (a : DWord) : Out :=
  let t := s.wave.wholeTrap (causeWord code acc) (some a)
  if code = causePartition then s.trapBreach t else s.trap t

/-- A capability denial of an instruction (R31, R97): a permission trap, and the VI freezes with cause 1. -/
def State.denied (s : State) : Out :=
  .next ((s.takeTrap (s.wave.wholeTrap (causeWord causePermission .read) none)).freeze s.wave.env.vi 1)

/-- The checks that come before an instruction's effect (R156, R160, R161, R164, R421), then the effect; an instruction that a lookout may not execute ends it (R145). -/
def State.group (s : State) (f : Form) (k : Hints → Out) : Out :=
  match f.refuses s.wave with
  | some c => s.trapCode c
  | none =>
    if s.wave.lookoutOf.isSome ∧ f.lookout = false then .next { s with wave := s.wave.endLookout }
    else k s.wave.group

end Sys2Proof.Machine
end

