-- ==== Sys2Proof/Machine/Flags.lean ====
section
/-!
DEFINITION. Every flag computation: `fpc` and its overrides (R76, R77), the sticky flags and the floating-point trap of a
lane (R82, R83), and the two ways in which an instruction of chapter 07 writes its lanes (R184, R185, R200).
-/
namespace Sys2Proof.Machine

/-- FTZ, SAT, RM and TRAPEN of `fpc` (R76). -/
def fpcFtz (x : DWord) : Bool := x.getLsbD 13
def fpcSat (x : DWord) : Bool := x.getLsbD 12
def fpcRm (x : DWord) : Rm := .decode (bitsN x.toNat 11 10)
def fpcTrapEn (x : DWord) : FpFlags := BitVec.ofNat 5 (bitsN x.toNat 9 5)

/-- Rounding, saturation and flushing for one instruction: `fpc` with the overrides of HMOD (R77, R168, R187). -/
def Wave.fpEnv (w : Wave) (h : Hints) : FpEnv :=
  { rm := match h.rm with
      | some r => .decode r
      | none => fpcRm w.arch.fpc,
    sat := match h.sat with
      | some b => b == 1
      | none => fpcSat w.arch.fpc,
    ftz := fpcFtz w.arch.fpc }

/-- A lane's result and the flags that its operation raises. -/
structure LaneRes where
  out : Word
  flags : FpFlags
  deriving DecidableEq, Repr

/-- The values of `f` written in lane l of vector register d, for each lane of a list (R184). -/
def Wave.writeLanes (w : Wave) (d : Nat) (f : Nat → Word) (ls : List Nat) : Wave :=
  ls.foldl (fun w l => w.setV d l (f l)) w

/-- The same for 64-bit values in the pair at d (R185). -/
def Wave.writePairs (w : Wave) (d : Nat) (f : Nat → DWord) (ls : List Nat) : Wave :=
  ls.foldl (fun w l => w.setPair d l (f l)) w

/-- The bits of a predicate for the lanes of a list; the other bits are kept (R214, R215). -/
def Wave.writePred (w : Wave) (d : Nat) (f : Nat → Bool) (ls : List Nat) : Wave :=
  w.setPred d ((w.pred d &&& ~~~(maskOf ls)) ||| maskOf (ls.filter f))

/-- The lanes that trap: a raised flag is enabled (R83). -/
def Wave.fpBad (w : Wave) (fl : Nat → FpFlags) : List Nat :=
  w.active.filter fun l => decide (fl l &&& fpcTrapEn w.arch.fpc ≠ 0)

/-- The lanes that complete (R83). -/
def Wave.fpGood (w : Wave) (fl : Nat → FpFlags) : List Nat :=
  w.active.filter fun l => decide (fl l &&& fpcTrapEn w.arch.fpc = 0)

/-- The union of the flags of some lanes. -/
def flagsOf (fl : Nat → FpFlags) (ls : List Nat) : FpFlags := ls.foldl (fun f l => f ||| fl l) 0

/-- The cause word of a floating-point trap (R425). -/
def fpCause (f : FpFlags) : Word := BitVec.ofNat 32 (0x20 + f.toNat * 2 ^ 8)

/-- The end of a floating-point instruction (R83, R200): the good lanes write, by `put`, and their flags enter FLAGS; the
others form a floating-point trap. -/
def State.fpEnd (s : State) (fl : Nat → FpFlags) (put : Wave → List Nat → Wave) : Out :=
  let w := s.wave
  let good := w.fpGood fl
  let bad := w.fpBad fl
  let w' := (put w good).raise (flagsOf fl good)
  let s' := { s with wave := w' }
  if bad.isEmpty then s'.done
  else (s.partly s').trap (laneTrap (bad.map fun l => (l, fpCause (fl l), none)))

/-- A vector floating-point instruction: `res l` is lane l's result (R200). -/
def State.fpLanes (s : State) (d : Nat) (res : Nat → LaneRes) : Out :=
  s.fpEnd (fun l => (res l).flags) fun w ls => w.writeLanes d (fun l => (res l).out) ls

/-- A vector instruction without flags: `f l` is lane l's result (R184). -/
def State.vecLanes (s : State) (d : Nat) (f : Nat → Word) : Out :=
  ({ s with wave := s.wave.writeLanes d f s.wave.active } : State).done

/-- The same with 64-bit lane results (R185, R198). -/
def State.pairLanes (s : State) (d : Nat) (f : Nat → DWord) : Out :=
  ({ s with wave := s.wave.writePairs d f s.wave.active } : State).done

/-- A scalar-class instruction that writes one scalar (R184). -/
def State.scalarResult (s : State) (d : Nat) (x : DWord) : Out :=
  ({ s with wave := s.wave.setS d x } : State).done

/-- A long-latency vector instruction with known results: each good lane's element is written when it completes, with the
flags (R153, R154, R187). -/
def State.fpLong (s : State) (d : Nat) (res : Nat → LaneRes) : Out :=
  let ls := s.wave.active
  let ws := ls.map (fun l => RegWrite.vec d l (res l).out) ++
    (if ls.isEmpty then [] else [RegWrite.flags (flagsOf (fun l => (res l).flags) ls)])
  (s.issueLong 0 ws).done

end Sys2Proof.Machine
end

