-- ==== Sys2Proof/Machine/Fetch.lean ====
section
/-!
DEFINITION. Reading clauses (R44, R45, R147 to R150): which section an address lies in, the words of a clause, the groups of
a clause (R164, R490), and whether an address can be decoded at all (R46).
-/
namespace Sys2Proof.Machine

/-- Whether an address is decoded as a faulting address under R46. -/
def State.undecodable (s : State) (e : Env) (a : DWord) : Bool :=
  let n := a.toNat % 2 ^ 61
  match spaceOf a with
  | 0 => if n < 2 ^ 60 then decide (e.privLane ≤ n) else decide (e.privWave ≤ n - 2 ^ 60)
  | 1 => decide (2 ^ 22 ≤ n)
  | 2 => decide (2 ^ 48 ≤ n)
  | 3 => decide (2 ^ 44 ≤ n) || (s.viewOf e.vi (n / 2 ^ 40)).isNone
  | _ => true

def Section.isSegment (x : Section) : Bool := x.kind == 2
def Section.isLookout (x : Section) : Bool := x.kind == 4
def Section.runs (x : Section) : Bool := decide (1 ≤ x.kind ∧ x.kind ≤ 4)

/-- The section of instructions that holds an address (R45). -/
def Env.sectionAt (e : Env) (a : DWord) : Option Section :=
  e.sections.find? fun x => x.runs && decide (e.image.toNat + x.off ≤ a.toNat ∧ a.toNat < e.image.toNat + x.off + x.size)

/-- Whether an address lies in the partition monitor's region (R420, R421, log entry 5). -/
def inMonitor (a : DWord) : Bool :=
  decide (Config.monitorEntry.toNat ≤ a.toNat ∧ a.toNat < Config.monitorEntry.toNat + Config.monitorSize)

/-- Four bytes of a byte list as a word. -/
def wordAt (bs : List Byte) (o : Nat) : Word := BitVec.ofNat 32 (fieldAt bs o 4)

/-- The segment in which an address lies. -/
def Env.segmentOf (e : Env) (a : DWord) : Option Nat :=
  match e.sectionAt a with
  | some x => if x.isSegment then some x.seg else none
  | none => none

/-- Whether an address lies in the segment that the core has pinned (R147). -/
def State.pinned (s : State) (a : DWord) : Bool :=
  match s.wave.env.segmentOf a with
  | some g => s.core.segment == some g
  | none => false

/-- Whether an address lies in the supervisor section. -/
def Env.inSupervisor (e : Env) (a : DWord) : Bool := e.inSection Section.isSupervisor a

/-- The word of an instruction section at an address for the wave looked at: the monitor's own code in hypervisor mode, the
copy of the supervisor section (R43), the pinned segment (R147), else memory under a fetch's translation (R44, R147). -/
def State.codeWord (s : State) (a : DWord) : Except Nat Word :=
  let e := s.wave.env
  if s.wave.arch.mode = .hypervisor then
    if inMonitor a then .ok (BitVec.ofNat 32 (numOf (Cells.readList (w := 8) s.mem (2 ^ 43 + a.toNat) 4)))
    else .error causeTranslation
  else
    match e.sectionAt a with
    | none => .error causeTranslation
    | some x =>
      let o := a.toNat - (e.image.toNat + x.off)
      if x.isSupervisor then
        if s.wave.arch.mode = .user then .error causePermission
        else .ok (wordAt (((s.gridAt e.grid).map (·.svText)).getD []) o)
      else if x.isLookout ∧ s.wave.lookoutOf.isNone then .error causePermission
      else if x.isSegment ∧ e.ferry = true then
        if o + 4 ≤ s.core.segText.length then .ok (wordAt s.core.segText o) else .error causeTranslation
      else (s.places e s.wave.arch.mode .fetch 0 a 4).map fun ps => BitVec.ofNat 32 (numOf (ps.map s.released))

/-- The `n` words from an address on; the first failure with its address. -/
def State.codeWords (s : State) (a : DWord) : Nat → Except (Nat × DWord) (List Word)
  | 0 => .ok []
  | n + 1 =>
    match s.codeWord a with
    | .error c => .error (c, a)
    | .ok w =>
      match s.codeWords (a + 4) n with
      | .error c => .error c
      | .ok ws => .ok (w :: ws)

/-- Whether `n` bytes from an address run past the end of the section (R148). -/
def State.runsPast (s : State) (a : DWord) (n : Nat) : Bool :=
  if s.wave.arch.mode = .hypervisor then
    decide (Config.monitorEntry.toNat + Config.monitorSize < a.toNat + n)
  else
    match s.wave.env.sectionAt a with
    | some x => decide (s.wave.env.image.toNat + x.off + x.size < a.toNat + n)
    | none => true

/-- The clause whose header lies at an address, read afresh (R148). A clause that runs past its section traps for that, whatever its
header (log entry 109). -/
def State.readClause (s : State) (a : DWord) : Except (Nat × DWord) (Word × List Word) :=
  match s.codeWord a with
  | .error c => .error (c, a)
  | .ok h =>
    if s.runsPast a (4 * (hdrLen h + 2)) then .error (causeTranslation, a)
    else
      match s.codeWords (a + 4) (hdrLen h + 1) with
      | .error c => .error c
      | .ok ws => .ok (h, ws)

/-- Whether the clauses at an address are cached by the core's instruction store: the code section, and for a lookout the lookout
section, of a grid that is not in ferry mode (R147). -/
def State.cachedAt (s : State) (a : DWord) : Bool :=
  decide (s.wave.arch.mode ≠ .hypervisor) && !s.wave.env.ferry &&
    match s.wave.env.sectionAt a with
    | some x => x.kind == 1 || (x.isLookout && s.wave.lookoutOf.isSome)
    | none => false

/-- The clause that the core's instruction store has cached for the wave at an address: one that was filled for the image of its grid,
so that a grid accepted later fetches the new words (R44, R147). -/
def State.heldClause (s : State) (a : DWord) : Option StoredClause :=
  if s.cachedAt a then s.core.istore.find? fun c => c.vi == s.wave.env.vi && c.grid == s.wave.env.grid && c.addr == a else none

/-- The clause at an address as the wave will execute it. -/
def State.clauseAt (s : State) (a : DWord) : Except (Nat × DWord) (Word × List Word) :=
  match s.heldClause a with
  | some c => .ok (c.header, c.words)
  | none => s.readClause a

/-! ## Groups of a clause (R164, R490) -/

def isHint (w : Word) : Bool := decide (w.toNat / 2 ^ 26 = 7 ∨ w.toNat / 2 ^ 26 = 8)

/-- The first word of the group that holds word i. -/
def groupStart (ws : List Word) : Nat → Nat
  | 0 => 0
  | i + 1 => if isHint (ws.getD i 0) then groupStart ws i else i + 1

/-- The first word after the group that holds word i; `fuel` bounds the words left. -/
def groupEnd (ws : List Word) (i : Nat) : Nat → Nat
  | 0 => i + 1
  | fuel + 1 => if isHint (ws.getD i 0) then groupEnd ws (i + 1) fuel else i + 1

/-- Where a wave stands when it resumes at a resume word (R432, R490): at the group named, or, for a return without replay,
after it. A clause that cannot be read yet leaves the point as named; `true` means the fall-through of a clause with X. -/
def State.resumeAt (s : State) (w : DWord) (skip : Bool) : Position × Bool :=
  let a := resumeAddr w
  let named : Position := { pc := a, header := 0, words := [], ridx := resumeIdx w, mid := resumeMid w, skip := skip }
  match s.clauseAt a with
  | .error _ => (named, false)
  | .ok (h, ws) =>
    if (resumeMid w = false ∧ resumeIdx w ≠ 0) ∨ ws.length ≤ resumeIdx w then (named, false)
    else if skip then
      let n := groupEnd ws (resumeIdx w) 16
      if ws.length ≤ n then (.at (fallThrough a h), hdrX h)
      else ({ named with ridx := n, mid := resumeMid w, skip := false }, false)
    else ({ named with ridx := groupStart ws (resumeIdx w) }, false)

/-- Whether a resume word names a point of a clause that can be read now, with an index that R490 allows. -/
def State.resumes (s : State) (w : DWord) : Bool :=
  match s.clauseAt (resumeAddr w) with
  | .error _ => false
  | .ok (_, ws) => decide (resumeIdx w < ws.length ∧ (resumeMid w = true ∨ resumeIdx w = 0))

end Sys2Proof.Machine
end

