-- ==== Sys2Proof/Machine/Caches.lean ====
section
/-!
DEFINITION. The levels of the memory hierarchy (R271 to R279, R283): where a line's home is, which lines the caches hold, and what an
access leaves in them. The caches hold no bytes of their own: every copy reflects the one order of writes to its line (R276), which is
that of `State.mem`.
-/
namespace Sys2Proof.Machine

/-! ## Placement (R272, R273) -/

/-- The HBM stack of a tensor physical address: with one stack unpowered, one of the seven that work. -/
def State.stackOf (s : State) (p : Nat) : Nat :=
  let g := p / 4096
  match s.platform.deadStack with
  | none => (g % 8).xor (g / 512 % 8)
  | some d => ((List.range 8).filter (· != d)).getD (g % 7) 0

/-- The byte within its stack of a tensor physical address. -/
def State.stackByte (s : State) (p : Nat) : Nat :=
  p / 4096 / (if s.platform.deadStack.isSome then 7 else 8) * 4096 + p % 4096

/-- The slice whose number in its sector is the exclusive or of the line number's low nibbles. -/
def lineSlice (n : Nat) : Nat := (n % 16).xor (n / 16 % 16)

/-- The slice that R272 gives a line: from the stack of R272 for tensor memory; host memory has none. -/
def fixedSlice (key : Nat) : Option Nat :=
  let n := key / 128
  if key < 2 ^ 40 then
    let g := key / 4096
    some ((g % 8).xor (g / 512 % 8) / 4 * 48 + n % 3 * 16 + lineSlice n)
  else if isHostKey key then none
  else
    let c := n - 2 ^ 40 / 128
    some (16 * (c % 6) + lineSlice c)

/-- Every pinned line of the package. -/
def State.pinnedLines (s : State) : List PinnedLine := (s.vis.flatMap (·.pins)).flatMap (·.lines)

/-- The home slice of a physical key: its pin window's for a pinned line (R281); the slice in which a line that was pinned still lies,
until its next fill (R281); else as R272 places it. -/
def State.homeSlice (s : State) (key : Nat) : Option Nat :=
  let n := key / 128
  match s.pinnedLines.find? fun x => x.line == n && !x.away with
  | some x => some x.slice
  | none =>
    match s.caches.findSome? fun x => match x.unit with
        | .l2 i => if x.line = n ∧ x.visitor = false then some i else none
        | _ => none with
    | some i => some i
    | none => fixedSlice key

/-! ## Sets and victims (R271, R279) -/

/-- The lines that a set of a unit holds: 8 ways in an L1, 16 in an L2 slice; the organisation of a memory-side cache is not given, and
it is taken as one set of all its 192 MiB (log entry 107). -/
def CacheUnit.ways : CacheUnit → Nat
  | .l1 _ => 8
  | .l2 _ => 16
  | .side _ => 1572864

/-- The set of a line in a unit. -/
def CacheUnit.setOf (u : CacheUnit) (line : Nat) : Nat :=
  match u with
  | .l1 _ => Config.l1Set line % 256
  | .l2 _ => Config.setIndex line % 8192
  | .side _ => 0

/-- The line of a class that has been used least recently; lines stand with the most recently used first. -/
def oldestOf (c : LineClass) (xs : List CachedLine) : Option CachedLine := (xs.filter fun x => decide (x.cls = c)).getLast?

/-- The victim among the unpinned lines of a set: stream class first, then normal, then keep, the least recently used of its class
(R279). -/
def victimOf (xs : List CachedLine) : Option CachedLine :=
  (oldestOf .stream xs).or ((oldestOf .normal xs).or (oldestOf .keep xs))

/-- The pinned lines in a unit. -/
def State.pinnedIn (s : State) (u : CacheUnit) : List PinnedLine :=
  match u with
  | .l2 i => s.pinnedLines.filter (·.slice == i)
  | _ => []

/-- Room for a line in a unit: when no unpinned way of its set is free, the victim leaves. -/
def State.makeRoom (s : State) (u : CacheUnit) (line : Nat) : State :=
  let here := s.caches.filter fun x => decide (x.unit = u)
  let pins := s.pinnedIn u
  if here.length + pins.length < u.ways then s
  else
    let set := here.filter fun x => u.setOf x.line == u.setOf line
    let fixed := pins.filter fun x => u.setOf x.line == u.setOf line
    if set.length + fixed.length < u.ways then s
    else
      match victimOf set with
      | some v => { s with caches := s.caches.filter fun x => !decide (x = v) }
      | none => s

/-! ## Using a line (R275, R277, R278) -/

/-- How an access uses a level: whether it allocates an absent line, with which class, whether it moves a present line into that class,
and whether the copy is a visitor. -/
structure Use where
  alloc : Bool
  cls : LineClass
  moves : Bool
  visitor : Bool

/-- The class of a policy in an L2 slice. -/
def policyClass (policy : Nat) : LineClass :=
  match policy with
  | 1 => .keep
  | 2 => .stream
  | _ => .normal

/-- The use of an L2 slice under a policy. -/
def useL2 (policy : Nat) : Use :=
  { alloc := policy != 3, cls := policyClass policy, moves := policy == 1 || policy == 2, visitor := false }

/-- The use of an L1 by a load, or of a memory-side cache, under a policy: no keep class; a stream line is the next victim. -/
def useSide (policy : Nat) : Use :=
  { alloc := policy != 3, cls := if policy = 2 then .stream else .normal, moves := false, visitor := false }

/-- A line of a unit, when it is there. -/
def State.cachedLine (s : State) (u : CacheUnit) (line : Nat) : Option CachedLine :=
  s.caches.find? fun x => decide (x.unit = u) && x.line == line

/-- Whether a unit holds the sectors of a line. -/
def State.hits (s : State) (u : CacheUnit) (line : Nat) (sectors : BitVec 4) : Bool :=
  match s.cachedLine u line with
  | some x => sectors &&& x.sectors == sectors
  | none => false

/-- A line of a unit is used: the most recent from now on, with its sectors filled; an absent one takes a way if the use allocates. -/
def State.useLine (s : State) (u : CacheUnit) (line : Nat) (sectors : BitVec 4) (h : Use) : State :=
  match s.cachedLine u line with
  | some x =>
    let y := { x with sectors := if h.alloc then x.sectors ||| sectors else x.sectors, cls := if h.moves then h.cls else x.cls }
    { s with caches := y :: s.caches.filter fun z => !(decide (z.unit = u) && z.line == line) }
  | none =>
    if h.alloc then
      let t := s.makeRoom u line
      { t with caches := { unit := u, line := line, sectors := sectors, cls := h.cls, visitor := h.visitor } :: t.caches }
    else s

/-- The slice of a core's own sector with the slice number of another slice. -/
def visitorSlice (core slice : Nat) : Nat := sectorOf core * 16 + slice % 16

/-- The stack of a key is reached: its memory-side cache is used; control memory has none. -/
def State.useStack (s : State) (key : Nat) (sectors : BitVec 4) (policy : Nat) : State :=
  if key < 2 ^ 40 then s.useLine (.side (s.stackOf key)) (key / 128) sectors (useSide policy) else s

/-- Whether a line is pinned in a slice with its data. -/
def State.pinnedHere (s : State) (line : Nat) : Bool := s.pinnedLines.any fun x => x.line == line && !x.away

/-- The home slice of a line is used; when it does not hold the sectors, the stack is reached too. A pinned line is served by its
slice. -/
def State.useHome (s : State) (key : Nat) (sectors : BitVec 4) (policy : Nat) : State :=
  match s.homeSlice key with
  | none => s
  | some i =>
    if s.pinnedHere (key / 128) then s
    else
      let t := if s.hits (.l2 i) (key / 128) sectors then s else s.useStack key sectors policy
      t.useLine (.l2 i) (key / 128) sectors (useL2 policy)

/-- A load of a core reaches the slices: a visitor copy serves it, else the home slice, which may leave a visitor copy in the core's own
sector (R275; in this model it does, log entry 107). -/
def State.useSlices (s : State) (core key : Nat) (sectors : BitVec 4) (policy : Nat) : State :=
  let n := key / 128
  match s.homeSlice key with
  | none => s
  | some i =>
    let near := visitorSlice core i
    if near = i ∨ s.pinnedHere n = true then s.useHome key sectors policy
    else if s.hits (.l2 near) n sectors then s.useLine (.l2 near) n sectors { useL2 policy with visitor := true }
    else
      let t := s.useHome key sectors policy
      if policy < 2 then t.useLine (.l2 near) n sectors { useL2 policy with visitor := true } else t

/-- The sector of a key within its line. -/
def sectorBit (key : Nat) : BitVec 4 := BitVec.ofNat 4 (2 ^ (key % 128 / 32))

/-- Whether a place lies in the cached hierarchy: tensor and control memory of the domain, not a local store nor host memory. -/
def Place.cacheKey : Place → Option Nat
  | .mem k => if isHostKey k then none else some k
  | .store _ _ => none

/-- A load of the core looked at reads a sector: its L1 serves it, or is filled from the slices (R277, R278). -/
def State.readSector (policy : Nat) (s : State) (k : Nat) : State :=
  let u : CacheUnit := .l1 s.core.id
  let t := if s.hits u (k / 128) (sectorBit k) then s else s.useSlices s.core.id k (sectorBit k) policy
  t.useLine u (k / 128) (sectorBit k) (useSide policy)

/-- The first bytes of the sectors of some places. -/
def sectorsOf (ps : List Place) : List Nat := (ps.filterMap fun p => p.cacheKey.map fun k => k / 32 * 32).eraseDups

/-- The caches after a load of the core looked at has read some places. -/
def State.readThrough (s : State) (policy : Nat) (ps : List Place) : State := (sectorsOf ps).foldl (State.readSector policy) s

/-- Whether a load of the core looked at finds a place's sector in its L1; what is in no cache is never filled. -/
def State.inL1 (s : State) (p : Place) : Bool :=
  match p.cacheKey with
  | some k => s.hits (.l1 s.core.id) (k / 128) (sectorBit k)
  | none => true

/-- A store or an atomic removes every visitor copy and every L1 copy of its line in other cores before it completes (R275); the L1 of
the core that wrote, if any, keeps its copy (R277). -/
def State.dropCopies (s : State) (core : Option Nat) (line : Nat) : State :=
  { s with caches := s.caches.filter fun x => !(x.line == line &&
      match x.unit with
      | .l1 c => some c != core
      | _ => x.visitor) }

/-- Every copy of a line leaves the package. -/
def State.dropLine (s : State) (line : Nat) : State := { s with caches := s.caches.filter (·.line != line) }

/-- A sector is written: the other copies go, and the home slice is used under the policy of the store; with the no-allocate policy an
absent line is written at its stack (R277, R278). -/
def State.writeSector (core : Option Nat) (policy : Nat) (s : State) (k : Nat) : State :=
  (s.dropCopies core (k / 128)).useHome k (sectorBit k) policy

/-- The caches after a write to some places by a core, or by an engine, a keeper, a peer or the host. -/
def State.writeThrough (s : State) (core : Option Nat) (policy : Nat) (ps : List Place) : State :=
  (sectorsOf ps).foldl (State.writeSector core policy) s

/-- The caches after an engine, a keeper or a peer has read some places: no L1 and no visitor copy (R275). -/
def State.homeReads (s : State) (policy : Nat) (ps : List Place) : State :=
  (sectorsOf ps).foldl (fun s k => s.useHome k (sectorBit k) policy) s

/-- A prefetch brings the sectors of a line into a level: 0 the L1 of a core, 1 its home slice, 2 the memory-side cache (R283, R318,
R319). -/
def State.bring (s : State) (core level policy key : Nat) : State :=
  match level with
  | 0 => (s.useSlices core key 0xF policy).useLine (.l1 core) (key / 128) 0xF (useSide policy)
  | 1 => s.useHome key 0xF policy
  | _ => s.useStack key 0xF policy

end Sys2Proof.Machine
end

