-- ==== Sys2Proof/Machine/Crc.lean ====
section
/-!
DEFINITION. The CRC-32C of fabric packets and of training records (R355, R360), over their bytes. The spec names the code and not its
parameters, which are the standard's (log entry 117).
-/
namespace Sys2Proof.Machine

/-- `n` bits of CRC-32C, reflected, with polynomial 0x1EDC6F41. -/
def crcBits : Nat → Word → Word
  | 0, c => c
  | n + 1, c => crcBits n (if c.getLsbD 0 then (c >>> 1) ^^^ 0x82F63B78 else c >>> 1)

/-- CRC-32C of a list of bytes: the initial value and the final exclusive-or are all ones. -/
def crc32c (bs : List Byte) : Word := ~~~(bs.foldl (fun c b => crcBits 8 (c ^^^ b.setWidth 32)) (BitVec.allOnes 32))

/-- A list of bytes with zeros behind it, cut to a length. -/
def padTo (n : Nat) (bs : List Byte) : List Byte := (bs ++ List.replicate (n - bs.length) 0).take n

/-- Bytes 0x00 to 0x3B of a packet's header (R355). -/
def headerBytes (p : FabPacket) : List Byte :=
  bytesOf 1 (p.vc + (if p.relayed then 8 else 0) + 16 * p.flits + (if p.top then 128 else 0)) ++ bytesOf 1 (p.src + 16 * p.dst) ++
    bytesOf 1 p.op ++ bytesOf 1 p.vi ++ bytesOf 4 p.seq ++ bytesOf 2 p.asid ++
    bytesOf 2 (p.strmCore + p.strmSlot * 2 ^ 9 + p.strm * 2 ^ 14) ++ bytesOf 4 p.len ++ bytesOf 8 p.addr ++ bytesOf 8 p.tag ++
    padTo 28 (p.opnd.flatMap fun x => bytesOf 8 x.toNat)

/-- The end-to-end CRC of a packet: over its header and every payload flit (R355). -/
def packetCrc (p : FabPacket) : Word := crc32c (headerBytes p ++ padTo (64 * p.flits) p.payload)

/-- A packet with its CRC. -/
def sealPacket (p : FabPacket) : FabPacket := { p with crc := packetCrc p }

/-- Bytes 0x00 to 0x1B of a training record (R360). -/
def recordHead (r : CapRecord) : List Byte :=
  bytesOf 1 r.pkg ++ bytesOf 1 r.port ++ bytesOf 1 r.dom ++ bytesOf 1 r.peer ++ bytesOf 1 (r.lanes.toNat + 16 * r.lanesTop.toNat) ++
    bytesOf 1 r.speed ++ bytesOf 1 r.width ++ bytesOf 1 r.laneMap.toNat ++ bytesOf 4 r.attempt ++ bytesOf 16 r.reserved.toNat

/-- The CRC of a training record (R360). -/
def recordCrc (r : CapRecord) : Word := crc32c (recordHead r)

end Sys2Proof.Machine
end

