-- ==== Sys2Proof/Machine/Wire.lean ====
section
/-!
DEFINITION. What the package sends on the fabric (R355 to R359): packets in their sequence, requests with their tags, and
the ordering streams (R369).
-/
namespace Sys2Proof.Machine

/-! ## Message types (R356) -/

def opReadShared : Nat := 0x01
def opReadOwn : Nat := 0x02
def opUpgrade : Nat := 0x03
def opWriteback : Nat := 0x04
def opControlAtomic : Nat := 0x05
def opDataShared : Nat := 0x10
def opDataExclusive : Nat := 0x11
def opCompletion : Nat := 0x12
def opForwardedRead : Nat := 0x13
def opInvalidate : Nat := 0x14
def opAcknowledgement : Nat := 0x15
def opMirrorUpdate : Nat := 0x16
def opMirrorAck : Nat := 0x17
def opTensorRead : Nat := 0x20
def opTensorWrite : Nat := 0x21
def opRemoteAtomic : Nat := 0x22
def opCollectiveData : Nat := 0x23
def opReadData : Nat := 0x30
def opWriteCompletion : Nat := 0x31
def opAtomicResult : Nat := 0x32
def opCollectiveAck : Nat := 0x33
def opFaultRefusal : Nat := 0x34
def opFrozenRefusal : Nat := 0x35
def opSpdm : Nat := 0x40
def opStreamResume : Nat := 0x41
def opStreamAbort : Nat := 0x42
def opSharerRecall : Nat := 0x43
def opLinkState : Nat := 0x44

/-- The virtual channel of a message type (R356): its high digit. -/
def vcOf (op : Nat) : Nat := op / 16

/-- Whether a type is assigned (R356). -/
def opAssigned (op : Nat) : Bool :=
  decide ((1 ≤ op ∧ op ≤ 5) ∨ (0x10 ≤ op ∧ op ≤ 0x17) ∨ (0x20 ≤ op ∧ op ≤ 0x23) ∨ (0x30 ≤ op ∧ op ≤ 0x35) ∨
    (0x40 ≤ op ∧ op ≤ 0x44))

/-- An empty packet of a type for a package. -/
def State.packet (s : State) (dst op : Nat) : FabPacket :=
  { vc := vcOf op, relayed := false, flits := 0, src := s.pkg, dst := dst, op := op, vi := 0, seq := 0, asid := 0,
    strmCore := 0, strmSlot := 0, strm := 0, len := 0, addr := 0, tag := 0, opnd := [], payload := [], poisoned := false,
    port := 0, tagOk := true }

/-- The next sequence number to a package on a virtual channel (R355). -/
def Fabric.nextSeq (f : Fabric) (dst vc : Nat) : Nat :=
  match f.seqOut.find? fun x => x.1 == dst && x.2.1 == vc with
  | some x => x.2.2
  | none => 0

/-- The sequence number used up; it is 32 bits wide. -/
def Fabric.bumpSeq (f : Fabric) (dst vc : Nat) : Fabric :=
  let rest := f.seqOut.filter fun x => !(x.1 == dst && x.2.1 == vc)
  { f with seqOut := (dst, vc, (f.nextSeq dst vc + 1) % 2 ^ 32) :: rest }

/-- Whether a port of the bundle to a package is in the run state (R354, R364). -/
def State.reachable (s : State) (dst : Nat) : Bool :=
  s.fabric.ports.any fun p => p.peer == dst && decide (p.state = .running)

/-- The members of the domain, ascending, but for those lost. -/
def State.members (s : State) : List Nat := (List.range 16).filter fun p => s.isMember p && !s.fabric.lost.contains p

/-- The lowest running port that leads to a package: a sender may choose any (R357). -/
def State.portTo (s : State) (dst : Nat) : Option Port :=
  s.fabric.ports.find? fun p => p.peer == dst && decide (p.state = .running)

/-- The relay for a package (R359): the lowest-indexed member that reports running bundles to both ends. -/
def State.relayFor (s : State) (dst : Nat) : Option Nat :=
  s.members.find? fun r => r != s.pkg && r != dst && s.reachable r &&
    match s.fabric.bundles.find? (·.1 == r) with
    | some x => x.2.contains s.pkg && x.2.contains dst
    | none => false

/-- The 352 bytes of the configuration record (R23). -/
def Platform.recordBytes (p : Platform) : List Byte := Cells.readList p.flash 0 352

def State.portAt (s : State) (n : Nat) : Option Port := s.fabric.ports.find? (·.n == n)
def State.setPort (s : State) (x : Port) : State :=
  { s with fabric := { s.fabric with ports := s.fabric.ports.map fun z => if z.n = x.n then x else z } }

/-- The buffers that a packet takes at the other end of a link: a packet that this package relays takes those of VC4 (R359). -/
def State.bufferOf (s : State) (p : FabPacket) : Nat := if p.src = s.pkg then p.vc else 4

/-- The credits of a port that are used on a channel: the flits that the other end still holds (R358). -/
def State.creditsUsed (s : State) (x : Port) (vc : Nat) : Nat :=
  (x.unacked.filter fun p => s.bufferOf p == vc).foldl (fun n p => n + p.flits + 1) 0

/-- Whether a port has the credits for a packet. -/
def State.hasCredit (s : State) (x : Port) (p : FabPacket) : Bool :=
  decide (s.creditsUsed x (s.bufferOf p) + p.flits + 1 ≤ Config.flitBuffers (s.bufferOf p))

/-- Whether a packet is FINISH or its answer, after which the sender's data key holds (R363, log entry 118). -/
def isFinish (p : FabPacket) : Bool := p.op == opSpdm && p.opnd.getD 0 0 == 1

/-- A packet sent on a port: with its counter, and kept until the other end has acknowledged it (R363, R364). -/
def State.transmit (s : State) (p : FabPacket) (x : Port) : State :=
  let q := { p with port := x.n, ctr := x.txCount }
  let y := { x with txCount := if isFinish p then 0 else x.txCount + 1, unacked := x.unacked ++ [q] }
  ({ s with fabric := { s.fabric with outbox := s.fabric.outbox ++ [q] } } : State).setPort y

/-- An SPDM packet about a step of the exchange (log entry 118): its code and the number of the message in its operands. -/
def State.spdmPacket (s : State) (dst code n : Nat) (payload : List Byte) : FabPacket :=
  { s.packet dst opSpdm with opnd := [BitVec.ofNat 64 code, BitVec.ofNat 64 n], payload := payload }

/-- A packet of this package numbered for its channel (R355). -/
def State.numbered (s : State) (p : FabPacket) : State × FabPacket :=
  let q := { p with seq := s.fabric.nextSeq p.dst p.vc, flits := (p.payload.length + 63) / 64 }
  ({ s with fabric := s.fabric.bumpSeq p.dst p.vc }, q)

/-- The sending key of a port is updated: the other end is told under the old key, and the counter starts anew (R363). -/
def State.updateKey (s : State) (n : Nat) : State :=
  match s.portAt n with
  | none => s
  | some x =>
    let r := s.numbered (s.spdmPacket x.peer 3 x.spdm [])
    let t := r.1.transmit (sealPacket r.2) x
    match t.portAt n with
    | some y => t.setPort { y with keyEpoch := y.keyEpoch + 1, txCount := 0 }
    | none => t

/-- A packet leaves on a port that has credits for it; before its counter would reach the limit, the key is updated (R363). -/
def State.launchOn (s : State) (p : FabPacket) (n : Nat) : State :=
  match s.portAt n with
  | none => s
  | some x =>
    let s := if Config.counterLimit ≤ x.txCount + 2 then s.updateKey n else s
    match s.portAt n with
    | some y => s.transmit p y
    | none => s

/-- A packet placed on a port: it is sent, or waits for credits behind those of its channel that wait (R358). -/
def State.place1 (s : State) (p : FabPacket) (x : Port) : State :=
  if s.hasCredit x p = false ∨ (x.waiting.any fun q => s.bufferOf q == s.bufferOf p) = true then
    s.setPort { x with waiting := x.waiting ++ [p] }
  else s.launchOn p x.n

/-- The packets of a port that have waited for credits, as far as they can leave. -/
def State.promote (s : State) (n : Nat) : List FabPacket → State
  | [] => s
  | p :: ps =>
    match s.portAt n with
    | some x => (s.place1 p x).promote n ps
    | none => s

/-- A packet leaves: on the bundle of its peer, or through a relay (R357, R359); one that no way leads for is dropped, and the
lost-packet rule applies (R373). A packet that is relayed here already goes on as it is, or is dropped. -/
def State.dispatchPacket (s : State) (p : FabPacket) : State :=
  match s.portTo p.dst with
  | some x => s.place1 (if p.src = s.pkg then sealPacket { p with relayed := false } else p) x
  | none =>
    match (if p.src = s.pkg then (s.relayFor p.dst).bind s.portTo else none) with
    | some x => s.place1 (sealPacket { p with relayed := true }) x
    | none => s

/-- A packet sent, in its sequence (R355, R357). -/
def State.post (s : State) (p : FabPacket) : State :=
  let r := s.numbered p
  r.1.dispatchPacket r.2

/-- A management packet sent on one port, in its sequence (R355, R364). -/
def State.sendOn (s : State) (p : FabPacket) (n : Nat) : State :=
  let r := s.numbered p
  match r.1.portAt n with
  | some x => r.1.place1 (sealPacket r.2) x
  | none => s

/-- A response to a request packet, with its tag. -/
def State.answer (s : State) (q : FabPacket) (op : Nat) (payload : List Byte) (poisoned : Bool) : State :=
  s.post { s.packet q.src op with tag := q.tag, vi := q.vi, asid := q.asid, strmCore := q.strmCore, strmSlot := q.strmSlot,
                                  strm := q.strm, len := q.len, addr := q.addr, payload := payload, poisoned := poisoned }

/-- Whether a stream of this package is frozen, by whichever home (R369). -/
def State.streamFrozen (s : State) (core slot strm : Nat) : Bool :=
  s.fabric.frozen.any fun x => x.core == core && x.slot == slot && x.strm == strm

/-- A request sent, or held when its stream is frozen (R369, R373): `op`, `off`, `len` say what it serves. -/
def State.request (s : State) (p : FabPacket) (op off len : Nat) (control : Bool) : State :=
  let tag := s.ids
  let q := { p with tag := tag }
  let held := s.streamFrozen p.strmCore p.strmSlot p.strm && !control
  let r : Request :=
    { tag := tag, op := op, off := off, len := len, packet := q, sentAt := s.clock.us, held := held, control := control,
      resends := 0 }
  let s := { s with ids := s.ids + 1, fabric := { s.fabric with requests := s.fabric.requests ++ [r] } }
  if held then s else s.post q

/-- The request with a tag. -/
def State.requestAt (s : State) (tag : Nat) : Option Request := s.fabric.requests.find? (·.tag == tag)

/-- A request answered. -/
def State.dropRequest (s : State) (tag : Nat) : State :=
  { s with fabric := { s.fabric with requests := s.fabric.requests.filter (·.tag != tag) } }

/-! ## The mirror of this package's control lines (R365, R367) -/

/-- A directory entry as a mirror update carries it (log entry 32). -/
def Moesi.code : Moesi → Nat
  | .invalid => 0
  | .shared => 1
  | .exclusive => 2
  | .modified => 3
  | .owned => 4

def Moesi.decode : Nat → Moesi
  | 1 => .shared
  | 2 => .exclusive
  | 3 => .modified
  | 4 => .owned
  | _ => .invalid

def DirEntry.word (e : DirEntry) : DWord := BitVec.ofNat 64 (e.st.code + e.owner * 2 ^ 8 + e.sharers.toNat * 2 ^ 16)

def DirEntry.ofWord (line : Nat) (x : DWord) : DirEntry :=
  { line := line, st := .decode (bitsN x.toNat 7 0), owner := bitsN x.toNat 11 8, sharers := BitVec.ofNat 16 (bitsN x.toNat 31 16) }

/-- The key of a line's first byte. -/
def lineKey (line : Nat) : Nat := 2 ^ 40 + 128 * line

def linePlaces (line : Nat) : List Place := (List.range 128).map fun i => .mem (lineKey line + i)

/-- The bytes of a line as this package has them. -/
def State.lineBytes (s : State) (line : Nat) : List Byte := Cells.readList (w := 8) s.mem (lineKey line) 128

def State.linePoison (s : State) (line : Nat) : Bool := (linePlaces line).any fun p => s.poisoned p

/-- The mirror home of this package's lines, while there is one (R365, R474). -/
def State.mirrorPkg (s : State) : Option Nat :=
  let m := s.nextMember s.pkg
  if m = s.pkg ∨ s.fabric.lost.contains m = true then none else some m

/-- A mirror update of a line with new data and its entry (R367). -/
def State.mirrorUpdate (s : State) (m : Nat) (e : DirEntry) (bytes : List Byte) (bad : Bool) (tag : Nat) : FabPacket :=
  { s.packet m opMirrorUpdate with addr := 128 * e.line, len := 128, tag := tag, opnd := [e.word], payload := bytes, poisoned := bad }

/-- A line that this package has written as its home is told to the mirror (R367, log entry 119). -/
def State.mirrorLine (s : State) (line : Nat) : State :=
  match s.mirrorPkg with
  | some m =>
    if homeOf (lineKey line) = s.pkg then
      s.post (s.mirrorUpdate m (s.dirEntry line) (s.lineBytes line) (s.linePoison line) 0)
    else s
  | none => s

/-- The control lines of some places. -/
def controlLines (ps : List Place) : List Nat :=
  (ps.filterMap fun p => match p with
    | .mem k => if 2 ^ 40 ≤ k ∧ k < 2 ^ 41 then some (lineOf k) else none
    | .store _ _ => none).eraseDups

/-- What a write to some places does beside their bytes: the caches follow (R275, R277), and the mirror is told (R367). -/
def State.written (s : State) (core : Option Nat) (policy : Nat) (ps : List Place) : State :=
  (controlLines ps).foldl State.mirrorLine (s.writeThrough core policy ps)

end Sys2Proof.Machine
end

