-- ==== Sys2Proof/Machine/Travel.lean ====
section
/-!
DEFINITION. Ferry departures (R251 to R263): the holders of a segment and the choice of a landing team, overflow areas,
travellers, the end of a wave (R241, R252), and the checks of a taken transfer (R227).
-/
namespace Sys2Proof.Machine

/-! ## The live segment map (R248 to R250, R258) -/

/-- The entry of a segment. -/
def SegmentMap.entry (m : SegmentMap) (seg : Nat) : Option SegmentEntry := m.segs.find? (·.seg == seg)

/-- The holders of a segment: its primary and its valid replicas (R250). -/
def SegmentEntry.holders (x : SegmentEntry) : List Nat := x.primary :: x.replicas

/-- The core of a team of a grid (R245). -/
def Grid.coreOf (g : Grid) (team : Nat) : Option Nat :=
  match (g.reaches.flatMap (·.teams)).find? (·.team == team) with
  | some t => t.cores.head?
  | none => none

/-- The landing occupancy of a core by its latest sample, which is never older than 256 uncore cycles (R258). -/
def Core.occupancy (c : Core) (now : Nat) : Nat := if now ≤ c.occAt + 256 then c.occSample else c.landing.length

/-- The landing occupancy of a team as last sampled. -/
def State.occupancy (s : State) (g : Grid) (team : Nat) : Nat :=
  match g.coreOf team with
  | some c => (s.coreAt c).occupancy s.uncore
  | none => 0

/-- The first team of a list with the least occupancy (R258). -/
def State.leastOf (s : State) (g : Grid) : Nat → List Nat → Nat
  | best, [] => best
  | best, t :: ts => s.leastOf g (if s.occupancy g t < s.occupancy g best then t else best) ts

/-- The landing team of a traveller bound for a segment (R258). -/
def State.landingTeam (s : State) (g : Grid) (seg : Nat) : Option Nat :=
  match g.map with
  | none => none
  | some m =>
    match m.entry seg with
    | none => none
    | some x => some (s.leastOf g x.primary x.replicas)

/-! ## Overflow areas (R262) -/

/-- The address of team j's overflow area. -/
def Env.overflowArea (e : Env) (j : Nat) : DWord := BitVec.ofNat 64 (e.ovfBase + j * e.ovfSize)

/-- The number of travellers that an overflow area holds (R262). -/
def Env.overflowRoom (e : Env) : Nat := (e.ovfSize - 64) / 128

/-- `n` bytes of the VI's memory that the hardware itself reaches on behalf of a grid. -/
def State.hubPlaces (s : State) (e : Env) (acc : Access) (a : DWord) (n : Nat) : Except Nat (List Place) :=
  s.places e .supervisor acc 0 a n

/-- The released number at an address of the VI's memory, when it can be reached. -/
def State.hubRead (s : State) (e : Env) (a : DWord) (n : Nat) : Option Nat :=
  match s.hubPlaces e .read a n with
  | .ok ps => some (numOf (ps.map s.released))
  | .error _ => none

/-- Bytes written at an address of the VI's memory, when it can be reached. -/
def State.hubWrite (s : State) (e : Env) (a : DWord) (bs : List Byte) : Option State :=
  match s.hubPlaces e .write a bs.length with
  | .ok ps => some (((s.setBytes ps bs).clearCovered ps).written none 0 ps)
  | .error _ => none

/-- The travellers written to an area and not taken, counting those that the quarantine holds; none when the area cannot be
reached. -/
def State.overflowCount (s : State) (e : Env) (j : Nat) : Option Nat :=
  let a := e.overflowArea j
  match s.hubRead e a 8, s.hubRead e (a + 8) 8 with
  | some w, some r =>
    let held := (s.core :: s.cores).foldl (fun n c => n + (c.held.filter fun h =>
      match h.kind with
      | .overflow t => t.grid == e.grid && t.team == j
      | _ => false).length) 0
    some (w - r + held)
  | _, _ => none

/-! ## Departing -/

/-- Predicate bits of a lane for p0 to p11 (R252). -/
def Wave.predBits (w : Wave) (l : Nat) : BitVec 12 :=
  BitVec.ofNat 12 ((List.range 12).foldl (fun n p => n + if bitOf (w.pred p) l then 2 ^ p else 0) 0)

/-- The traveller of a lane (R252, R253, R256). -/
def State.traveller (s : State) (t : DWord) (seg : Nat) (live : Nat × Nat) (team l : Nat) : Traveller :=
  let w := s.wave
  { grid := w.env.grid, slot := w.slot, entry := t.toNat - w.env.image.toNat, lmask := BitVec.ofNat 16 live.2, lbase := live.1,
    spawn := false, seg := seg, preds := w.predBits l, src := w.core, team := team,
    regs := (liveRegs live.1 live.2).map fun r => (r, w.v r l), offerAt := 0, departAt := s.now + Config.quarantine,
    age := w.age }

/-- A traveller put in a departure buffer: departures of one core cycle in the order of their waves' ages (R257). -/
def insertTraveller (t : Traveller) (ts : List Traveller) : List Traveller :=
  let later (x : Traveller) : Bool := x.departAt == t.departAt && decide (t.age < x.age)
  ts.takeWhile (!later ·) ++ t :: ts.dropWhile (!later ·)

/-- Whether a core's departure buffer has room: a traveller on the network keeps its place until it is accepted (R257, R261). -/
def State.departureRoom (s : State) (c : Core) : Bool :=
  decide (c.departure.length + (s.net.filter fun t => t.src == c.id).length < 256)

/-- One traveller placed: in the departure buffer, else in the overflow area of its landing team (R252, R261). -/
def State.embark (s : State) (tr : Traveller) : Option State :=
  if s.departureRoom s.core then
    some { s with core := { s.core with departure := insertTraveller tr s.core.departure } }
  else
    match s.overflowCount s.wave.env tr.team with
    | some n => if n < s.wave.env.overflowRoom then some (s.hold (.overflow tr)) else none
    | none => none

/-- The lanes that find no place, with the state after the others have departed (R252). -/
def State.embarkLanes (s : State) (g : Grid) (t : DWord) (seg : Nat) (live : Nat × Nat) : List Nat → State × List Nat
  | [] => (s, [])
  | l :: ls =>
    match s.landingTeam g seg with
    | none => let r := s.embarkLanes g t seg live ls; (r.1, l :: r.2)
    | some j =>
      match s.embark (s.traveller t seg live j l) with
      | some s' => s'.embarkLanes g t seg live ls
      | none => let r := s.embarkLanes g t seg live ls; (r.1, l :: r.2)

/-- The wave ends, once the quarantine has run (R241, R455). -/
def State.endWave (s : State) : State :=
  let s := s.hold .exit
  { s with wave := { s.wave with status := .exiting, hints := [], issued := false } }

/-- A departure to `t` with the live set of the group (R251, R252, R263). -/
def State.depart (s : State) (t : DWord) (h : Hints) : Out :=
  let s := { s with wave := s.wave.finishAll }
  let w := s.wave
  match w.env.segmentOf t with
  | none => s.trapAddr causeTranslation .read t
  | some seg =>
    if w.arch.mode ≠ .user ∧ s.pinned t = false then s.trapAddr causeTranslation .read t
    else if w.ll.isEmpty = false then s.stall
    else
      match s.gridAt w.env.grid with
      | none => s.skip
      | some g =>
        let r := s.embarkLanes g t seg h.live w.active
        if r.2.isEmpty then .next r.1.endWave
        else r.1.trap (laneTrap (r.2.map fun l => (l, BitVec.ofNat 32 0x11, none)))

/-! ## Taken transfers (R227) -/

/-- Rows 1 to 5 of R227: the cause with which a target is refused. -/
def State.targetFault (s : State) (indirect : Bool) (t : DWord) : Option Nat :=
  let e := s.wave.env
  if indirect = true ∧ t.toNat % 4 ≠ 0 then some causeMisaligned
  else if s.undecodable e t then some causeTranslation
  else
    match e.sectionAt t with
    | none => some causeTranslation
    | some x =>
      if x.isSupervisor ∧ s.wave.arch.mode = .user then some causePermission
      else if x.isLookout then some causePermission
      else none

/-- The transfer takes place; CALL writes its return point (R226, R229). -/
def State.jumped (s : State) (t : DWord) (link : Option DWord) : State :=
  let w := match link with
    | some p => s.wave.setS 127 p
    | none => s.wave
  ({ s with wave := w.jump t } : State).aged

/-- A taken transfer to `t` (R227): in hypervisor mode the monitor's region alone is allowed (R421), and a lookout ends when
it leaves the lookout section (R145). -/
def State.transfer (s : State) (h : Hints) (indirect : Bool) (t : DWord) (link : Option DWord) : Out :=
  let w := s.wave
  if w.lookoutOf.isSome then
    if t.toNat % 4 = 0 ∧ w.env.inSection Section.isLookout t = true then .next (s.jumped t link)
    else .next { s with wave := w.endLookout }
  else if w.arch.mode = .hypervisor then
    if (indirect = true ∧ t.toNat % 4 ≠ 0) ∨ inMonitor t = false then s.trapAddr causeTranslation .read t
    else .next (s.jumped t link)
  else
    match s.targetFault indirect t with
    | some c => s.trapAddr c .read t
    | none =>
      if w.env.ferry = true ∧ w.env.inSupervisor t = false ∧ s.pinned t = false then s.depart t h
      else .next (s.jumped t link)

/-- The address of the word that issues (R163). -/
def Wave.wordAddress (w : Wave) : DWord := w.pos.pc + BitVec.ofNat 64 (4 * (w.pos.ridx + 1))

/-- The fall-through address of the clause that issues (R148, R226). -/
def Wave.fall (w : Wave) : DWord := fallThrough w.pos.pc w.pos.header

/-- The target of a B-format transfer: the word's address plus four times the signed offset (R163). -/
def Wave.target {n : Nat} (w : Wave) (o : BitVec n) : DWord := w.wordAddress + BitVec.ofInt 64 (4 * o.toInt)

end Sys2Proof.Machine
end

