-- ==== Sys2Proof/Machine/Control.lean ====
section
/-!
DEFINITION. Control flow: NOP, YIELD, EXIT (R240, R241), the transfers (R225 to R229), the mask instructions (R230 to R232)
and the reconvergence stack (R233 to R238).
-/
namespace Sys2Proof.Machine

/-- NOP (R240). -/
def execNop (s : State) : Out := s.group {} fun _ => s.done

/-- YIELD (R240): the wave becomes the youngest on its core. -/
def execYield (s : State) : Out :=
  s.group { terminal := true } fun _ => ({ s with wave := { s.wave with yieldDue := true, yielded := true } } : State).done

/-- EXIT (R241, R455): the wave keeps its slot until the quarantine has run. -/
def execExit (s : State) : Out := s.group { terminal := true, lookout := false } fun _ => .next s.endWave

/-- What every transfer accepts: HLIVE, and only as the last word of its clause (R156, R169). -/
def transferForm (ss : List Nat) : Form := { live := true, terminal := true, ss := ss }

/-- A transfer on a condition (R226): not taken, it continues at the fall-through clause. -/
def State.branch (s : State) (ss : List Nat) (taken : Bool) (t : DWord) : Out :=
  s.group (transferForm ss) fun h => if taken then s.transfer h false t none else s.done

/-- BR (R226). -/
def execBr (o : BitVec 21) (s : State) : Out := s.branch [] true (s.wave.target o)

/-- CALL (R226, R229): the fall-through address goes to s127. -/
def execCall (o : BitVec 21) (s : State) : Out :=
  s.group (transferForm [127]) fun h => s.transfer h false (s.wave.target o) (some s.wave.fall)

/-- RET (R226). -/
def execRet (a : BitVec 7) (s : State) : Out :=
  s.group (transferForm [a.toNat]) fun h => s.transfer h true (s.wave.s a.toNat) none

/-- JMPR (R226). -/
def execJmpr (a : BitVec 7) (s : State) : Out :=
  s.group (transferForm [a.toNat]) fun h => s.transfer h true (s.wave.s a.toNat) none

/-- BRS.NZ (R226). -/
def execBrsNz (a : BitVec 5) (o : BitVec 19) (s : State) : Out :=
  s.branch [a.toNat] (s.wave.s a.toNat != 0) (s.wave.target o)

/-- BRS.Z (R226). -/
def execBrsZ (a : BitVec 5) (o : BitVec 19) (s : State) : Out :=
  s.branch [a.toNat] (s.wave.s a.toNat == 0) (s.wave.target o)

/-- Whether an active lane has its predicate bit set (R226). -/
def Wave.anyActive (w : Wave) (p : Nat) : Bool := w.pred p &&& w.exm != 0

/-- BRP.ANY (R226). -/
def execBrpAny (p : BitVec 5) (o : BitVec 19) (s : State) : Out :=
  s.branch [] (s.wave.anyActive p.toNat) (s.wave.target o)

/-- BRP.ALL (R226): not taken when no lane is active. -/
def execBrpAll (p : BitVec 5) (o : BitVec 19) (s : State) : Out :=
  s.branch [] (s.wave.exm != 0 && s.wave.pred p.toNat &&& s.wave.exm == s.wave.exm) (s.wave.target o)

/-- BRP.NONE (R226). -/
def execBrpNone (p : BitVec 5) (o : BitVec 19) (s : State) : Out :=
  s.branch [] (!s.wave.anyActive p.toNat) (s.wave.target o)

/-- BEXZ (R226). -/
def execBexz (o : BitVec 21) (s : State) : Out := s.branch [] (s.wave.exm == 0) (s.wave.target o)

/-! ## Masks (R231) -/

/-- MSPLIT (R231): `exm` saved and narrowed. -/
def execMsplit (d a : BitVec 7) (s : State) : Out :=
  s.group { ss := [d.toNat] } fun _ =>
    let w := s.wave
    ({ s with wave := (w.setS d.toNat w.exm).setExm (w.exm &&& w.pred a.toNat) } : State).done

/-- MELSE (R231): the saved lanes whose predicate is clear. -/
def execMelse (a b : BitVec 7) (s : State) : Out :=
  s.group { ss := [a.toNat] } fun _ =>
    let w := s.wave
    ({ s with wave := w.setExm (w.s a.toNat &&& ~~~(w.pred b.toNat)) } : State).done

/-- MJOIN (R231). -/
def execMjoin (a : BitVec 7) (s : State) : Out :=
  s.group { ss := [a.toNat] } fun _ => ({ s with wave := s.wave.setExm (s.wave.s a.toNat) } : State).done

/-- EXMRD (R231). -/
def execExmrd (d : BitVec 7) (s : State) : Out :=
  s.group { ss := [d.toNat] } fun _ => s.scalarResult d.toNat s.wave.exm

/-- EXMWR (R231). -/
def execExmwr (a : BitVec 7) (s : State) : Out :=
  s.group { ss := [a.toNat] } fun _ => ({ s with wave := s.wave.setExm (s.wave.s a.toNat) } : State).done

/-! ## The reconvergence stack (R237) -/

/-- MPUSH (R237): a store, which a lookout may not execute (R145). -/
def execMpush (a b : BitVec 7) (s : State) : Out :=
  s.group { ss := [a.toNat, b.toNat], lookout := false } fun _ =>
    let w := s.wave
    if (w.s b.toNat).toNat % 4 = 3 then s.trapCode 0x01
    else
      match s.push (w.s a.toNat) (w.s b.toNat) with
      | .error x => s.trapAddr x.1 .write x.2
      | .ok s' => s'.done

/-- Whether the stack is empty (R237). -/
def Wave.stackEmpty (w : Wave) : Bool := decide (w.arch.rvsp.toNat % 2 ^ 60 < 16)

/-- MPOP (R236, R237): the mask to sd, the resume word to the next scalar. -/
def execMpop (d : BitVec 7) (s : State) : Out :=
  s.group { ss := [d.toNat, d.toNat + 1] } fun _ =>
    let w := s.wave
    let a := w.arch.rvsp - 16
    if w.stackEmpty then s.trapAddr causeTranslation .read w.arch.rvsp
    else if s.entryBlocked a then (s.entryAsk a).wait
    else
      match s.entryAt a with
      | .error x => s.trapAddr x.1 .read x.2
      | .ok (m, r) =>
        if r.toNat % 4 = 3 then s.trapCode 0x01
        else if r.toNat % 4 = 2 ∧ w.arch.mode ≠ .hypervisor then s.trapCode 0x04
        else ({ s with wave := ((w.setS d.toNat m).setS (d.toNat + 1) r).setRvsp a } : State).done

end Sys2Proof.Machine
end

