-- ==== Sys2Proof/Machine/Capability.lean ====
section
/-!
DEFINITION. The capability table (R95 to R97) and the other tables at `CAPBASE` (log entry 14), and channel-table entries
(R406).
-/
namespace Sys2Proof.Machine

/-- A field of `n` bytes at an offset from `CAPBASE`. -/
def State.tableField (s : State) (v : Vi) (o n : Nat) : Nat := numOf (Cells.readList (w := 8) s.mem (v.ctlKey o) n)

/-- The places of `n` bytes at an offset from `CAPBASE`. -/
def Vi.tablePlaces (v : Vi) (o n : Nat) : List Place := (List.range n).map fun i => .mem (v.ctlKey (o + i))

/-- Bytes written by hardware at an offset from `CAPBASE`. -/
def State.tableWrite (s : State) (v : Vi) (o : Nat) (bs : List Byte) : State :=
  { s with mem := Cells.writeList (w := 8) s.mem (v.ctlKey o) bs }.written none 0 (v.tablePlaces o bs.length)

/-- The first places of the lines that hold `n` bytes at an offset from `CAPBASE`. -/
def Vi.tableLines (v : Vi) (o n : Nat) : List Place :=
  let k := v.ctlKey o
  (List.range ((k + n + 127) / 128 - k / 128)).map fun i => .mem (128 * (k / 128 + i))

/-- Whether hardware can use some bytes of a table now: their control lines are at hand (R276, R366). -/
def State.tableReady (s : State) (v : Vi) (write : Bool) (o n : Nat) : Bool := (v.tableLines o n).all (s.available write)

/-- The lines of a table for which hardware waits are asked for. -/
def State.tableAsk (s : State) (v : Vi) (write : Bool) (o n : Nat) : State :=
  (v.tableLines o n).foldl (fun s p => s.askFor 0 0 write p) s

/-- A field of the capability table: the old entries while a check uses them (R96), else the entries as they stand. -/
def State.capField (s : State) (v : Vi) (o n : Nat) : Nat :=
  match v.capOld, v.capHeld with
  | true, some old => fieldAt old o n
  | _, _ => s.tableField v o n

/-- Whether entry `i` grants a right on an object to a requester of a mode (R95, R96). -/
def State.capGrants (s : State) (v : Vi) (mode : Mode) (kind obj right i : Nat) : Bool :=
  let f := fun o n => s.capField v (16 * i + o) n
  decide (f 0 2 = kind ∧ f 2 1 / 2 ^ right % 2 = 1 ∧ f 2 1 < 64 ∧ f 3 1 ≤ 2 ∧ f 3 1 ≤ mode.code ∧ f 4 4 = obj ∧ f 8 8 = 0)

/-- Whether some entry grants a right (R96). -/
def State.granted (s : State) (vi : Nat) (mode : Mode) (kind obj right : Nat) : Bool :=
  match s.viAt vi with
  | none => false
  | some v => (List.range (min (s.capField v 0 4) 4095)).any fun i => s.capGrants v mode kind obj right (i + 1)

/-- Whether entry `i` grants a right on tensor descriptors: kind 4, object 0 (R60, R95). -/
def State.grantedEntry (s : State) (vi : Nat) (mode : Mode) (right i : Nat) : Bool :=
  match s.viAt vi with
  | none => false
  | some v => decide (1 ≤ i ∧ i ≤ min (s.capField v 0 4) 4095) && s.capGrants v mode 4 0 right i

/-! ## Channel tables (R406) -/

def chValid (e : DWord) : Bool := e.getLsbD 63
def chReceives (e : DWord) : Bool := e.getLsbD 62
def chRoute (e : DWord) : Nat := bitsN e.toNat 61 60
def chStop (e : DWord) : Nat := bitsN e.toNat 59 57
def chEp (e : DWord) : Nat := bitsN e.toNat 56 50
def chDch (e : DWord) : Nat := bitsN e.toNat 49 44
def chDepth (e : DWord) : Nat := bitsN e.toNat 43 40

/-- Whether an entry follows the table of R406. -/
def chLegal (e : DWord) : Bool :=
  decide (e.toNat % 2 ^ 40 = 0) &&
  if chReceives e then
    decide (chRoute e = 0 ∧ chStop e = 0 ∧ chEp e = 0 ∧ chDch e = 0 ∧ 1 ≤ chDepth e ∧ chDepth e ≤ 8)
  else
    decide (chRoute e < 3 ∧ chDepth e = 0 ∧ chEp e < (if chStop e = 3 ∨ chStop e = 7 then 16 else 64))

/-- The sum of the depths of the other valid receive entries. -/
def chDepths (tab : Cells 64) (i : Nat) : Nat :=
  tab.foldl (fun n x => n + if x.1 ≠ i ∧ chValid x.2 = true ∧ chReceives x.2 = true then chDepth x.2 else 0) 0

/-- An entry as a write to it is stored (R406): its reserved bits read as zero (R10). -/
def chStored (tab : Cells 64) (i : Nat) (e : DWord) : DWord :=
  if chValid e = true ∧ (chLegal e = false ∨ (chReceives e = true ∧ 64 < chDepths tab i + chDepth e)) then
    e &&& 0x7FFFFF0000000000
  else e &&& 0xFFFFFF0000000000

/-- A table after a write of entry `i`. -/
def chWrite (tab : Cells 64) (i : Nat) (e : DWord) : Cells 64 := Cells.write tab i (chStored tab i e)

/-- The queued packets after a write of entry `i`: those of a rewritten receive entry are discarded (R406). -/
def chQueue (tab : Cells 64) (i : Nat) (q : List (Nat × ChanPacket)) : List (Nat × ChanPacket) :=
  if chReceives (Cells.read tab i) then q.filter fun x => x.1 != i else q

/-- A write of `chent` on a core (R406). -/
def Core.writeChent (c : Core) (e : DWord) : Core :=
  { c with chtab := chWrite c.chtab c.chsel e, rxq := chQueue c.chtab c.chsel c.rxq }

end Sys2Proof.Machine
end

