-- ==== Sys2Proof/Machine/Pins.lean ====
section
/-!
DEFINITION. Pin windows (R280 to R282) and ownership regions (R284, R285).
-/
namespace Sys2Proof.Machine

/-- A field of pin window w's entry. -/
def State.pinField (s : State) (v : Vi) (w o n : Nat) : Nat := s.tableField v (0x10400 + 64 * w + o) n

/-- A status field of pin window w written by hardware. -/
def State.pinStatus (s : State) (v : Vi) (w o n x : Nat) : State := s.tableWrite v (0x10400 + 64 * w + o) (bytesOf n x)

/-- `PWPINNED`, `PWDOWN` and `PWSKIP`, then `PWSTATE` last (R281). -/
def State.pinCounts (s : State) (v : Vi) (w pinned down skip st : Nat) : State :=
  (((s.pinStatus v w 0x24 4 pinned).pinStatus v w 0x28 4 down).pinStatus v w 0x2C 4 skip).pinStatus v w 0x20 1 st

/-- The index of this package in a VI's domain view (R52). -/
def State.ownIndex (s : State) (vi : Nat) : Option Nat :=
  match s.viAt vi with
  | none => none
  | some v => (v.view.find? fun x => x.pkg == s.pkg).map (·.ix)

/-- Whether an entry breaks R280. -/
def State.pinBreaks (s : State) (v : Vi) (w : Nat) : Bool :=
  let f := s.pinField v w
  let base := f 0 8
  let size := f 8 8
  !(decide (base / 2 ^ 61 = 3 ∧ base % 2 ^ 61 < 2 ^ 44 ∧ base % 2 ^ 16 = 0 ∧ size % 2 ^ 16 = 0 ∧ 2 ^ 16 ≤ size ∧ size ≤ 2 ^ 30 ∧
      1 ≤ f 0x10 12 ∧ v.desc.asidBase ≤ f 0x1C 2 ∧ f 0x1C 2 < v.desc.asidBase + v.desc.asidCnt ∧
      f 0x1E 2 = 0 ∧ f 0x21 3 = 0 ∧ f 0x30 16 = 0) &&
    s.ownIndex v.vi == some (base / 2 ^ 40 % 16))

/-- Whether the range of window w overlaps another window in state 1 or 2 (R281). -/
def State.pinOverlaps (s : State) (v : Vi) (w : Nat) : Bool :=
  (List.range v.desc.pinWin).any fun u =>
    let st := s.pinField v u 0x20 1
    u != w && (st == 1 || st == 2) &&
      decide (s.pinField v u 0 8 < s.pinField v w 0 8 + s.pinField v w 8 8 ∧
        s.pinField v w 0 8 < s.pinField v u 0 8 + s.pinField v u 8 8)

/-- Lines that were pinned stay in their slices in the normal class (R281, R282). -/
def State.toNormal (s : State) (ls : List PinnedLine) : State :=
  (ls.filter (!·.away)).foldl (fun s x => s.useLine (.l2 x.slice) x.line 0xF (useL2 0)) s

/-- The pinned lines of window w dropped; the status as an unpin command leaves it (R281). -/
def State.unpin (s : State) (v : Vi) (w : Nat) : State :=
  let ls := (v.pins.filter (·.w == w)).flatMap (·.lines)
  ((s.setVi { v with pins := v.pins.filter (·.w != w) }).toNormal ls).pinCounts v w 0 0 0 0

/-- A pin command for a window (R281): it fails, or starts in the background. -/
def State.pinStart (s : State) (v : Vi) (w : Nat) : State :=
  let s := if s.pinField v w 0x20 1 = 2 then s.unpin v w else s
  match s.viAt v.vi with
  | none => s
  | some v =>
    if s.pinBreaks v w then s.pinStatus v w 0x20 1 4
    else if s.pinOverlaps v w then s.pinStatus v w 0x20 1 5
    else
      let s := s.pinCounts v w 0 0 0 1
      s.setVi { v with pins := (v.pins.filter (·.w != w)) ++ [{ w := w, active := true, asid := s.pinField v w 0x1C 2, lines := [] }] }

/-- A value written to `pincmd` (R281): other commands, and a window in state 1 or 3 or at or above `PINWIN`, change
nothing. -/
def State.pinCommand (s : State) (vi : Nat) (x : DWord) : State :=
  let w := bitsN x.toNat 2 0
  let cmd := bitsN x.toNat 5 4
  match s.viAt vi with
  | none => s
  | some v =>
    let st := s.pinField v w 0x20 1
    if v.desc.pinWin ≤ w ∨ st = 1 ∨ st = 3 then s
    else if cmd = 1 then s.pinStart v w
    else if cmd = 2 then s.unpin v w
    else s

/-- What a pin has done so far: the lines pinned, those placed in the keep class, and the counts. -/
structure PinCount where
  lines : List PinnedLine
  keeps : List Nat := []
  down : Nat
  skip : Nat
  deriving DecidableEq, Repr

/-- One line of a pin command (R281): skipped, downgraded to keep, or pinned in its slice. -/
def State.pinLine (s : State) (v : Vi) (w : Nat) (others : List PinnedLine) (slices : List Nat) (c : PinCount) (i : Nat) :
    PinCount :=
  let f := s.pinField v w
  let a := f 0 8 + 128 * i
  match s.translate (agentEnv v.vi (f 0x1C 2) 1024) .supervisor .read (BitVec.ofNat 64 a) with
  | .error _ => { c with skip := c.skip + 1 }
  | .ok key =>
    let sl := slices.getD (i % slices.length) 0
    let line := key / 128
    let held := (c.lines ++ others).filter fun x => x.slice == sl && Config.setIndex x.line == Config.setIndex line
    if v.desc.pinQuota * 8192 ≤ c.lines.length + ((v.pins.filter (·.w != w)).flatMap (·.lines)).length ∨ 12 ≤ held.length then
      { c with down := c.down + 1, keeps := c.keeps ++ [line] }
    else
      { c with lines := c.lines ++
          [{ line := line, slice := sl, vpage := a / 2 ^ 16 * 2 ^ 16, away := s.processorOwns key }] }

/-- The caches after a pin: a pinned line lies in its slice alone, a line downgraded in its home in the keep class (R281). -/
def State.placePins (s : State) (c : PinCount) : State :=
  let gone (x : CachedLine) : Bool := c.lines.any (·.line == x.line) && match x.unit with
    | .l2 _ => true
    | _ => false
  c.keeps.foldl (fun s l => s.useHome (128 * l) 0xF 1) { s with caches := s.caches.filter fun x => !gone x }

/-- The background pin of a window ends: its lines lie in their slices, the counts and then `PWSTATE` are written (R281). -/
def State.pinComplete (s : State) (v : Vi) (w : Nat) : State :=
  let f := s.pinField v w
  let slices := (List.range Config.slices).filter fun i => f 0x10 12 / 2 ^ i % 2 = 1
  let others := s.vis.flatMap fun x => (x.pins.filter fun p => !(x.vi == v.vi && p.w == w)).flatMap (·.lines)
  let c := (List.range (f 8 8 / 128)).foldl (s.pinLine v w others slices) { lines := [], down := 0, skip := 0 }
  let p : PinWindow := { w := w, active := false, asid := f 0x1C 2, lines := c.lines }
  ((s.setVi { v with pins := (v.pins.filter (·.w != w)) ++ [p] }).placePins c).pinCounts v w c.lines.length c.down c.skip 2

/-- Hardware uses the pin table of a VI, or waits for its lines (R276). -/
def State.withPins (s : State) (v : Vi) (k : State → Out) : Out :=
  if s.tableReady v true 0x10400 512 then k s else .next (s.tableAsk v true 0x10400 512)

/-- PINCMD_PIN (R281): a pin command for a window starts. -/
def execPincmdPin (vi w : Nat) (s : State) : Out :=
  match s.viAt vi with
  | none => s.skip
  | some v => s.withPins v fun s => .next (s.pinCommand vi (BitVec.ofNat 64 (w % 8 + 16)))

/-- PINCMD_UNPIN (R281). -/
def execPincmdUnpin (vi w : Nat) (s : State) : Out :=
  match s.viAt vi with
  | none => s.skip
  | some v => s.withPins v fun s => .next (s.pinCommand vi (BitVec.ofNat 64 (w % 8 + 32)))

/-- PIN_WINDOW_COMPLETE (R281): a window that is being pinned becomes pinned. -/
def execPinWindowComplete (vi w : Nat) (s : State) : Out :=
  match s.viAt vi with
  | none => s.skip
  | some v =>
    if v.pins.any (fun p => p.w == w && p.active) then s.withPins v fun s => .next (s.pinComplete v w) else s.skip

/-! ## Ownership regions (R284, R285) -/

/-- The pinned lines of a region when its owner changes: with the processor side they keep their ways without their data (R284, log
entry 62). -/
def PinWindow.turn (p : PinWindow) (region : Nat) (away : Bool) : PinWindow :=
  { p with lines := p.lines.map fun x => if x.line * 128 / 2 ^ 21 = region then { x with away := away } else x }

/-- OWNERSHIP_TRANSFER (R284, R285): a region that the other side waits for, and whose hold has run, changes its owner; the caches of the
side that gives it up keep none of its lines. Every copy is coherent with its home at once, so that writing copies back changes no byte. -/
def execOwnershipTransfer (region : Nat) (s : State) : Out :=
  match s.hub.regions.find? (·.region == region) with
  | none => s.skip
  | some r =>
    if r.wanted = true ∧ r.holdUntil ≤ s.uncore then
      let regs := s.hub.regions.map fun x =>
        if x.region = region then
          { x with accel := !r.accel, wanted := false, holdUntil := s.uncore + Config.ownershipHold }
        else x
      .next { s with hub := { s.hub with regions := regs },
                     vis := s.vis.map fun v => { v with pins := v.pins.map fun p => p.turn region r.accel },
                     caches := s.caches.filter fun x => x.line * 128 / 2 ^ 21 != region }
    else s.skip

/-- OWNERSHIP_HOLD_EXPIRY (R285): the time for which a region stays with its new owner has run. -/
def execOwnershipHoldExpiry (region : Nat) (s : State) : Out :=
  match s.hub.regions.find? (·.region == region) with
  | none => s.skip
  | some r =>
    if r.holdUntil ≤ s.uncore then
      .next { s with hub := { s.hub with regions := s.hub.regions.map fun x =>
        if x.region = region then { x with holdUntil := 0 } else x } }
    else s.skip

end Sys2Proof.Machine
end

