-- ==== Sys2Proof/Machine/System.lean ====
section
/-!
DEFINITION. The system instructions and the privileged registers (R422, R423, R431 to R435, R439, R441, R444 to R446), and
the rows for what a write of a privileged register starts.
-/
namespace Sys2Proof.Machine

/-- SYSC (R434): a lane trap of exactly the active lanes; with none active nothing happens. -/
def execSysc (n : BitVec 21) (s : State) : Out :=
  s.group { lookout := false } fun _ =>
    if s.wave.arch.mode = .hypervisor then s.trapCode 0x01
    else if s.wave.active.isEmpty then s.doneEnd
    else s.trap (laneTrap (s.wave.active.map fun l => (l, BitVec.ofNat 32 (0x30 + n.toNat * 2 ^ 8), none)))

/-- HVC (R435): a whole-wave trap to the hypervisor. -/
def execHvc (n : BitVec 21) (s : State) : Out :=
  s.group { lowest := .supervisor, lookout := false } fun _ =>
    s.trap { s.wave.wholeTrap (BitVec.ofNat 32 0x40) none with hvc := some n.toNat }

/-- BKPT (R441). -/
def execBkpt (n : BitVec 21) (s : State) : Out :=
  s.group { lookout := false } fun _ =>
    if s.wave.arch.mode = .hypervisor then s.trapCode 0x01
    else s.trap (s.wave.wholeTrap (BitVec.ofNat 32 (0x38 + n.toNat * 2 ^ 8)) none)

/-! ## RETT (R432, R490) -/

/-- The opaque block of the wave's slot that a handle names (R433). -/
def State.blockOf (s : State) (h : DWord) : Option OpaqueBlock :=
  if bitsN h.toNat 9 4 = 0 then
    s.hub.blocks.find? fun b => b.home == s.wave.slotNo && b.slotNo == h.toNat / 2 ^ 10 && b.block == bitsN h.toNat 3 2
  else none

/-- The wave continues at resume word `w` with mask `m`, 12 core cycles later; with `replay` the group named issues once under
`rmask & m`. `user` says whether the return itself was executed in user mode. -/
def State.resume (s : State) (m w rmask : DWord) (replay user : Bool) : Out :=
  let r := s.resumeAt w (!replay)
  let v := s.wave.retire.setExm (if replay then rmask &&& m else m)
  let ended := match v.svStart with
    | some _ => decide (v.arch.level < v.svDepth)
    | none => false
  .next ({ s with wave :=
    { v with pos := r.1, fellX := r.2, status := .ready, badResume := if s.resumes w then none else some w,
             replay := if replay then some (m &&& v.lanes) else none,
             svStart := if ended then none else v.svStart, entryDue := true, readySince := s.now + 12,
             stepDue := s.wave.stepDue || (user && v.arch.sstep) } } : State).aged

/-- RETT (R432): the return from a trap. -/
def execRett (r : BitVec 1) (s : State) : Out :=
  s.group { terminal := true } fun _ =>
    let v := s.wave
    let a := v.arch.rvsp - 16
    let replay := r == 1
    let user := decide (v.arch.mode = .user)
    if v.arch.mode = .user ∧ v.arch.ddepth = false then s.trapCode 0x04
    else if v.stackEmpty then s.trapAddr causeTranslation .read v.arch.rvsp
    else if s.entryBlocked a then (s.entryAsk a).stall
    else
      match s.entryAt a with
      | .error x => s.trapAddr x.1 .read x.2
      | .ok (m, w) =>
        let up := v.setRvsp a
        let depth := v.arch.sdepth - 1
        let back := if depth = 0 then Mode.user else Mode.supervisor
        match w.toNat % 4 with
        | 2 =>
          match s.blockOf w with
          | none => s.trapCode 0x04
          | some b =>
            let hub := { s.hub with blocks := s.hub.blocks.filter fun x => decide (x ≠ b) }
            if v.arch.mode = .hypervisor then
              let arch := { up.arch with mode := b.mode }
              ({ s with hub := hub, wave := { up with arch := arch } } : State).resume b.m b.w b.emask replay user
            else
              let arch := { up.arch with sdepth := depth, mode := back }
              ({ s with hub := hub, wave := { up with arch := arch } } : State).resume b.m b.w v.arch.emask replay user
        | 1 =>
          match v.arch.mode with
          | .hypervisor => s.trapCode 0x01
          | .user =>
            if up.stackEmpty then s.trapAddr causeTranslation .read up.arch.rvsp
            else if s.entryBlocked (a - 16) then (s.entryAsk (a - 16)).stall
            else
              match s.entryAt (a - 16) with
              | .error x => s.trapAddr x.1 .read x.2
              | .ok (q, _) =>
                let upp := up.setRvsp (a - 16)
                ({ s with wave := { upp with arch := { upp.arch with ddepth := false } } } : State).resume m w q replay user
          | .supervisor =>
            let arch := { up.arch with sdepth := depth, mode := back }
            ({ s with wave := { up with arch := arch } } : State).resume m w v.arch.emask replay user
        | _ => s.trapCode 0x01

/-! ## Privileged registers (R422) -/

/-- `mstat` (R423). -/
def Arch.mstat (a : Arch) : DWord :=
  BitVec.ofNat 64 (a.mode.code + a.sdepth * 2 ^ 2 + (if a.ddepth then 2 ^ 4 else 0) + (if a.sstep then 2 ^ 5 else 0))

/-- The lowest mode that may read or write a privileged register (R422). -/
def privMode (n : Nat) : Mode := if 0x010 ≤ n then .hypervisor else .supervisor

/-- A scalar privileged register as PRD reads it; a write-only one reads zero (R422). -/
def State.privRead (s : State) (n : Nat) : DWord :=
  let a := s.wave.arch
  match n with
  | 0x000 => a.mstat
  | 0x001 => a.estat
  | 0x002 => a.epc
  | 0x004 => a.emask
  | 0x006 => a.evec
  | 0x007 => a.uhtv
  | 0x008 => a.wdog
  | 0x009 => a.rvsp
  | 0x00B => BitVec.ofNat 64 s.core.chsel
  | 0x00C => Cells.read s.core.chtab s.core.chsel
  | 0x010 => a.hstat
  | 0x011 => a.hepc
  | _ => 0

/-- The registers that a PRD or PWR of register `n` names with field `x`: a vector, an even pair, or a scalar (R422). -/
def privForm (n x : Nat) : Form :=
  if n = 3 then { vs := [x], lookout := true, lowest := .supervisor }
  else if n = 5 then { vs := [x, x + 1], lookout := true, lowest := .supervisor }
  else { ss := [x], lookout := true, lowest := privMode n }

/-- PRD (R422, R431): `ecause` and `eaddr` are written in every lane of the wave. -/
def execPrd (d : BitVec 7) (n : BitVec 12) (s : State) : Out :=
  s.group (privForm n.toNat d.toNat) fun _ =>
    let w := s.wave
    let all := List.range w.env.wavew
    match n.toNat with
    | 3 => ({ s with wave := w.writeLanes d.toNat (fun l => Cells.read w.arch.ecause l) all } : State).done
    | 5 => ({ s with wave := w.writePairs d.toNat (fun l => Cells.read w.arch.eaddr l) all } : State).done
    | k => s.scalarResult d.toNat (s.privRead k)

/-- A privileged register of a wave that has no behaviour of its own takes a value (R422, R423, R233, R9). -/
def Wave.privStore (w : Wave) (n : Nat) (x : DWord) : Option Wave :=
  match n with
  | 0x000 => some { w with arch := { w.arch with sstep := x.getLsbD 5 } }
  | 0x004 => some { w with arch := { w.arch with emask := x &&& w.lanes } }
  | 0x006 => some { w with arch := { w.arch with evec := x &&& 0xFFFFFFFFFFFFFFC0 } }
  | 0x007 => some { w with arch := { w.arch with uhtv := x } }
  | 0x009 => some (w.setRvsp x)
  | _ => none

/-- A write of `tlbinv` (R444): an ASID outside the VI's range traps; else the wave waits for the invalidation. -/
def State.tlbinvWrite (s : State) (x : DWord) : Out :=
  match s.viAt s.wave.env.vi with
  | none => s.trapCode causePermission
  | some v =>
    if v.desc.asidBase ≤ bitsN x.toNat 15 0 ∧ bitsN x.toNat 15 0 < v.desc.asidBase + v.desc.asidCnt then
      .next { s with wave := { s.wave with issued := true, waitInv := some (false, x) } }
    else s.trapCode causePermission

/-- A write of `capinv` (R445). -/
def State.capinvWrite (s : State) (x : DWord) : Out :=
  if x.toNat / 2 ^ 6 ≠ 0 then s.trapCode 0x01
  else .next { s with wave := { s.wave with issued := true, waitInv := some (true, x) } }

/-- PWR (R422, R431, R446): a read-only register traps. -/
def execPwr (a : BitVec 7) (n : BitVec 12) (s : State) : Out :=
  s.group { ss := if n.toNat = 3 ∨ n.toNat = 5 then [] else [a.toNat], vs := (privForm n.toNat a.toNat).vs,
            lowest := privMode n.toNat } fun _ =>
    let x := s.wave.s a.toNat
    let vi := s.wave.env.vi
    match n.toNat with
    | 0x00A =>
      if s.granted vi s.wave.arch.mode 3 (bitsN x.toNat 2 0) 1 then
        match s.viAt vi with
        | some v => if s.tableReady v true 0x10400 512 then (s.pinCommand vi x).done else (s.tableAsk v true 0x10400 512).wait
        | none => s.done
      else s.denied
    | 0x00B => ({ s with core := { s.core with chsel := bitsN x.toNat 5 0 } } : State).done
    | 0x00C => ({ s with core := s.core.writeChent x } : State).done
    | 0x00D => s.tlbinvWrite x
    | 0x012 => s.capinvWrite x
    | k =>
      match s.wave.privStore k x with
      | some w => ({ s with wave := w } : State).done
      | none => s.trapCode 0x04

/-- WDOG (R439). -/
def execWdog (a : BitVec 7) (s : State) : Out :=
  s.group { ss := [a.toNat], lowest := .supervisor } fun _ =>
    let x := s.wave.s a.toNat
    if x.toNat / 2 ^ 48 ≠ 0 then s.trapCode 0x01
    else ({ s with wave := { s.wave with arch := { s.wave.arch with wdog := x } } } : State).done

/-! ## What a write starts -/

/-- A meaning on the wave named, looked at first. -/
def State.onWave (s : State) (r : WaveRef) (k : State → Out) : Out :=
  match s.focus r with
  | some s' => k s'
  | none => s.skip

/-- TLBINV (R444): a wave in supervisor mode or above writes `tlbinv`. -/
def execTlbinv (w : WaveRef) (v : DWord) (s : State) : Out :=
  s.onWave w fun s =>
    if s.wave.arch.mode = .user ∨ s.wave.waitInv.isSome then s.skip else s.tlbinvWrite v

/-- CAPINV (R445): a wave in hypervisor mode writes `capinv`. -/
def execCapinv (w : WaveRef) (v : DWord) (s : State) : Out :=
  s.onWave w fun s =>
    if s.wave.arch.mode ≠ .hypervisor ∨ s.wave.waitInv.isSome then s.skip else s.capinvWrite v

/-- CAPINV_COMPLETE (R96, R445): every kept check of the VI is discarded, and the PWR completes. -/
def execCapinvComplete (w : WaveRef) (s : State) : Out :=
  s.onWave w fun s =>
    match s.wave.waitInv with
    | some (true, x) =>
      let vis := s.vis.map fun v => if v.vi = x.toNat then { v with capHeld := none, capOld := false } else v
      ({ s with vis := vis, wave := { s.wave with waitInv := none } } : State).done
    | _ => s.skip

/-- CHENT_WRITE (R406): channel entry `chsel` of a core. -/
def execChentWrite (core : Nat) (v : DWord) (s : State) : Out := .next (s.setCore ((s.coreAt core).writeChent v))

/-- REGISTER_WRITE (R422, R413): a privileged register of a wave, or bytes of `CPOUT`, that have no behaviour of their own. -/
def execRegisterWrite (t : RegTarget) (v : DWord) (s : State) : Out :=
  match t with
  | .priv r n =>
    match s.waveAt r with
    | none => s.skip
    | some w =>
      if n = 0x00B then
        let c := s.coreAt r.core
        .next (s.setCore { c with chsel := bitsN v.toNat 5 0 })
      else match w.privStore n v with
        | some w' => .next (s.putWave w')
        | none => s.skip
  | .endpoint ep off =>
    if off + 8 ≤ 256 ∧ off % 8 = 0 ∧ s.hub.endpoints.any (·.ep == ep) = true then
      .next { s with hub := { s.hub with endpoints := s.hub.endpoints.map fun e =>
        if e.ep = ep then { e with cpout := Cells.writeList e.cpout off (bytesOf 8 v.toNat) } else e } }
    else s.skip

end Sys2Proof.Machine
end

