-- ==== Sys2Proof/Machine/Channel.lean ====
section
/-!
DEFINITION. Channels (R406 to R413): SEND, RECV, CHPOLL, delivery and its answers, and the control cores' endpoints.
-/
namespace Sys2Proof.Machine

/-! ## The two kinds of endpoint: cores, numbered as `coreid`, and control-core endpoints, from 512 on -/

/-- The ring stop and endpoint number of an endpoint (R15, R406, R413). -/
def chanStop (id : Nat) : Nat := if 512 ≤ id then (if id < 528 then 3 else 7) else 4 * (id / 256) + id / 64 % 4
def chanEp (id : Nat) : Nat := if 512 ≤ id then (id - 512) % 16 else id % 64

/-- The endpoint at a stop. -/
def chanAt (stop ep : Nat) : Nat :=
  if stop = 3 then 512 + ep % 16 else if stop = 7 then 528 + ep % 16 else 256 * (stop / 4) + 64 * (stop % 4) + ep % 64

/-- What both kinds hold. -/
structure ChanSide where
  vi : Option Nat
  tab : Cells 64
  seqs : Cells 32
  rxq : List (Nat × ChanPacket)
  outgoing : List ChanPacket

def Core.chan (c : Core) : ChanSide := { vi := c.vi, tab := c.chtab, seqs := c.chseq, rxq := c.rxq, outgoing := c.outgoing }
def Endpoint.chan (e : Endpoint) : ChanSide :=
  { vi := e.vi, tab := e.chtab, seqs := e.chseq, rxq := e.rxq, outgoing := e.outgoing }

def State.endpointAt (s : State) (e : Nat) : Option Endpoint := s.hub.endpoints.find? (·.ep == e)
def State.setEndpoint (s : State) (e : Endpoint) : State :=
  { s with hub := { s.hub with endpoints := s.hub.endpoints.map fun x => if x.ep = e.ep then e else x } }

def State.chan (s : State) (id : Nat) : ChanSide :=
  if 512 ≤ id then
    match s.endpointAt (id - 512) with
    | some e => e.chan
    | none => (Endpoint.idle 0).chan
  else (s.coreAt id).chan

def State.setChan (s : State) (id : Nat) (x : ChanSide) : State :=
  if 512 ≤ id then
    match s.endpointAt (id - 512) with
    | some e => s.setEndpoint { e with chseq := x.seqs, rxq := x.rxq, outgoing := x.outgoing }
    | none => s
  else
    let c := s.coreAt id
    s.setCore { c with chseq := x.seqs, rxq := x.rxq, outgoing := x.outgoing }

/-- The packets of a channel, in order. -/
def ChanSide.queue (x : ChanSide) (ch : Nat) : List ChanPacket := (x.rxq.filter (·.1 == ch)).map (·.2)

/-- The queue without its head. -/
def dropHead (ch : Nat) : List (Nat × ChanPacket) → List (Nat × ChanPacket)
  | [] => []
  | p :: ps => if p.1 = ch then ps else p :: dropHead ch ps

/-- The takes that the quarantine of a core holds for a channel: their entries give no room (R455). -/
def State.heldTakes (s : State) (id ch : Nat) : Nat :=
  if 512 ≤ id then 0
  else ((s.coreAt id).held.filter fun h =>
    match h.kind with
    | .take c _ => c == ch
    | _ => false).length

/-- Whether a packet has not left the quarantine (R409, R455). -/
def State.heldSend (s : State) (id : Nat) (p : ChanPacket) : Bool :=
  decide (id < 512) && (s.coreAt id).held.any fun h =>
    match h.kind with
    | .send q => q.sch == p.sch && q.seq == p.seq
    | _ => false

/-! ## The way over the ring -/

/-- Whether a message goes counter-clockwise (R414): `route` 0 shortest, 1 clockwise, 2 counter-clockwise. -/
def ringCcw (route src dst : Nat) : Bool :=
  match route with
  | 0 => decide (8 - (dst + 8 - src) % 8 < (dst + 8 - src) % 8)
  | 1 => false
  | _ => true

/-- The ring message of a packet (R415). -/
def ChanPacket.msg (p : ChanPacket) : RingMsg :=
  { cls := 4, hi := false, escape := false, flits := p.flits, dst := p.stop, ccw := ringCcw p.route p.srcStop p.stop,
    org := p.srcStop, vi := p.vi, dep := p.ep, sep := p.srcEp, dch := p.dch, sch := p.sch, seq := p.seq, payload := p.payload }

/-- A message waits at its stop's sources. -/
def State.toRing (s : State) (m : RingMsg) : State :=
  { s with ring := { s.ring with waiting := s.ring.waiting ++ [(m.org, m.sep, m)] } }

/-- The accept or reject of a packet (R412), in the `RSP` class; its payload byte is the model's own (log entry 25). -/
def ringResponse (m : RingMsg) (accept : Bool) : RingMsg :=
  { m with cls := 1, hi := false, escape := false, flits := 0, dst := m.org, ccw := ringCcw 0 m.dst m.org, org := m.dst,
           dep := m.sep, sep := m.dep, payload := [if accept then 1 else 0] }

/-- The first packet of a channel that has not been accepted is offered, when it may be (R412). -/
def State.offer (s : State) (id ch : Nat) : State :=
  let x := s.chan id
  match x.outgoing.find? (·.sch == ch) with
  | none => s
  | some p =>
    if p.offered = true ∨ s.heldSend id p = true ∨ s.uncore < p.offerAt then s
    else
      let out := x.outgoing.map fun q => if q.sch = p.sch ∧ q.seq = p.seq then { q with offered := true } else q
      (s.setChan id { x with outgoing := out }).toRing p.msg

/-! ## SEND, RECV, CHPOLL -/

/-- The packet of a send through an entry (R409). -/
def sendPacket (id : Nat) (x : ChanSide) (ch flits : Nat) (payload : List Byte) : ChanPacket :=
  let e := Cells.read x.tab ch
  { vi := x.vi.getD 0, route := chRoute e, stop := chStop e, ep := chEp e, dch := chDch e, sch := ch, srcStop := chanStop id,
    srcEp := chanEp id, seq := (Cells.read x.seqs ch).toNat, flits := flits, payload := payload, offered := false, offerAt := 0 }

/-- The packet in the outgoing buffer; its sequence number used. -/
def ChanSide.put (x : ChanSide) (p : ChanPacket) : ChanSide :=
  { x with seqs := Cells.write x.seqs p.sch (BitVec.ofNat 32 (p.seq + 1)), outgoing := x.outgoing ++ [p] }

/-- The registers of an n-flit channel operand. -/
def flitRegs (v n : Nat) : List Nat := (List.range n).map (v + ·)

/-- Lanes 0 to 15 of a register as the bytes of a flit (R409). -/
def Wave.flit (w : Wave) (r : Nat) : List Byte := (List.range 16).flatMap fun l => bytesOf 4 (w.v r l).toNat

/-- A permission trap for a channel entry that is not valid or of the other direction (R407). -/
def State.channelFault (s : State) : Out := s.trap (s.wave.wholeTrap (causeWord causePermission .read) none)

/-- SEND (R407 to R409). -/
def execSend (a : BitVec 7) (n : BitVec 2) (c : BitVec 6) (s : State) : Out :=
  let m := n.toNat + 1
  s.group { vs := flitRegs a.toNat m, lookout := false } fun _ =>
    let e := Cells.read s.core.chtab c.toNat
    if s.granted s.wave.env.vi s.wave.arch.mode 2 c.toNat 1 = false then s.denied
    else if chValid e = false ∨ chReceives e = true then s.channelFault
    else if 8 ≤ s.core.outgoing.length then s.wait
    else
      let x := s.core.chan
      let x := { x with vi := some s.wave.env.vi }
      let p := sendPacket s.core.id x c.toNat m ((flitRegs a.toNat m).flatMap s.wave.flit)
      let y := x.put p
      (({ s with core := { s.core with chseq := y.seqs, outgoing := y.outgoing } } : State).hold (.send p)).doneEnd

/-- Whether a wave is stalled at a RECV of a channel (R410). -/
def Wave.receiving (w : Wave) (ch : Nat) : Bool :=
  let x := (w.pos.words.getD w.pos.ridx 0).toNat
  decide (w.status = .stalled ∧ x / 2 ^ 26 = 0x25 ∧ bitsN x 11 9 = 1 ∧ x % 64 = ch)

/-- Whether an older wave of the core waits on the channel (R141 key 3, R410). -/
def State.olderReceiver (s : State) (ch : Nat) : Bool :=
  s.waves.any fun w => w.core == s.wave.core && w.receiving ch && decide (w.age < s.wave.age) && w.stop.isNone

/-- The elements that a RECV of n flits writes (R410). -/
def recvWrites (d n : Nat) (p : ChanPacket) : List RegWrite :=
  (List.range n).flatMap fun j => (List.range 16).map fun l =>
    .vec (d + j) l (if j < p.flits then BitVec.ofNat 32 (fieldAt p.payload (64 * j + 4 * l) 4) else 0)

/-- RECV (R407, R408, R410, R455). -/
def execRecv (d : BitVec 7) (n : BitVec 2) (c : BitVec 6) (s : State) : Out :=
  let m := n.toNat + 1
  s.group { terminal := true, vs := flitRegs d.toNat m, lookout := false } fun _ =>
    let e := Cells.read s.core.chtab c.toNat
    if s.granted s.wave.env.vi s.wave.arch.mode 2 c.toNat 0 = false then s.denied
    else if chValid e = false ∨ chReceives e = false then s.channelFault
    else
      match (s.core.chan.queue c.toNat).head? with
      | none => s.stall
      | some p =>
        if s.olderReceiver c.toNat then s.stall
        else
          let s1 := { s with core := { s.core with rxq := dropHead c.toNat s.core.rxq } }
          ((s1.hold (.take c.toNat p)).issueLong 0 (recvWrites d.toNat m p)).doneEnd

/-- The CHPOLL word of a channel (R411). -/
def ChanSide.pollWord (x : ChanSide) (ch : Nat) : DWord :=
  let e := Cells.read x.tab ch
  if chValid e = false ∨ chReceives e = false then 0x8000000000000000
  else
    let q := x.queue ch
    match q.head? with
    | none => 0
    | some p => BitVec.ofNat 64 (p.srcStop * 2 ^ 25 + p.srcEp * 2 ^ 16 + p.flits * 2 ^ 8 + q.length)

/-- CHPOLL (R407, R411). -/
def execChpoll (d : BitVec 7) (c : BitVec 6) (s : State) : Out :=
  s.group { ss := [d.toNat], lookout := false } fun _ =>
    if s.granted s.wave.env.vi s.wave.arch.mode 2 c.toNat 0 = false then s.denied
    else (s.issueLong 0 [.scal d.toNat (s.core.chan.pollWord c.toNat)]).done

/-! ## Delivery (R412) -/

/-- A message that has left the ring is taken up. -/
def State.takeEjected (s : State) (m : RingMsg) : State :=
  { s with ring := { s.ring with ejected := s.ring.ejected.erase m } }

/-- The packet of a ring message at its destination. -/
def ringPacket (m : RingMsg) : ChanPacket :=
  { vi := m.vi, route := 0, stop := m.dst, ep := m.dep, dch := m.dch, sch := m.sch, srcStop := m.org, srcEp := m.sep, seq := m.seq,
    flits := m.flits, payload := m.payload, offered := false, offerAt := 0 }

/-- CHANNEL_PACKET_ARRIVAL (R412, R413). -/
def execChannelPacketArrival (m : RingMsg) (s : State) : Out :=
  if s.ring.ejected.contains m = false ∨ m.cls ≠ 4 then s.skip
  else
    let s := s.takeEjected m
    let id := chanAt m.dst m.dep
    let x := s.chan id
    let e := Cells.read x.tab m.dch
    if x.vi ≠ some m.vi ∨ chValid e = false ∨ chReceives e = false then .next (s.toRing (ringResponse m true))
    else if (x.queue m.dch).length + s.heldTakes id m.dch < chDepth e then
      .next ((s.setChan id { x with rxq := x.rxq ++ [(m.dch, ringPacket m)] }).toRing (ringResponse m true))
    else .next (s.toRing (ringResponse m false))

/-- The answer that has reached a sender for a packet. -/
def State.answerOf (s : State) (id seq ch : Nat) (accept : Bool) : Option RingMsg :=
  s.ring.ejected.find? fun m => m.cls == 1 && chanAt m.dst m.dep == id && m.sch == ch && m.seq == seq &&
    m.payload == [if accept then 1 else 0]

/-- CHANNEL_ACCEPT (R412): the packet leaves the buffer, and the next of its channel is offered. -/
def execChannelAccept (ep seq ch : Nat) (s : State) : Out :=
  match s.answerOf ep seq ch true with
  | none => s.skip
  | some m =>
    let s := s.takeEjected m
    let x := s.chan ep
    let out := x.outgoing.filter fun q => !(q.sch == ch && q.seq == seq)
    .next ((s.setChan ep { x with outgoing := out }).offer ep ch)

/-- CHANNEL_REJECT (R412): the packet stays, and is not offered for 64 uncore cycles. -/
def execChannelReject (ep seq ch : Nat) (s : State) : Out :=
  match s.answerOf ep seq ch false with
  | none => s.skip
  | some m =>
    let s := s.takeEjected m
    let x := s.chan ep
    let out := x.outgoing.map fun q =>
      if q.sch = ch ∧ q.seq = seq then { q with offered := false, offerAt := s.uncore + 64 } else q
    .next (s.setChan ep { x with outgoing := out })

/-- CHANNEL_REOFFER (R412). -/
def execChannelReoffer (ep seq ch : Nat) (s : State) : Out :=
  match (s.chan ep).outgoing.find? (·.sch == ch) with
  | none => s.skip
  | some p =>
    if p.seq ≠ seq ∨ p.offered = true ∨ s.heldSend ep p = true ∨ s.uncore < p.offerAt then s.skip
    else .next (s.offer ep ch)

/-! ## Control-core endpoints (R413) -/

/-- A send that the endpoint ignores: counted, saturating. -/
def Endpoint.ignore (e : Endpoint) : Endpoint := { e with ignored := min 65535 (e.ignored + 1) }

/-- CPSEND (R413). -/
def execCpsend (ep : Nat) (v : DWord) (s : State) : Out :=
  match s.endpointAt ep with
  | none => s.skip
  | some e =>
    let ch := bitsN v.toNat 5 0
    let n := bitsN v.toNat 7 6 + 1
    let x := e.chan
    let t := Cells.read x.tab ch
    match e.vi with
    | none => .next (s.setEndpoint e.ignore)
    | some vi =>
      if v.toNat / 2 ^ 8 ≠ 0 ∨ 8 ≤ e.outgoing.length ∨ chValid t = false ∨ chReceives t = true ∨
          s.granted vi .supervisor 2 ch 1 = false then .next (s.setEndpoint e.ignore)
      else
        let p := sendPacket (512 + ep) x ch n (Cells.readList e.cpout 0 (64 * n))
        .next ((s.setChan (512 + ep) (x.put p)).offer (512 + ep) ch)

/-- CPRECV (R413). -/
def execCprecv (ep : Nat) (v : DWord) (s : State) : Out :=
  match s.endpointAt ep with
  | none => s.skip
  | some e =>
    let ch := bitsN v.toNat 5 0
    let t := Cells.read e.chtab ch
    let e := { e with lastCh := ch }
    let ok := match e.vi with
      | none => false
      | some vi => chValid t && chReceives t && s.granted vi .supervisor 2 ch 0
    match ok, (e.chan.queue ch).head? with
    | true, some p =>
      .next (s.setEndpoint { e with cpin := Cells.writeList [] 0 p.payload, rxq := dropHead ch e.rxq })
    | _, _ => .next (s.setEndpoint e)

/-- CPPOLL (R413): the poll word; a denied check reads as none. -/
def execCppoll (ep : Nat) (s : State) : Out :=
  match s.endpointAt ep with
  | none => s.skip
  | some e =>
    let ok := match e.vi with
      | none => false
      | some vi => s.granted vi .supervisor 2 e.lastCh 0
    .next (s.setEndpoint { e with polled := if ok then e.chan.pollWord e.lastCh else 0x8000000000000000 })

/-- CPTAB_WRITE (R406, R413). -/
def execCptabWrite (ep i : Nat) (v : DWord) (s : State) : Out :=
  match s.endpointAt ep with
  | none => s.skip
  | some e =>
    if 64 ≤ i then s.skip
    else .next (s.setEndpoint { e with chtab := chWrite e.chtab i v, rxq := chQueue e.chtab i e.rxq })

end Sys2Proof.Machine
end

