-- ==== Sys2Proof/Machine/Memory.lean ====
section
/-!
DEFINITION. Plain and ordered loads and stores (R292 to R301). A load takes its bytes when it issues and writes its
registers when it completes (log entry 15), but for a sector that is still being filled (R291); a store is held by the quarantine
(R455), in program and lane order.
-/
namespace Sys2Proof.Machine

/-- The registers of a vector data operand of a size in bytes (R298). -/
def dataRegs (d size : Nat) : List Nat := if size = 8 then [d, d + 1] else if size = 16 then [d, d + 1, d + 2, d + 3] else [d]

/-- The elements that a load of `x` writes in lane l (R298). -/
def loadWrites (d l size x : Nat) : List RegWrite :=
  (dataRegs d size).zipIdx.map fun r => .vec r.1 l (BitVec.ofNat 32 (x / 2 ^ (32 * r.2)))

/-- The bytes that a store takes from lane l (R298). -/
def Wave.storeBytes (w : Wave) (d l size : Nat) : List Byte :=
  if size < 4 then bytesOf size (w.v d l).toNat else (dataRegs d size).flatMap fun r => bytesOf 4 (w.v r l).toNat

/-- One lane's access: its lane, its address and what its checks give (R293). -/
structure LaneAccess where
  lane : Nat
  addr : DWord
  res : Except Nat (List Place)

/-- The accesses of the active lanes (R299). -/
def State.laneAccesses (s : State) (acc : Access) (size : Nat) (addr : Nat → DWord) : List LaneAccess :=
  s.wave.active.map fun l => { lane := l, addr := addr l, res := s.reach acc l (addr l) size }

/-- The lanes that pass their checks, with their places. -/
def passing (rs : List LaneAccess) : List (Nat × List Place) :=
  rs.filterMap fun r => match r.res with
    | .ok ps => some (r.lane, ps)
    | .error _ => none

/-- The lanes that fail, with their causes and addresses. -/
def failing (rs : List LaneAccess) : List (Nat × Nat × DWord) :=
  rs.filterMap fun r => match r.res with
    | .ok _ => none
    | .error c => some (r.lane, c, r.addr)

/-- The end of a vector memory instruction that began in state `s`, its good lanes done in `s1`: the failing lanes trap, each with its
cause (R299, R426, R489). -/
def State.laneFaults (s1 s : State) (acc : Access) (end_ : State → Out) (bad : List (Nat × Nat × DWord)) : Out :=
  if bad.isEmpty then end_ s1
  else
    let t := laneTrap (bad.map fun b => (b.1, causeWord b.2.1 acc, some b.2.2))
    if bad.any (fun b => b.2.1 == causePartition) then s1.trapBreach t else (s.partly s1).trap t

/-- The reach of a grid that a wave belongs to consumes poison (R467, R468). -/
def State.consume (s : State) (ps : List Place) : State :=
  if ps.any s.poisoned ∧ s.wave.lookoutOf.isNone then s.soon (.op (.poisonConsumed s.wave.env.grid s.wave.env.reach)) else s

/-- The address whose translation a byte of lane l needs: the backing of private space, a control address, or a local tensor one. -/
def State.translated (s : State) (e : Env) (l : Nat) (a : DWord) : Option DWord :=
  let n := a.toNat % 2 ^ 61
  match spaceOf a with
  | 0 =>
    let o := n % 2 ^ 60
    if n < 2 ^ 60 then (if o < e.privLane then some (BitVec.ofNat 64 (e.laneByte l o)) else none)
    else if o < e.privWave then some (BitVec.ofNat 64 (e.waveByte o)) else none
  | 2 => if n < 2 ^ 48 then some a else none
  | 3 => if n < 2 ^ 44 ∧ (s.viewOf e.vi (n / 2 ^ 40)).any (·.pkg == s.pkg) then some a else none
  | _ => none

/-- Whether the translation of an access misses every extent and the TLB: a lookout's load is then dropped (R145). -/
def State.misses (s : State) (e : Env) (l : Nat) (a : DWord) (size : Nat) : Bool :=
  (List.range size).any fun i =>
    match s.translated e l (a + BitVec.ofNat 64 i) with
    | some x => !s.inExtent e x && (s.keptPage (.core e.own.core) e.vi e.asid x).isNone
    | none => false

/-- Whether a load of the wave looked at is dropped. -/
def State.dropped (s : State) (l : Nat) (a : DWord) (size : Nat) : Bool :=
  s.wave.lookoutOf.isSome && decide (a.toNat % size = 0) && s.misses s.wave.env l a size

/-- The elements of a load whose sector is still being filled: those not in the core's L1, by their position, with the places of their
bytes (R291). -/
def State.racing (s : State) (els : List (List Place)) : List (Nat × List Place) :=
  (els.zipIdx.filter fun x => !x.1.all s.inL1).map fun x => (x.2, x.1)

/-- The places of the elements that a load of a size reads at `ps`: of 4 bytes at most in a vector register. -/
def chunks (n : Nat) (ps : List Place) : List (List Place) := (List.range n).map fun i => (ps.drop (4 * i)).take 4

/-- A vector load (R299) with a cache policy: every lane that passes reads its bytes; the others trap. -/
def State.vload (s : State) (policy d size : Nat) (addr : Nat → DWord) : Out :=
  let rs := (s.laneAccesses .read size addr).filter fun r => !s.dropped r.lane r.addr size
  let good := passing rs
  let ps := good.flatMap (·.2)
  if s.blocked ps then (s.askAll ps).wait
  else
    let ws := good.flatMap fun g => loadWrites d g.1 size (s.load g.2)
    let race := s.racing (good.flatMap fun g => chunks (dataRegs d size).length g.2)
    (((s.readThrough policy ps).issueLoad ws race).consume ps).laneFaults s .read State.done (failing rs)

/-- A vector store (R299) with a cache policy, held lane by lane in ascending order; `rel` when it releases to the cores (R301). It
waits behind an atomic that acquires (R305). -/
def State.vstore (s : State) (policy : Nat) (rel : Bool) (d size : Nat) (addr : Nat → DWord) : Out :=
  let rs := s.laneAccesses .write size addr
  if s.acquiring then s.wait
  else
    ((passing rs).foldl (fun s' g => s'.storeAs policy rel g.2 (s.wave.storeBytes d g.1 size)) s).laneFaults s .write
      State.done (failing rs)

/-- A scalar load (R299): one access, made as lane 0 (log entry 16), zero-extended. -/
def State.sload (s : State) (policy d size : Nat) (a : DWord) : Out :=
  if s.dropped 0 a size then s.done
  else
    match s.reach .read 0 a size with
    | .error c => s.trapAddr c .read a
    | .ok ps =>
      if s.blocked ps then (s.askAll ps).wait
      else
        (((s.readThrough policy ps).issueLoad [.scal d (BitVec.ofNat 64 (s.load ps))] (s.racing [ps])).consume ps).done

/-- A scalar store (R299). -/
def State.sstore (s : State) (policy : Nat) (rel : Bool) (d size : Nat) (a : DWord) : Out :=
  match s.reach .write 0 a size with
  | .error c => s.trapAddr c .write a
  | .ok ps => if s.acquiring then s.wait else (s.storeAs policy rel ps (bytesOf size (s.wave.s d).toNat)).done

/-! ## The race of R291 -/

/-- The bytes of a number of `n` bytes with those at some places replaced by what `f` gives. -/
def replaceBytes (f : Place → Byte) (hit : List Place) (n x : Nat) (ps : List Place) : Nat :=
  numOf (((bytesOf n x).zipIdx).map fun b =>
    match ps[b.2]? with
    | some p => if hit.contains p then f p else b.1
    | none => b.1)

/-- The same for an element of a load. -/
def RegWrite.replace (f : Place → Byte) (hit ps : List Place) : RegWrite → RegWrite
  | .vec r l x => .vec r l (BitVec.ofNat 32 (replaceBytes f hit 4 x.toNat ps))
  | .scal r x => .scal r (BitVec.ofNat 64 (replaceBytes f hit 8 x.toNat ps))
  | w => w

/-- The elements of a load after some bytes have taken newer values: from element `n` on, so that no higher lane returns an older value
than a lower one (R294). -/
def LongOp.race (o : LongOp) (f : Place → Byte) (n : Nat) (hit : List Place) : LongOp :=
  { o with writes := o.writes.zipIdx.map fun w =>
      match o.racing.find? fun x => decide (n ≤ w.2) && x.1 == w.2 with
      | some x => w.1.replace f hit x.2
      | none => w.1 }

/-- Bytes of element `n` of the last load of a wave take the values that stores have given their places since (R291). -/
def State.race (s : State) (r : WaveRef) (op n : Nat) (bytes : List Nat) : Out :=
  match s.focus r with
  | none => s.skip
  | some u =>
    match u.wave.ll.getLast? with
    | none => s.skip
    | some o =>
      match o.racing.find? (·.1 == n) with
      | none => s.skip
      | some x =>
        if o.id ≠ op then s.skip
        else
          let o' := o.race u.byte n (bytes.filterMap (x.2[·]?))
          .next { u with wave := { u.wave with ll := u.wave.ll.dropLast ++ [o'] } }

/-- The 64-bit address that VLD and VST form for a lane (R297). -/
def Wave.indexed (w : Wave) (a b l : Nat) : DWord := w.pair a l + w.s b

/-- The address that VLDC and VSTC form for a lane (R297). -/
def Wave.consecutive (w : Wave) (a : Nat) (off : DWord) (size l : Nat) : DWord := w.s a + off + BitVec.ofNat 64 (l * size)

/-- The address that LLD and LST form for a lane (R297). -/
def Wave.localIndexed (w : Wave) (a b l : Nat) : DWord :=
  0x2000000000000000 + BitVec.ofNat 64 (((w.v a l).toNat + (w.s b).toNat % 2 ^ 32) % 2 ^ 32)

/-- The cache policy of a word: its HMOD's, else its own (R168, R177). -/
def Hints.cachePolicy (h : Hints) (own : Nat) : Nat := h.policy.getD own

/-- VLD (R299). -/
def execVld (d a b : BitVec 7) (z : BitVec 3) (p : BitVec 2) (s : State) : Out :=
  s.group { vs := dataRegs d.toNat (2 ^ z.toNat) ++ [a.toNat, a.toNat + 1], ss := [b.toNat] } fun _ =>
    s.vload p.toNat d.toNat (2 ^ z.toNat) (s.wave.indexed a.toNat b.toNat)

/-- VST (R299). -/
def execVst (d a b : BitVec 7) (z : BitVec 3) (p : BitVec 2) (s : State) : Out :=
  s.group { vs := dataRegs d.toNat (2 ^ z.toNat) ++ [a.toNat, a.toNat + 1], ss := [b.toNat], lookout := false } fun _ =>
    s.vstore p.toNat false d.toNat (2 ^ z.toNat) (s.wave.indexed a.toNat b.toNat)

/-- The hints of the MI forms (R166, R168). -/
def miForm (vs ss : List Nat) (lookout : Bool) : Form := { himm := true, policy := true, vs := vs, ss := ss, lookout := lookout }

/-- VLDC (R299). -/
def execVldc (d a : BitVec 7) (z : BitVec 2) (i : BitVec 9) (s : State) : Out :=
  let size := 2 ^ (z.toNat + 2)
  s.group (miForm (dataRegs d.toNat size) [a.toNat] true) fun h =>
    s.vload (h.cachePolicy 0) d.toNat size (s.wave.consecutive a.toNat (immediate h 9 i.toNat) size)

/-- VSTC (R299). -/
def execVstc (d a : BitVec 7) (z : BitVec 2) (i : BitVec 9) (s : State) : Out :=
  let size := 2 ^ (z.toNat + 2)
  s.group (miForm (dataRegs d.toNat size) [a.toNat] false) fun h =>
    s.vstore (h.cachePolicy 0) false d.toNat size (s.wave.consecutive a.toNat (immediate h 9 i.toNat) size)

/-- SLD (R299). -/
def execSld (d a : BitVec 7) (z : BitVec 2) (i : BitVec 9) (s : State) : Out :=
  s.group (miForm [] [d.toNat, a.toNat] true) fun h =>
    s.sload (h.cachePolicy 0) d.toNat (2 ^ z.toNat) (s.wave.s a.toNat + immediate h 9 i.toNat)

/-- SST (R299). -/
def execSst (d a : BitVec 7) (z : BitVec 2) (i : BitVec 9) (s : State) : Out :=
  s.group (miForm [] [d.toNat, a.toNat] false) fun h =>
    s.sstore (h.cachePolicy 0) false d.toNat (2 ^ z.toNat) (s.wave.s a.toNat + immediate h 9 i.toNat)

/-- LLD (R297, R299). -/
def execLld (d a b : BitVec 7) (z : BitVec 3) (s : State) : Out :=
  s.group { vs := dataRegs d.toNat (2 ^ z.toNat) ++ [a.toNat], ss := [b.toNat] } fun _ =>
    s.vload 0 d.toNat (2 ^ z.toNat) (s.wave.localIndexed a.toNat b.toNat)

/-- LST (R297, R299). -/
def execLst (d a b : BitVec 7) (z : BitVec 3) (s : State) : Out :=
  s.group { vs := dataRegs d.toNat (2 ^ z.toNat) ++ [a.toNat], ss := [b.toNat], lookout := false } fun _ =>
    s.vstore 0 false d.toNat (2 ^ z.toNat) (s.wave.localIndexed a.toNat b.toNat)

/-! ## Ordered accesses (R300, R301): a load takes its value at issue and stores leave in order, so that a mask matters only for a
store to a local store that releases to the cores, which see held writes there (R456). -/

/-- Whether an observer mask, the HMOD's or the word's own, names the cores of the package. -/
def Hints.toCores (h : Hints) (o : BitVec 5) : Bool := (h.observers.getD o.toNat) / 16 % 2 == 1

/-- The size of an ordered access: .b32 or .b64 (R300). -/
def orderedSize (z : BitVec 1) : Nat := if z = 1 then 8 else 4

/-- SLDA (R301). -/
def execSlda (d a : BitVec 7) (o : BitVec 5) (z : BitVec 1) (p : BitVec 2) (s : State) : Out :=
  s.group { observers := true, ss := [d.toNat, a.toNat] } fun _ =>
    s.sload p.toNat d.toNat (orderedSize z) (s.wave.s a.toNat)

/-- SSTR (R301). -/
def execSstr (d a : BitVec 7) (o : BitVec 5) (z : BitVec 1) (p : BitVec 2) (s : State) : Out :=
  s.group { observers := true, ss := [d.toNat, a.toNat], lookout := false } fun h =>
    s.sstore p.toNat (h.toCores o) d.toNat (orderedSize z) (s.wave.s a.toNat)

/-- VLDA (R301). -/
def execVlda (d a : BitVec 7) (o : BitVec 5) (z : BitVec 1) (p : BitVec 2) (s : State) : Out :=
  s.group { observers := true, vs := dataRegs d.toNat (orderedSize z) ++ [a.toNat, a.toNat + 1] } fun _ =>
    s.vload p.toNat d.toNat (orderedSize z) fun l => s.wave.pair a.toNat l

/-- VSTR (R301). -/
def execVstr (d a : BitVec 7) (o : BitVec 5) (z : BitVec 1) (p : BitVec 2) (s : State) : Out :=
  s.group { observers := true, vs := dataRegs d.toNat (orderedSize z) ++ [a.toNat, a.toNat + 1], lookout := false } fun h =>
    s.vstore p.toNat (h.toCores o) d.toNat (orderedSize z) fun l => s.wave.pair a.toNat l

end Sys2Proof.Machine
end

