-- ==== Sys2Proof/Machine/Tensor.lean ====
section
/-!
DEFINITION. Tensor descriptors (R54 to R60): their fields, what makes one invalid, where an element lies.
-/
namespace Sys2Proof.Machine

/-- The bits of an element of a `TFMT` code; none for an invalid code (R56). -/
def fmtBits (c : Nat) : Option Nat :=
  if c / 64 = 0 then
    match c with
    | 0 => some 32 | 1 => some 16 | 2 => some 16 | 3 => some 32 | 4 => some 32 | 5 => some 64 | 6 => some 64 | 7 => some 32
    | _ => none
  else
    let p := c % 8
    if c / 8 % 2 = 1 then none
    else
      match c / 64 with
      | 1 => if 1 ≤ p then some 8 else none
      | 2 => if 1 ≤ p ∧ p ≤ 5 then some 6 else none
      | _ => if 1 ≤ p ∧ p ≤ 3 then some 4 else none

/-- The packed byte length of a row of `n` elements of some bits (R73, R329): whole bytes, or whole groups of four 6-bit
elements. -/
def packedBytes (bits n : Nat) : Nat := if bits = 6 then 3 * ((n + 3) / 4) else (n * bits + 7) / 8

/-- A descriptor as it was read: its 64 bytes (R55). -/
structure TDesc where
  bytes : List Byte
  deriving DecidableEq, Repr

namespace TDesc

def base (d : TDesc) : DWord := BitVec.ofNat 64 (fieldAt d.bytes 0 8)
def fmt (d : TDesc) : Nat := fieldAt d.bytes 8 1
def rank (d : TDesc) : Nat := fieldAt d.bytes 9 1
def flag (d : TDesc) (i : Nat) : Bool := fieldAt d.bytes 10 1 / 2 ^ i % 2 == 1
def capIx (d : TDesc) : Nat := fieldAt d.bytes 12 2
def dim (d : TDesc) (k : Nat) : Nat := fieldAt d.bytes (16 + 4 * k) 4

/-- The stride of dimension k, 1 to 3. -/
def stride (d : TDesc) (k : Nat) : Nat := fieldAt d.bytes (24 + 8 * k) 8
def scaleBase (d : TDesc) : DWord := BitVec.ofNat 64 (fieldAt d.bytes 56 8)
def bits (d : TDesc) : Nat := (fmtBits d.fmt).getD 8
def readOnly (d : TDesc) : Bool := d.flag 3
def hasScales (d : TDesc) : Bool := d.flag 1

/-- The block size of the scales (R55). -/
def block (d : TDesc) : Nat := if d.flag 2 then 32 else 16
def scaleDim (d : TDesc) : Nat := if d.flag 4 then 1 else 0

/-- The packed byte length of `n` elements (R73). -/
def rowBytes (d : TDesc) (n : Nat) : Nat := packedBytes d.bits n

/-- The byte length of one unit of the dimension below dimension k (R57, log entry 17): an element, a row, a plane. -/
def unitBytes (d : TDesc) : Nat → Nat
  | 1 => d.rowBytes 1
  | 2 => d.rowBytes (d.dim 0)
  | _ => (d.dim 1 - 1) * d.stride 1 + d.rowBytes (d.dim 0)

/-- Whether some step in dimension 1 brings the byte distance `t` of two rows below the bits of a row. -/
def rowsMeet (d : TDesc) (t : Int) (same : Bool) : Bool :=
  let s1 : Int := d.stride 1
  let near := if s1 = 0 ∨ d.rank < 2 then 0 else (-t) / s1
  let most : Int := (d.dim 1 - 1 : Nat)
  let clamp := fun k : Int => max (-most) (min most k)
  [clamp near, clamp (near + 1), 1, -1].any fun k =>
    decide (k.natAbs < d.dim 1 ∧ (same = false ∨ k ≠ 0) ∧ 8 * (k * s1 + t).natAbs < d.dim 0 * d.bits)

/-- Whether the bits of two distinct elements overlap (R57). -/
def overlaps (d : TDesc) : Bool :=
  (List.range (d.dim 3)).any fun i3 =>
    (List.range (2 * d.dim 2 - 1)).any fun j =>
      let i2 : Int := (j : Int) - (d.dim 2 - 1 : Nat)
      d.rowsMeet (i2 * d.stride 2 + i3 * d.stride 3) (decide (i2 = 0 ∧ i3 = 0))

/-- Whether a descriptor keeps R55 to R58, with its valid bit set (log entry 18 for what is not examined). -/
def valid (d : TDesc) : Bool :=
  let e := if 16 ≤ d.bits then d.bits / 8 else 1
  let t := d.base.toNat
  d.flag 0 && (fmtBits d.fmt).isSome && decide (1 ≤ d.rank ∧ d.rank ≤ 4) && decide (fieldAt d.bytes 10 1 < 32) &&
  decide (fieldAt d.bytes 11 1 = 0 ∧ fieldAt d.bytes 14 2 = 0) &&
  decide (t / 2 ^ 61 = 3 ∧ t % 2 ^ 61 < 2 ^ 44 ∧ t % e = 0) &&
  ((List.range 4).all fun k => decide (1 ≤ d.dim k) && (decide (k < d.rank) || d.dim k == 1)) &&
  ([1, 2, 3].all fun k => decide (d.rank ≤ k) || (d.stride k % e == 0 && decide (d.unitBytes k ≤ d.stride k))) &&
  (!d.hasScales || decide (d.scaleBase.toNat / 2 ^ 61 = 3 ∧ d.scaleBase.toNat % 2 ^ 61 < 2 ^ 44)) && (!d.flag 4 || decide (2 ≤ d.rank)) &&
  (d.readOnly || !d.overlaps)

/-- The address of byte b of row (i1, i2, i3) (R57). -/
def rowAddr (d : TDesc) (i1 i2 i3 b : Nat) : DWord :=
  d.base + BitVec.ofNat 64 (i1 * d.stride 1 + i2 * d.stride 2 + i3 * d.stride 3 + b)

/-- The number of entries of the scale array in dimension k (R58). -/
def scaleExtent (d : TDesc) (k : Nat) : Nat := if k = d.scaleDim then (d.dim k + d.block - 1) / d.block else d.dim k

/-- The address of the block exponent of element (i0, i1, i2, i3) (R58). -/
def scaleAddr (d : TDesc) (i0 i1 i2 i3 : Nat) : DWord :=
  let j := fun k i => if k = d.scaleDim then i / d.block else i
  let ix := j 0 i0 + d.scaleExtent 0 * (j 1 i1 + d.scaleExtent 1 * (i2 + d.scaleExtent 2 * i3))
  d.scaleBase + 16 + BitVec.ofNat 64 ix

/-- A number put among others in rising order, once. -/
def insertNat (x : Nat) : List Nat → List Nat
  | [] => [x]
  | y :: ys => if x < y then x :: y :: ys else if x = y then y :: ys else y :: insertNat x ys

/-- The first bytes of the lines that a run of bytes touches. -/
def linesOf (a n : Nat) : List Nat := (List.range ((a % 128 + n + 127) / 128)).map fun i => (a / 128 + i) * 128

/-- The first bytes of the lines that hold a byte of an element, ascending, then those of the scale area (R318). -/
def lines (d : TDesc) : List Nat :=
  let rows := (List.range (d.dim 3)).flatMap fun i3 => (List.range (d.dim 2)).flatMap fun i2 => (List.range (d.dim 1)).flatMap fun i1 =>
    linesOf (d.rowAddr i1 i2 i3 0).toNat (d.rowBytes (d.dim 0))
  let scales := if d.hasScales then
    linesOf d.scaleBase.toNat (16 + d.scaleExtent 0 * d.scaleExtent 1 * d.scaleExtent 2 * d.scaleExtent 3) else []
  rows.foldr insertNat [] ++ scales

end TDesc

/-- What a read of a descriptor gives: it, a cause with its address, or nothing yet. -/
inductive TRead where
  | got (d : TDesc)
  | fault (code : Nat) (a : DWord)
  | notYet (ps : List Place)
  deriving DecidableEq, Repr

/-- Bytes that the wave reads at places, with its held writes (R456). -/
def State.bytesAt (s : State) (ps : List Place) : List Byte := ps.map s.byte

/-- The places of the reserved bytes of a scale area's header, when they can be read here (R58). -/
def State.scaleHeader (s : State) (d : TDesc) : List Place :=
  if d.hasScales then
    match s.places s.wave.env s.wave.arch.mode .read 0 (d.scaleBase + 4) 12 with
    | .ok ps => ps
    | .error _ => []
  else []

/-- The descriptor that an identifier names, read and checked at issue (R54, R59, R60): `right` 0 read, 1 write. -/
def State.tensor (s : State) (id right : Nat) : TRead :=
  let e := s.wave.env
  let a := e.ttBase + BitVec.ofNat 64 (64 * id)
  if e.ttCount ≤ id then .fault causeTranslation a
  else
    match s.places e s.wave.arch.mode .read 0 a 64 with
    | .error c => .fault c a
    | .ok ps =>
      if s.blocked ps then .notYet ps
      else
        let d : TDesc := { bytes := s.bytesAt ps }
        let hs := s.scaleHeader d
        if d.valid = false then .fault causeTranslation a
        else if s.blocked hs then .notYet hs
        else if (s.bytesAt hs).any (fun b => decide (b ≠ 0)) then .fault causeTranslation a
        else if (right = 1 ∧ d.readOnly = true) ∨ s.grantedEntry e.vi s.wave.arch.mode right d.capIx = false then
          .fault causePermission a
        else .got d

end Sys2Proof.Machine
end

