-- ==== Sys2Proof/Machine/Engine.lean ====
section
/-!
DEFINITION. Asynchronous operations (R306 to R316): the checks at issue, counters and tags, completion, and the engines'
own accesses.
-/
namespace Sys2Proof.Machine

/-! ## Counters (R307), coded as in WAITC: 0 oc.x, 1 oc.m, 2 oc.g, 3 oc.k -/

def Wave.counter (w : Wave) : Nat → Nat
  | 0 => w.ocx
  | 1 => w.ocm
  | 2 => w.ocg
  | _ => w.ock

def Wave.setCounter (w : Wave) (c x : Nat) : Wave :=
  match c with
  | 0 => { w with ocx := x }
  | 1 => { w with ocm := x }
  | 2 => { w with ocg := x }
  | _ => { w with ock := x }

/-- The counter that a parameter scalar names for an instruction of class `own` (R306); none for an operation not counted. -/
def paramCounter (own pcnt : Nat) : Option Nat :=
  match pcnt with
  | 0 => some own
  | 1 => some 0
  | 2 => some 2
  | 3 => some 3
  | _ => none

/-- Whether a parameter scalar keeps the fields that every asynchronous instruction shares (R306). -/
def paramLegal (x : DWord) (pdir : Bool) : Bool :=
  decide (bitsN x.toNat 63 63 = 0 ∧ bitsN x.toNat 62 60 ≤ 4 ∧ bitsN x.toNat 59 48 = 0 ∧ bitsN x.toNat 35 32 = 0) &&
    (pdir || bitsN x.toNat 47 47 == 0)

def paramLen (x : DWord) : Nat := bitsN x.toNat 31 0
def paramPolicy (x : DWord) : Nat := bitsN x.toNat 46 45
def paramTag (x : DWord) : Option Nat := if x.getLsbD 42 then some (bitsN x.toNat 41 36) else none

/-- The ordering stream: HMOD's, else the parameter's (R168, R306). -/
def paramStream (h : Hints) (x : DWord) : Nat := h.stream.getD (bitsN x.toNat 44 43)

/-- Whether the wave holds because the counter is full (R307). -/
def Wave.counterFull (w : Wave) : Option Nat → Bool
  | none => false
  | some c => decide (63 ≤ w.counter c)

/-! ## Operands (R52, R53, R292, R309) -/

/-- Where an engine's operand lies: a local store, local tensor memory, or another package's tensor memory. -/
inductive Side where
  | store
  | tensor
  | remote (m : Member)
  deriving DecidableEq, Repr

/-- The side of an address for a copy or a gather (R292, R309 row 2). -/
def State.side (s : State) (a : DWord) : Except Nat Side :=
  let e := s.wave.env
  if s.undecodable e a then .error causeTranslation
  else
    match spaceOf a with
    | 1 => .ok .store
    | 3 =>
      match s.viewOf e.vi (a.toNat % 2 ^ 61 / 2 ^ 40) with
      | none => .error causeTranslation
      | some m => if m.pkg = s.pkg then .ok .tensor else .ok (.remote m)
    | _ => .error causePermission

def Side.isRemote : Side → Bool
  | .remote _ => true
  | _ => false

/-- The package that a side lies on. -/
def State.sidePkg (s : State) : Side → Nat
  | .remote m => m.pkg
  | _ => s.pkg

/-- Addresses of a range of `n` bytes at which every check of the range can be made: the ends of each page, and the start of
the overflow areas. -/
def rangePoints (e : Env) (a : DWord) (n : Nat) : List DWord :=
  if n = 0 then []
  else
    let lo := a.toNat
    let hi := lo + n - 1
    let pts := (List.range (hi / 65536 - lo / 65536 + 1)).flatMap fun i =>
      [max lo ((lo / 65536 + i) * 65536), min hi ((lo / 65536 + i) * 65536 + 65535)]
    (pts ++ (if lo ≤ e.ovfBase ∧ e.ovfBase ≤ hi then [e.ovfBase] else [])).map (BitVec.ofNat 64)

/-- Translation and rights of a range on this package (R309 row 5). A breach of the allocation is found by the engine, when
it makes the access (R489). -/
def State.checkRange (s : State) (acc : Access) (a : DWord) (n : Nat) : Except (Nat × DWord) Unit :=
  (rangePoints s.wave.env a n).foldl (fun r p =>
    match r with
    | .error x => .error x
    | .ok _ =>
      match s.place s.wave.env s.wave.arch.mode acc 0 p with
      | .error c => if c = causePartition then .ok () else .error (c, p)
      | .ok _ => .ok ()) (.ok ())

/-- The same for an operand whose side is known: a range on another package is translated at its home. -/
def State.checkSide (s : State) (d : Side) (acc : Access) (a : DWord) (n : Nat) : Except (Nat × DWord) Unit :=
  if d.isRemote then .ok () else s.checkRange acc a n

/-- The translations that an engine takes for a range at issue. -/
def State.rangePages (s : State) (a : DWord) (n : Nat) : List Page :=
  match s.viAt s.wave.env.vi with
  | none => []
  | some v => ((rangePoints s.wave.env a n).filterMap fun p => s.pageOf v s.wave.env p).eraseDups

/-! ## Starting (R307, R309, R455) -/

/-- An operation starts: counted, and held by the quarantine before its engine sees it. -/
def State.startOp (s : State) (o : AsyncOp) : State :=
  let o := { o with id := s.ids, core := s.wave.core, slot := s.wave.slot, env := s.wave.env, mode := s.wave.arch.mode }
  let w := match o.counter with
    | some c => s.wave.setCounter c (s.wave.counter c + 1)
    | none => s.wave
  ({ s with ids := s.ids + 1, ops := s.ops ++ [o], wave := w } : State).hold (.start o.id)

/-- A new operation before it is numbered. -/
def State.newOp (s : State) (kind : AsyncKind) (counter : Option Nat) (stream : Nat) (tag : Option Nat) (src dst : DWord)
    (len : Nat) : AsyncOp :=
  { id := 0, kind := kind, core := 0, slot := 0, env := s.wave.env, mode := .user, counter := counter, stream := stream,
    tag := tag, src := src, dst := dst, len := len, pages := [], home := s.pkg, left := [], out := [], parts := [],
    started := false, status := none, ended := false, orphan := false, reply := none }

/-! ## Finishing (R307, R308, R310) -/

def State.opAt (s : State) (id : Nat) : Option AsyncOp := s.ops.find? (·.id == id)
def State.setOp (s : State) (o : AsyncOp) : State := { s with ops := s.ops.map fun x => if x.id = o.id then o else x }

def statusCode : OpStatus → Nat
  | .success => 0
  | .remoteAbort => 1
  | .peerLost => 2
  | .lostPacket => 3
  | .viAbsent => 4
  | .hostLinkDown => 5
  | .mismatch => 6
  | .rillAbsent => 7

/-- The operations of a wave on a counter, in issue order. -/
def State.counted (s : State) (core slot c : Nat) : List AsyncOp :=
  s.ops.filter fun o => o.core == core && o.slot == slot && !o.orphan && o.counter == some c

/-- A counter decremented for the completed operations at the head of its order (R307). -/
def State.settleCounter (s : State) (core slot c : Nat) : State :=
  let gone := (s.counted core slot c).takeWhile (·.ended)
  match s.waveAt ⟨core, slot⟩ with
  | none => s
  | some w =>
    let s := { s with ops := s.ops.filter fun o => !(gone.any fun g => g.id == o.id) }
    s.putWave (w.setCounter c (w.counter c - gone.length))

/-- An engine failure recorded against the grid of a wave that has ended (R310, R479, R480). -/
def State.chargeGrid (s : State) (grid : Nat) (code : Nat) : State :=
  match s.gridAt grid with
  | none => s
  | some g =>
    s.setGrid { g with cefail := min 65535 (g.cefail + 1), firstFail := if g.cefail = 0 then code else g.firstFail }

/-- A failed operation tells its wave, or its team when the wave has ended (R310). -/
def State.reportFailure (s : State) (core slot grid : Nat) (orphan : Bool) (st : OpStatus) (counter : Option Nat)
    (stream : Nat) : State :=
  if st = .success then s
  else if orphan then s.chargeGrid grid (statusCode st)
  else
    match s.waveAt ⟨core, slot⟩ with
    | none => s.chargeGrid grid (statusCode st)
    | some w => s.putWave { w with failures := w.failures ++ [{ status := st, counter := counter, stream := stream }] }

/-- A tag set in an uncore cycle, whose settings are kept apart while it lasts (R308, R323). -/
def Core.addTag (c : Core) (now t : Nat) : Core :=
  let same := c.tagsAt = now
  { c with tagmap := c.tagmap ||| laneBit t, tagsAt := now, tagsNew := (if same then c.tagsNew else 0) ||| laneBit t,
           tagsWas := (if same then c.tagsWas else 0) ||| (c.tagmap &&& laneBit t &&& if same then ~~~c.tagsNew else BitVec.allOnes 64) }

/-- A tag set on a core (R308, R323). -/
def State.setTag (s : State) (core : Nat) : Option Nat → State
  | none => s
  | some t => s.setCore ((s.coreAt core).addTag s.uncore t)

/-- The last element of a long-latency instruction becomes known, or none is written. -/
def Wave.resolve (w : Wave) (ll : Nat) (ws : List RegWrite) : Wave :=
  { w with ll := w.ll.map fun l => if l.id = ll then { l with left := l.left - 1, writes := l.writes ++ ws } else l }

/-- A long-latency instruction of a wave learns a result. -/
def State.resolve (s : State) (core slot ll : Nat) (ws : List RegWrite) : State :=
  match s.waveAt ⟨core, slot⟩ with
  | some w => s.putWave (w.resolve ll ws)
  | none => s

/-- A failed XRATOM clears its flag and writes nothing (R310, R375). -/
def State.clearFlagOf (s : State) (o : AsyncOp) (st : OpStatus) : State :=
  match o.kind with
  | .xratom _ _ ll => if st = .success ∨ o.orphan = true then s else s.resolve o.core o.slot ll []
  | _ => s

/-- An operation completes with a status: its tag is set at once, its counter decremented in order, a failure told. -/
def State.endOp (s : State) (o : AsyncOp) (st : OpStatus) : State :=
  let s := s.setOp { o with ended := true, status := some st, left := [], out := [] }
  let s := { s with fabric := { s.fabric with requests := s.fabric.requests.filter (·.op != o.id) } }
  let s := (s.clearFlagOf o st).setTag o.core o.tag
  let s := s.reportFailure o.core o.slot o.env.grid o.orphan st o.counter o.stream
  if o.orphan then { s with ops := s.ops.filter (·.id != o.id) }
  else
    match o.counter with
    | none => { s with ops := s.ops.filter (·.id != o.id) }
    | some c => s.settleCounter o.core o.slot c

/-! ## Engine accesses -/

/-- The place of a byte on this package for an operation, by the translations made at issue. -/
def AsyncOp.place (o : AsyncOp) (a : DWord) : Option Place :=
  if spaceOf a = 1 then
    match o.env.localPlace (a.toNat % 2 ^ 61) with
    | .ok p => some p
    | .error _ => none
  else (o.pages.find? fun p => p.covers o.env.asid a).map fun p => .mem (p.key + a.toNat % p.size)

/-- The places of `n` bytes from an address; none when one has no translation. -/
def AsyncOp.places (o : AsyncOp) (a : DWord) (n : Nat) : Option (List Place) :=
  ((List.range n).map fun i => o.place (a + BitVec.ofNat 64 i)).foldr (fun p r =>
    match p, r with
    | some p, some ps => some (p :: ps)
    | _, _ => none) (some [])

/-- Places for which an operation waits are asked for on behalf of its team's reach. -/
def State.askOp (s : State) (o : AsyncOp) (write : Bool) (ps : List Place) : State :=
  ps.foldl (fun s p => s.askFor o.env.grid o.env.reach write p) s

/-- Whether an address lies in the store of a core of the window that holds no team of the reach any more (R49). -/
def State.windowGone (s : State) (o : AsyncOp) (a : DWord) : Bool :=
  spaceOf a == 1 &&
    match o.env.localPlace (a.toNat % 2 ^ 61), s.localPlace o.env (a.toNat % 2 ^ 61) with
    | .ok _, .error _ => true
    | _, _ => false

/-- Whether an access of an engine breaks the VI's allocation (R31 cause 2, R489). -/
def State.breaks (s : State) (vi : Nat) (mode : Mode) (ps : List Place) : Bool :=
  match s.viAt vi with
  | none => false
  | some v => decide (mode ≠ .hypervisor) && ps.any fun p =>
      match p with
      | .mem k => !v.owns k
      | .store _ _ => false

/-- Whether an access reaches host memory while the upstream link is down (R37). -/
def State.hostDown (s : State) (ps : List Place) : Bool :=
  !s.platform.linkUp && ps.any fun p =>
    match p with
    | .mem k => isHostKey k
    | .store _ _ => false

/-- Bytes written with their poison: a sector that takes a poisoned byte becomes poisoned, one wholly covered by clean bytes
becomes clean (R466). -/
def State.writePoison (s : State) (ps : List Place) (bs : List Byte) (bad : List Bool) : State :=
  let s := (s.setBytes ps bs).clearCovered ps
  (ps.zip bad).foldl (fun s x => if x.2 then s.setPoison x.1 true else s) s

/-- Bytes moved by an engine, with their poison. -/
def State.moveBytes (s : State) (src dst : List Place) : State :=
  s.writePoison dst (src.map s.released) (src.map s.poisoned)

/-- A range of units taken from those left to perform: the parts before and after it stay. -/
def takeRange (left : List (Nat × Nat)) (off n : Nat) : List (Nat × Nat) :=
  left.flatMap fun r =>
    let a := (r.1, min r.2 (off - r.1))
    let e := off + n
    let b := (max r.1 e, r.1 + r.2 - max r.1 e)
    [a, b].filter fun x => decide (0 < x.2)

/-- Whether a range of units is wholly left to perform. -/
def hasRange (left : List (Nat × Nat)) (off n : Nat) : Bool :=
  decide (0 < n) && left.any fun r => decide (r.1 ≤ off ∧ off + n ≤ r.1 + r.2)

/-- The earlier operations of the same wave and stream that write the same home and hold this one back (R316): on this package
until they have ended, on another until they have been sent. -/
def State.heldBack (s : State) (o : AsyncOp) : Bool :=
  s.ops.any fun x => decide (x.id < o.id) && x.core == o.core && x.slot == o.slot && x.stream == o.stream &&
    x.home == o.home && !x.orphan == !o.orphan && !x.ended && (o.home == s.pkg || !x.left.isEmpty || !x.started)

/-! ## Teams whose work is done (R115, R476) -/

/-- Whether a wave belongs to a team; a lookout belongs to none. -/
def Wave.ofTeam (w : Wave) (grid team : Nat) : Bool := w.lookoutOf.isNone && w.env.grid == grid && w.env.team == team

/-- Whether a team of a started reach has no live wave, no lane in a bin, and no operation under way (R115, R476). -/
def State.teamIdle (s : State) (grid team : Nat) : Bool :=
  (s.allWaves.all fun w => !w.ofTeam grid team || decide (w.status = .exited ∨ w.status = .absent)) &&
  ((s.core :: s.cores).all fun c =>
    (c.bins.all fun b => !(b.grid == grid && b.team == team) || b.lanes.isEmpty) &&
    (c.matrix.queue.all fun o => !(o.env.grid == grid && o.env.team == team))) &&
  (s.ops.all fun o => !(o.env.grid == grid && o.env.team == team) || o.ended)

end Sys2Proof.Machine
end

