-- ==== Sys2Proof/Machine/Launch.lean ====
section
/-!
DEFINITION. LAUNCH, LWAIT, SPAWN, TDEF (R113 to R125), and the ferry instructions SEGQ and FERRY (R269, R270).
-/
namespace Sys2Proof.Machine

/-! ## Queues and team entries -/

def Vi.queueAt (v : Vi) (q : Nat) : Option Queue := v.queues.find? (·.q == q)
def Vi.setQueue (v : Vi) (q : Queue) : Vi := { v with queues := v.queues.map fun x => if x.q = q.q then q else x }

/-- The launch records that the quarantines of the package's cores hold for a queue. -/
def State.heldLaunches (s : State) (vi q : Nat) : List Nat :=
  (s.core :: s.cores).flatMap fun c => c.held.filterMap fun h =>
    match h.kind with
    | .launch v p n _ _ _ => if v = vi ∧ p = q then some n else none
    | _ => none

/-- The next sequence number of a device-fed queue: the first after K that no held record has (log entry 22). -/
def State.nextLaunch (s : State) (vi q k : Nat) : Nat :=
  let used := s.heldLaunches vi q
  (k + 1 + ((List.range (used.length + 1)).find? fun i => !used.contains ((k + 1 + i) % 2 ^ 32)).getD 0) % 2 ^ 32

/-- The team of a wave in its grid. -/
def Grid.teamAt (g : Grid) (team : Nat) : Option TeamState := (g.reaches.flatMap (·.teams)).find? (·.team == team)

/-- A change to a team of a grid. -/
def Grid.mapTeam (g : Grid) (team : Nat) (f : TeamState → TeamState) : Grid :=
  { g with reaches := g.reaches.map fun r =>
      { r with teams := r.teams.map fun t => if t.team = team then f t else t } }

def LaunchEngine.entryAt (l : LaunchEngine) (i : Nat) : Option TeamEntry := l.entries.find? (·.index == i)

def LaunchEngine.setEntry (l : LaunchEngine) (e : TeamEntry) : LaunchEngine :=
  { l with entries := if l.entries.any (·.index == e.index) then l.entries.map fun x => if x.index = e.index then e else x
                      else l.entries ++ [e] }

/-- The lineage of a held record follows its number (R104, log entry 22). -/
def LaunchEngine.renumber (l : LaunchEngine) (vi q n m : Nat) : LaunchEngine :=
  { l with lineage := l.lineage.map fun x => if x.vi = vi ∧ x.q = q ∧ x.seq = n then { x with seq := m } else x }

/-- The lowest free team entry, with its generation (R114, log entry 23). -/
def LaunchEngine.free (l : LaunchEngine) : Option TeamEntry :=
  match (List.range Config.teamEntries).find? fun i => !(l.entries.any fun e => e.index == i && e.inUse) with
  | none => none
  | some i =>
    let gen := (l.entryAt i).map (·.gen)
    some { index := i, inUse := true, gen := gen.getD 0, outstanding := 0, perr := 0 }

/-- The entry of a team, or a free one for it. -/
def State.teamEntry (s : State) (g : Grid) (team : Nat) : Option TeamEntry :=
  match (g.teamAt team).bind (·.entry) with
  | some i => s.launch.entryAt i
  | none => s.launch.free

/-- `LPARENT` (R113). -/
def parentLink (attached : Bool) (depth : Nat) (e : Option TeamEntry) : Nat :=
  match attached, e with
  | true, some e => 2 ^ 63 + depth * 2 ^ 48 + e.gen % 2 ^ 32 * 2 ^ 16 + e.index
  | _, _ => depth * 2 ^ 48

/-- A LAUNCH that is not accepted writes an error code (R122). -/
def State.launchError (s : State) (d code : Nat) : Out :=
  ({ s with wave := s.wave.setS d (BitVec.ofNat 64 (2 ^ 63 + code)) } : State).doneEnd

/-- A LAUNCH that is accepted: the record in the quarantine, the team's count, the result (R122, R455). -/
def State.launchTake (s : State) (g : Grid) (q : Queue) (rec_ : List Byte) (attached : Bool) (e : Option TeamEntry) (d : Nat) : Out :=
  let vi := s.wave.env.vi
  let team := s.wave.env.team
  let n := s.nextLaunch vi q.q q.k
  let bytes := bytesOf 4 n ++ (rec_.drop 4).take 0x34 ++ bytesOf 8 (parentLink attached (g.depth + 1) e) ++ rec_.drop 0x40
  let addr := q.base + BitVec.ofNat 64 (128 * (n % 2 ^ q.log))
  let s := s.hold (.launch vi q.q n addr bytes (if attached then e.map (·.index) else none))
  let line : Lineage := { vi := vi, q := q.q, seq := n, ancestors := g.id :: g.ancestors }
  let s := { s with launch := { s.launch with lineage := s.launch.lineage ++ [line] } }
  let s := match attached, e with
    | true, some e =>
      ({ s with launch := s.launch.setEntry { e with outstanding := e.outstanding + 1 } } : State).setGrid
        (g.mapTeam team fun t => { t with entry := some e.index })
    | _, _ => s
  ({ s with wave := s.wave.setS d (BitVec.ofNat 64 (q.q * 2 ^ 32 + n)) } : State).doneEnd

/-- The decisions of LAUNCH once the record is read, in the order of R122. -/
def State.launchRecord (s : State) (sb : DWord) (rec_ : List Byte) (d : Nat) : Out :=
  let q := bitsN sb.toNat 4 0
  match s.viAt s.wave.env.vi, s.gridAt s.wave.env.grid with
  | some v, some g =>
    match v.queueAt q with
    | none => s.launchError d 1
    | some qu =>
      if sb.toNat / 2 ^ 5 ≠ 0 ∨ v.desc.qcount ≤ q ∨ qu.deviceFed = false then s.launchError d 1
      else if qu.qst ≠ 1 then s.launchError d 5
      else if 8 < g.depth + 1 then s.launchError d 3
      else if (qu.k + (s.heldLaunches v.vi q).length + 2 ^ 32 - qu.qacc) % 2 ^ 32 = 2 ^ qu.log then s.launchError d 2
      else
        let att := fieldAt rec_ 5 1 / 8 % 2 == 0
        let e := s.teamEntry g s.wave.env.team
        if att = true ∧ e.isNone = true then s.launchError d 4 else s.launchTake g qu rec_ att e d
  | _, _ => s.launchError d 1

/-- LAUNCH (R122). -/
def execLaunch (d a b : BitVec 7) (s : State) : Out :=
  s.group { ss := [d.toNat, a.toNat, b.toNat], lookout := false } fun _ =>
    let sa := s.wave.s a.toNat
    let sb := s.wave.s b.toNat
    if sa.toNat % 128 ≠ 0 then s.trapAddr causeMisaligned .read sa
    else if spaceOf sa ≠ 2 then s.trapAddr causeTranslation .read sa
    else if s.granted s.wave.env.vi s.wave.arch.mode 1 (bitsN sb.toNat 4 0) 2 = false then s.denied
    else
      match s.places s.wave.env s.wave.arch.mode .read 0 sa 128 with
      | .error c => s.trapAddr c .read sa
      | .ok ps => if s.blocked ps then (s.askAll ps).wait else s.launchRecord sb (ps.map s.byte) d.toNat

/-- A team's outstanding attached children and its `PERR` (R123). -/
def State.children (s : State) (grid team : Nat) : Nat × Nat :=
  match ((s.gridAt grid).bind fun g => g.teamAt team).bind fun t => t.entry.bind s.launch.entryAt with
  | some e => (e.outstanding, e.perr)
  | none => (0, 0)

/-- LWAIT (R123). -/
def execLwait (d a : BitVec 7) (s : State) : Out :=
  s.group { terminal := true, ss := [d.toNat, a.toNat], lookout := false } fun _ =>
    let c := s.children s.wave.env.grid s.wave.env.team
    if c.1 ≤ (s.wave.s a.toNat).toNat then s.scalarResult d.toNat (BitVec.ofNat 64 c.2) else s.stall

/-! ## Spawn bins (R117, R118) -/

/-- The bin of a core with a key. -/
def Core.binAt (c : Core) (grid team entry : Nat) : Option Bin :=
  c.bins.find? fun b => b.grid == grid && b.team == team && b.entry == entry

/-- The lowest-numbered free bin of a core (R117). -/
def Core.freeBin (c : Core) : Option Nat := (List.range 16).find? fun i => !(c.bins.any (·.index == i))

def Core.setBin (c : Core) (b : Bin) : Core := { c with bins := c.bins.map fun x => if x.index = b.index then b else x }
def Core.dropBin (c : Core) (i : Nat) : Core := { c with bins := c.bins.filter (·.index != i) }

/-- A bin bound anew. -/
def Bin.fresh (index grid team entry reload : Nat) (sticky : Bool) : Bin :=
  { index := index, grid := grid, team := team, entry := entry, reload := reload, sticky := sticky, markedReady := false,
    left := none, lanes := [] }

/-- Whether a bin is ready, for waves of `n` lanes (R118, R125). -/
def Bin.ready (b : Bin) (n : Nat) : Bool :=
  decide (n ≤ b.lanes.length) || b.left == some 0 || (b.markedReady && !b.lanes.isEmpty)

/-- A lane joins a bin: an empty bin's timer starts (R118). -/
def Bin.join (b : Bin) (l : BinLane) : Bin :=
  { b with lanes := b.lanes ++ [l], left := if b.lanes.isEmpty then some b.reload else b.left }

/-- A lane enters the bin with a key, binding a free one if there is none; none when it finds no room (R117, R124). -/
def Core.enterBin (c : Core) (grid team entry n : Nat) (l : BinLane) : Option (Core × Nat) :=
  match c.binAt grid team entry with
  | some b => if b.ready n then none else some (c.setBin (b.join l), b.index)
  | none =>
    match c.freeBin with
    | none => none
    | some i => some ({ c with bins := c.bins ++ [(Bin.fresh i grid team entry 1024 false).join l] }, i)

/-- Whether an entry offset names a clause of code for SPAWN (R124). -/
def Env.spawnEntry (e : Env) (x : Nat) : Bool :=
  decide (x % 4 = 0) && e.inSection Section.isCode (e.image + BitVec.ofNat 64 x)

/-- The lanes of a SPAWN enter their bins in ascending order; the lanes that were created (R124). -/
def State.spawnBins (s : State) (a b : Nat) : List Nat → State × List Nat
  | [] => (s, [])
  | l :: ls =>
    let w := s.wave
    let lane : BinLane := { regs := [(0, w.v b l), (1, w.v (b + 1) l)], preds := 0, held := true }
    match s.core.enterBin w.env.grid w.env.team (w.v a l).toNat w.env.wavew lane with
    | none => s.spawnBins a b ls
    | some (c, i) =>
      let r := (({ s with core := c } : State).hold (.spawn i 1)).spawnBins a b ls
      (r.1, l :: r.2)

/-- In a ferry-mode grid each lane becomes a traveller in the departure buffer, while it has room (R124, R256). -/
def State.spawnFerry (s : State) (g : Grid) (a b : Nat) : List Nat → State × List Nat
  | [] => (s, [])
  | l :: ls =>
    let w := s.wave
    let e := (w.v a l).toNat
    let seg := (w.env.segmentOf (w.env.image + BitVec.ofNat 64 e)).getD 0
    match s.landingTeam g seg with
    | none => s.spawnFerry g a b ls
    | some j =>
      if s.departureRoom s.core then
        let t : Traveller :=
          { grid := w.env.grid, slot := w.slot, entry := e, lmask := 3, lbase := 0, spawn := true, seg := seg, preds := 0,
            src := w.core, team := j, regs := [(0, w.v b l), (1, w.v (b + 1) l)], offerAt := 0,
            departAt := s.now + Config.quarantine, age := w.age }
        let r := ({ s with core := { s.core with departure := insertTraveller t s.core.departure } } : State).spawnFerry g a b ls
        (r.1, l :: r.2)
      else s.spawnFerry g a b ls

/-- SPAWN (R124). -/
def execSpawn (d a b : BitVec 7) (s : State) : Out :=
  s.group { vs := [a.toNat, b.toNat, b.toNat + 1], lookout := false } fun _ =>
    let w := s.wave
    let good := w.active.filter fun l => w.env.spawnEntry (w.v a.toNat l).toNat
    let bad := w.active.filter fun l => !w.env.spawnEntry (w.v a.toNat l).toNat
    let r :=
      if w.env.ferry then
        match s.gridAt w.env.grid with
        | some g => s.spawnFerry g a.toNat b.toNat good
        | none => (s, [])
      else s.spawnBins a.toNat b.toNat good
    let m := (w.pred d.toNat &&& ~~~(maskOf good)) ||| maskOf r.2
    let s1 := { r.1 with wave := r.1.wave.setPred d.toNat m }
    if bad.isEmpty then s1.doneEnd
    else
      (s.partly s1).trap (laneTrap (bad.map fun l => (l, causeWord causeTranslation .read,
        some (w.env.image + (w.v a.toNat l).setWidth 64))))

/-- TDEF (R125). -/
def execTdef (d a b : BitVec 7) (s : State) : Out :=
  s.group { ss := [d.toNat, a.toNat, b.toNat], lookout := false } fun _ =>
    let w := s.wave
    let e := (w.s a.toNat).toNat % 2 ^ 32
    let t := (w.s b.toNat).toNat
    let c := s.core
    match c.binAt w.env.grid w.env.team e with
    | some x =>
      let c' :=
        if t = 0 then
          if x.lanes.isEmpty then c.dropBin x.index else c.setBin { x with sticky := false, markedReady := true }
        else c.setBin { x with reload := min 65535 (max 64 t), sticky := true }
      ({ s with core := c' } : State).scalarResult d.toNat (BitVec.ofNat 64 x.index)
    | none =>
      if t = 0 then s.scalarResult d.toNat 0xFFFFFFFFFFFFFFFF
      else
        match c.freeBin with
        | none => s.scalarResult d.toNat 0xFFFFFFFFFFFFFFFF
        | some i =>
          let x := Bin.fresh i w.env.grid w.env.team e (min 65535 (max 64 t)) true
          ({ s with core := { c with bins := c.bins ++ [x] } } : State).scalarResult d.toNat (BitVec.ofNat 64 i)

/-! ## Ferry instructions -/

/-- The word that SEGQ writes (R269). -/
def State.segmentWord (s : State) (a : DWord) : DWord :=
  match s.wave.env.segmentOf a, s.gridAt s.wave.env.grid with
  | some seg, some g =>
    match g.map.bind fun m => m.entry seg with
    | none => 0x8000000000000000
    | some x =>
      let occ := x.replicas.foldl (fun n t => min n (s.occupancy g t)) (s.occupancy g x.primary)
      let here := x.holders.any fun t => g.coreOf t == some s.wave.core
      BitVec.ofNat 64 (occ % 2 ^ 12 * 2 ^ 16 + x.replicas.length * 2 ^ 9 + (if here then 2 ^ 8 else 0) + seg)
  | _, _ => 0x8000000000000000

/-- SEGQ (R269). -/
def execSegq (d a : BitVec 7) (s : State) : Out :=
  s.group { ss := [d.toNat, a.toNat], lookout := false } fun _ =>
    if s.wave.env.ferry = false then s.trapCode 0x01
    else (s.issueLong 0 [.scal d.toNat (s.segmentWord (s.wave.s a.toNat))]).done

/-- FERRY (R270). -/
def execFerry (a : BitVec 7) (s : State) : Out :=
  s.group { terminal := true, live := true, ss := [a.toNat], lookout := false } fun h =>
    let t := s.wave.s a.toNat
    if s.wave.env.ferry = false then s.trapCode 0x01
    else
      match s.targetFault true t with
      | some c => s.trapAddr c .read t
      | none => s.depart t h

end Sys2Proof.Machine
end

