-- ==== Sys2Proof/Machine/Atomics.lean ====
section
/-!
DEFINITION. Atomics (R302 to R305). An atomic is held by the quarantine like a store and performed at its release, lane by
lane; it completes, as a long-latency instruction, when its last old value has been written.
-/
namespace Sys2Proof.Machine

/-- The place of an atomic: alignment, space (private space is refused, R292), then rights to read and to write. -/
def State.atomicReach (s : State) (l : Nat) (a : DWord) (size : Nat) : Except Nat (List Place) :=
  if a.toNat % size ≠ 0 then .error causeMisaligned
  else if spaceOf a = 0 then .error (if s.undecodable s.wave.env a then causeTranslation else causePermission)
  else
    match s.reach .write l a size with
    | .error c => .error c
    | .ok ps =>
      match s.reach .read l a size with
      | .error c => .error c
      | .ok _ => .ok ps

/-- The operations of the wave in an ordering stream that have not completed (R305, R316). -/
def State.openInStream (s : State) (n : Nat) : List Nat :=
  (s.ops.filter fun o => o.core == s.wave.core && o.slot == s.wave.slot && o.stream == n && !o.ended).map (·.id)

/-- One atomic step held by the quarantine. -/
def State.holdAtomic (s : State) (h : Hints) (p : Place) (a : AtomicOp) (ll : Nat) (dst : List RegWrite) : State :=
  let after := match h.stream with
    | some n => s.openInStream n
    | none => []
  s.holdAs (h.policy.getD 0) false (.atomic p a ll dst h.observers.isSome after none)

/-- The hints and registers of an atomic (R167, R168, R302). -/
def atomicForm (c : Nat) (x : Extra) (vs ss : List Nat) : Form :=
  { counts := if c = 1 then [1] else [0], extra := if c = 1 then x else .none, policy := true, observers := true, stream := true,
    vs := vs, ss := ss, lookout := false }

/-- VATOM (R304). -/
def execVatom (d a b : BitVec 7) (w : BitVec 1) (c : BitVec 4) (s : State) : Out :=
  let wide := decide (w = 1)
  let size := if wide then 8 else 4
  let regs := dataRegs d.toNat size ++ dataRegs b.toNat size ++ [a.toNat, a.toNat + 1]
  s.group (atomicForm c.toNat (if wide then .vectorEven else .vector) regs []) fun h =>
    if s.acquiring then s.wait
    else
      let v := s.wave
      let e := h.extra.headD 0
      let rd := fun r l => if wide then v.pair r l else (v.v r l).setWidth 64
      let rs := v.active.map fun l =>
        { lane := l, addr := v.pair a.toNat l, res := s.atomicReach l (v.pair a.toNat l) size : LaneAccess }
      let good := passing rs
      let ll := s.ids
      let s1 := s.issueLong good.length []
      let s2 := good.foldl (fun t g =>
        t.holdAtomic h (g.2.headD (.mem 0)) { op := c.toNat, size := size, b := rd b.toNat g.1, e := rd e g.1 } ll
          ((dataRegs d.toNat size).map fun r => .vec r g.1 0)) s1
      s2.laneFaults s .write State.doneEnd (failing rs)

/-- SATOM (R304): one step for the wave, whatever `exm` holds. -/
def execSatom (d a b : BitVec 7) (w : BitVec 1) (c : BitVec 4) (s : State) : Out :=
  let wide := decide (w = 1)
  let size := if wide then 8 else 4
  s.group (atomicForm c.toNat .scalar [] [d.toNat, a.toNat, b.toNat]) fun h =>
    if s.acquiring then s.wait
    else
      let v := s.wave
      let rd := fun r => if wide then v.s r else ((v.s r).setWidth 32).setWidth 64
      let addr := v.s a.toNat
      match s.atomicReach 0 addr size with
      | .error x => s.trapAddr x .write addr
      | .ok ps =>
        let op : AtomicOp := { op := c.toNat, size := size, b := rd b.toNat, e := rd (h.extra.headD 0) }
        ((s.issueLong 1 []).holdAtomic h (ps.headD (.mem 0)) op s.ids [.scal d.toNat 0]).doneEnd

/-! ## The new value (R303) -/

/-- The signed reading of an operand of a size in bytes. -/
def signedOf (size : Nat) (x : DWord) : Int := sextN (8 * size) x.toNat

/-- An f32 result of the sum, minimum or maximum of an atomic: rounded to nearest even without flush, no flags (R303). -/
def atomicFloat (x : Exact) : Option DWord := some (BitVec.ofNat 64 (Fmt.f32.finish .plain x).code)

/-- The value that an atomic writes for the old value `m`; none for a CAS that does not match (R303). -/
def AtomicOp.newValue (a : AtomicOp) (m : DWord) : Option DWord :=
  let x := Fmt.f32.decode (m.toNat % 2 ^ 32)
  let y := Fmt.f32.decode (a.b.toNat % 2 ^ 32)
  match a.op with
  | 0 => some a.b
  | 1 => if m = a.e then some a.b else none
  | 2 => some (m + a.b)
  | 3 => some (m &&& a.b)
  | 4 => some (m ||| a.b)
  | 5 => some (m ^^^ a.b)
  | 6 => some (if signedOf a.size m ≤ signedOf a.size a.b then m else a.b)
  | 7 => some (if signedOf a.size a.b ≤ signedOf a.size m then m else a.b)
  | 8 => some (if m ≤ a.b then m else a.b)
  | 9 => some (if a.b ≤ m then m else a.b)
  | 10 => atomicFloat (sumExact .rne [x, y])
  | 11 => atomicFloat (minmaxExact false x y)
  | 12 => atomicFloat (minmaxExact true x y)
  | _ => none

end Sys2Proof.Machine
end

