-- ==== Sys2Proof/Machine/Receive.lean ====
section
/-!
DEFINITION. What every packet meets that arrives from the fabric: its header check (R356, R470), relaying (R359), the order of
its channel (R357), and a lost sender (R472).
-/
namespace Sys2Proof.Machine

/-- The row of the opcode table for a packet, by its message type (R356). -/
def packetEvent (p : FabPacket) : Option Instr :=
  match p.op with
  | 0x01 => some (.readShared p)
  | 0x02 => some (.readOwn p)
  | 0x03 => some (.upgrade p)
  | 0x04 => some (.writeback p)
  | 0x05 => some (.controlAtomic p)
  | 0x10 => some (.dataShared p)
  | 0x11 => some (.dataExclusive p)
  | 0x12 => some (.completion p)
  | 0x13 => some (.forwardedRead p)
  | 0x14 => some (.invalidate p)
  | 0x15 => some (.acknowledgement p)
  | 0x16 => some (.mirrorUpdate p)
  | 0x17 => some (.mirrorAcknowledgement p)
  | 0x20 => some (.tensorRead p)
  | 0x21 => some (.tensorWrite p)
  | 0x22 => some (.remoteAtomic p)
  | 0x23 => some (.collectiveData p)
  | 0x30 => some (.readData p)
  | 0x31 => some (.writeCompletion p)
  | 0x32 => some (.atomicResult p)
  | 0x33 => some (.collectiveAcknowledgement p)
  | 0x34 => some (.faultRefusal p)
  | 0x35 => some (.frozenRefusal p)
  | 0x40 => some (.spdmMessage p.port p)
  | 0x44 => some (.linkState p.port p)
  | 0x41 => some (.streamResume p)
  | 0x42 => some (.streamAbort p)
  | 0x43 => some (.sharerRecall ((p.opnd.getD 1 0).toNat % 16) p)
  | _ => none

/-- Whether a packet passes its header check (R355, R356): its CRC agrees, its type and channel, no zero field is set. -/
def headerGood (p : FabPacket) : Bool :=
  p.crc == packetCrc p && !p.top && opAssigned p.op && decide (p.vc = vcOf p.op ∧ p.flits ≤ 4 ∧ p.vi < 64 ∧ p.strmSlot < 32 ∧ p.strm < 4 ∧ p.strmCore < 512)

/-- A packet whose header check fails is dropped; the partition monitor learns the sender, the port and the channel (R470). -/
def State.headerFailed (s : State) (p : FabPacket) : State :=
  let f := s.fabric.headerFailures
  let n := ((f.find? fun x => x.1 == p.src && x.2.1 == p.vc).map (·.2.2)).getD 0
  let rest := f.filter fun x => !(x.1 == p.src && x.2.1 == p.vc)
  ({ s with fabric := { s.fabric with headerFailures := (p.src, p.vc, n + 1) :: rest } } : State).tell
    (.headerFailed p.src p.port p.vc)

/-- A port leaves the state it is in for the error state (R364): what it had not had acknowledged goes another way. -/
def State.portError (s : State) (x : Port) : State :=
  let s := s.setPort { x with state := .error, finished := false, runCommanded := false, peerRun := false, unacked := [], waiting := [] }
  if x.state = .running then (x.unacked ++ x.waiting).foldl State.dispatchPacket s else s

/-- Whether a port in its state accepts a packet (R364): before the run state, link-state and SPDM packets on VC4. -/
def Port.accepts (x : Port) (p : FabPacket) : Bool :=
  decide (x.state = .running) ||
    (p.vc == 4 && (p.op == opLinkState || p.op == opSpdm) && decide (x.state = .unlocked ∨ x.state = .locked))

/-- Whether the tag of a packet and its counter agree with the port's key (R363): there is one once the exchange has finished. -/
def Port.authentic (x : Port) (p : FabPacket) : Bool := p.tagOk && (!x.finished || p.ctr == x.rxCount)

/-- Whether a sequence number of 32 bits comes before another (R355). -/
def comesBefore (a b : Nat) : Bool := decide (a ≠ b ∧ (b + 2 ^ 32 - a) % 2 ^ 32 < 2 ^ 31)

/-- The sequence number expected from a package on a channel (R357). -/
def Fabric.expected (f : Fabric) (src vc : Nat) : Nat :=
  ((f.seqIn.find? fun x => x.1 == src && x.2.1 == vc).map (·.2.2)).getD 0

/-- The packet with the expected number has been taken. -/
def Fabric.accept (f : Fabric) (src vc : Nat) : Fabric :=
  let rest := f.seqIn.filter fun x => !(x.1 == src && x.2.1 == vc)
  { f with seqIn := (src, vc, (f.expected src vc + 1) % 2 ^ 32) :: rest }

/-- The next packet of a channel, if it waits in the reorder buffer, is delivered next. -/
def State.deliverNext (s : State) (src vc : Nat) : State :=
  let q := s.fabric.reorder.find? fun p => p.src == src && p.vc == vc && p.seq == s.fabric.expected src vc
  match q with
  | none => s
  | some p =>
    match packetEvent p with
    | some i => s.soon (.op i)
    | none => s

/-- A packet is kept here until it can be served (R33, R284). -/
def State.keepIn (s : State) (p : FabPacket) : State :=
  { s with fabric := { s.fabric with heldIn := s.fabric.heldIn ++ [p] } }

/-- A packet that has come through its port: one to be relayed goes on (R359), a lost sender's is dropped (R472), one that comes
early waits in the reorder buffer (R357). -/
def State.letIn (s : State) (p : FabPacket) (k : State → Out) : Out :=
  let f := s.fabric
  if p.dst ≠ s.pkg then
    match p.relayed, s.portTo p.dst with
    | true, some x => .next (s.place1 p x)
    | _, _ => .next s
  else if f.lost.contains p.src then .next s
  else if headerGood p = false then .next (s.headerFailed p)
  else if p.seq ≠ f.expected p.src p.vc then
    if comesBefore p.seq (f.expected p.src p.vc) then .next s
    else if 256 ≤ (f.reorder.filter (·.src == p.src)).length then s.skip
    else .next { s with fabric := { f with reorder := f.reorder ++ [p] } }
  else
    match k { s with fabric := f.accept p.src p.vc } with
    | .next t => .next (t.deliverNext p.src p.vc)
    | z => z

/-- A packet of a type arrives on its port, which accepts it in its state, or goes to the error state when the link's
authentication fails (R363, R364). A packet kept here is served without a further check, one of the reorder buffer in its turn. -/
def State.receive (s : State) (p : FabPacket) (op : Nat) (k : State → Out) : Out :=
  let f := s.fabric
  if p.op ≠ op then s.skip
  else if f.heldIn.contains p then k { s with fabric := { f with heldIn := f.heldIn.erase p } }
  else if p.src = s.pkg then k s
  else if f.reorder.contains p then ({ s with fabric := { f with reorder := f.reorder.erase p } } : State).letIn p k
  else
    match s.portAt p.port with
    | none => s.skip
    | some x =>
      if x.authentic p = false then .next (if x.state = .locked ∨ x.state = .running then s.portError x else s)
      else if x.accepts p = false ∨ (p.relayed = false ∧ x.peer ≠ p.src) then .next s
      else (s.setPort { x with rxCount := x.rxCount + 1 }).letIn p k

end Sys2Proof.Machine
end

