-- ==== Sys2Proof/Machine/Transfer.lean ====
section
/-!
DEFINITION. How the copy and gather engines perform their transfers (R312 to R316): byte by byte on this package, and by
read and write requests to another.
-/
namespace Sys2Proof.Machine

/-- One destination byte: the bits that are written, each from a bit of a source byte; the bits written as zero; whether the
other bits keep their value or are written as zero too. -/
structure ByteMove where
  dst : DWord
  bits : List (Nat × DWord × Nat)
  clear : Nat
  keep : Bool
  deriving DecidableEq, Repr

def ByteMove.whole (dst src : DWord) : ByteMove :=
  { dst := dst, bits := (List.range 8).map fun j => (j, src, j), clear := 0, keep := false }

/-- The source bytes that a move reads. -/
def ByteMove.sources (m : ByteMove) : List DWord := (m.bits.map fun b => b.2.1).eraseDups

/-- The bits that a move writes. -/
def ByteMove.mask (m : ByteMove) : Nat := if m.keep then m.bits.foldl (fun n b => n + 2 ^ b.1) m.clear else 255

/-- The value of a move, from the source bytes and the old byte. -/
def ByteMove.value (m : ByteMove) (src : DWord → Byte) (old : Byte) : Byte :=
  let new := m.bits.foldl (fun n b => n + if (src b.2.1).getLsbD b.2.2 then 2 ^ b.1 else 0) 0
  BitVec.ofNat 8 new ||| (old &&& BitVec.ofNat 8 (255 - m.mask))

/-- The geometry of a tile copy (R314). -/
structure Tile where
  d : TDesc
  cols : Nat
  rows : Nat
  c0 : Nat
  r0 : Nat
  near : DWord

namespace Tile

/-- The byte length of a near row: q of R314. -/
def q (t : Tile) : Nat := (t.d.rowBytes t.cols + 15) / 16 * 16

/-- The columns and rows that lie inside the tensor. -/
def colsIn (t : Tile) : Nat := min t.cols (t.d.dim 0 - t.c0)
def rowsIn (t : Tile) : Nat := min t.rows (t.d.dim 1 - t.r0)

/-- The bit of a tensor row at which the tile begins. -/
def first (t : Tile) : Nat := t.c0 * t.d.bits

/-- The bits of a row up to which the tile writes: with the last element of a row go the unused bits of its last byte or
group, as zero (R73). -/
def last (t : Tile) : Nat :=
  if t.c0 + t.colsIn = t.d.dim 0 then 8 * t.d.rowBytes (t.d.dim 0) else t.first + t.colsIn * t.d.bits

/-- The bytes of a tensor row that the tile touches. -/
def rowLen (t : Tile) : Nat := if t.colsIn = 0 then 0 else (t.last - 1) / 8 - t.first / 8 + 1

/-- Near byte u, tensor to near: code bits inside the tensor, zero elsewhere. -/
def toNear (t : Tile) (u : Nat) : ByteMove :=
  let r := u / t.q
  let i := u % t.q
  { dst := t.near + BitVec.ofNat 64 u,
    bits := (List.range 8).filterMap fun j =>
      if r < t.rowsIn ∧ 8 * i + j < t.colsIn * t.d.bits then
        some (j, t.d.rowAddr (t.r0 + r) 0 0 ((t.first + 8 * i + j) / 8), (t.first + 8 * i + j) % 8)
      else none,
    clear := 0, keep := false }

/-- Touched tensor byte u, near to tensor: the bits of elements inside the tile and the row's unused bits, the others kept. -/
def toTensor (t : Tile) (u : Nat) : ByteMove :=
  let r := u / t.rowLen
  let b := t.first / 8 + u % t.rowLen
  { dst := t.d.rowAddr (t.r0 + r) 0 0 b,
    bits := (List.range 8).filterMap fun j =>
      let n := 8 * b + j - t.first
      if t.first ≤ 8 * b + j ∧ n < t.colsIn * t.d.bits then
        some (j, t.near + BitVec.ofNat 64 (r * t.q + n / 8), n % 8)
      else none,
    clear := (List.range 8).foldl (fun n j =>
      n + if t.first + t.colsIn * t.d.bits ≤ 8 * b + j ∧ 8 * b + j < t.last then 2 ^ j else 0) 0,
    keep := true }

/-- The number of destination bytes of the copy. -/
def units (t : Tile) (toTensor : Bool) : Nat := if toTensor then t.rowsIn * t.rowLen else t.rows * t.q

end Tile

/-- Destination byte u of an operation. -/
def AsyncOp.move (o : AsyncOp) (u : Nat) : ByteMove :=
  match o.kind with
  | .copyT t cols rows c0 r0 back =>
    let tile : Tile := { d := { bytes := t }, cols := cols, rows := rows, c0 := c0, r0 := r0, near := o.dst }
    if back then tile.toTensor u else tile.toNear u
  | .gather size addrs =>
    match addrs[u / size]? with
    | some (l, a) => .whole (o.dst + BitVec.ofNat 64 (l * size + u % size)) (a + BitVec.ofNat 64 (u % size))
    | none => .whole o.dst o.src
  | _ => .whole (o.dst + BitVec.ofNat 64 u) (o.src + BitVec.ofNat 64 u)

/-- The member that an address names when it lies on another package. -/
def State.remoteOf (s : State) (o : AsyncOp) (a : DWord) : Option Member :=
  if spaceOf a = 3 then
    match s.viewOf o.env.vi (a.toNat % 2 ^ 61 / 2 ^ 40) with
    | some m => if m.pkg = s.pkg then none else some m
    | none => none
  else none

/-- Whether the engines work for a VI: it is active and not being pre-empted (R32, R450). -/
def State.viRuns (s : State) (vi : Nat) : Bool :=
  match s.viAt vi with
  | some v => decide (v.phase = .active) && v.preempt.isNone
  | none => false

/-- The places of a list of addresses. -/
def AsyncOp.placesOf (o : AsyncOp) (as_ : List DWord) : Option (List Place) :=
  as_.foldr (fun a r =>
    match o.place a, r with
    | some p, some ps => some (p :: ps)
    | _, _ => none) (some [])

/-- Moves made on this package, with the source bytes given or read here, their poison, and the old bits kept. -/
def State.makeMoves (s : State) (o : AsyncOp) (ms : List ByteMove) (src : DWord → Byte) (bad : DWord → Bool) : State :=
  match o.placesOf (ms.map (·.dst)) with
  | none => s
  | some ps =>
    (s.writePoison ps ((ms.zip ps).map fun x => x.1.value src (s.released x.2)) (ms.map fun m => m.sources.any bad)).written
      none o.policy ps

/-- The ASID of an operation at another package (R355). -/
def State.remoteAsid (s : State) (o : AsyncOp) (m : Member) : Nat :=
  match s.viAt o.env.vi with
  | some v => m.asidBase + (o.env.asid - v.desc.asidBase)
  | none => m.asidBase

/-- A tensor request of an operation to a member (R355, R368). -/
def State.tensorRequest (s : State) (o : AsyncOp) (m : Member) (op : Nat) (a : DWord) (len : Nat) (opnd : List DWord)
    (payload : List Byte) (bad : Bool) (off n : Nat) : State :=
  s.request { s.packet m.pkg op with vi := m.vi, asid := s.remoteAsid o m, strmCore := o.core, strmSlot := o.slot,
                                     strm := o.stream, len := len, addr := a.toNat % 2 ^ 44, opnd := opnd,
                                     payload := payload, poisoned := bad } o.id off n false

/-- The byte that an operation reads on this package at an address. -/
def State.opByte (s : State) (o : AsyncOp) (a : DWord) : Byte := ((o.place a).map s.released).getD 0
def State.opPoison (s : State) (o : AsyncOp) (a : DWord) : Bool := ((o.place a).map s.poisoned).getD false

/-- The least and the greatest of some addresses. -/
def addrSpan (as_ : List DWord) : Nat × Nat :=
  as_.foldl (fun r a => (min r.1 a.toNat, max r.2 a.toNat)) (2 ^ 64, 0)

/-- Whether addresses follow one another. -/
def isRun : List DWord → Bool
  | a :: b :: rest => b == a + 1 && isRun (b :: rest)
  | _ => true

/-- Part of a transfer is performed: units `off` to `off + n` (R312, R314, R315). The engine waits for a line or region that
another side holds. -/
def State.performMoves (s : State) (o : AsyncOp) (off n : Nat) : Out :=
  let ms := (List.range n).map fun i => o.move (off + i)
  let srcs := (ms.flatMap ByteMove.sources).eraseDups
  let dsts := ms.map (·.dst)
  let o' := { o with left := takeRange o.left off n }
  let toDst := dsts.findSome? (s.remoteOf o)
  let fromSrc := srcs.findSome? (s.remoteOf o)
  let masks := ms.map ByteMove.mask
  if (srcs ++ dsts).any (s.windowGone o) then .next (s.endOp o .remoteAbort)
  else
  match toDst, fromSrc with
  | some m, _ =>
    if 256 < n ∨ isRun dsts = false ∨ (masks.drop 1).dropLast.all (· == 255) = false then s.skip
    else if s.fabric.lost.contains m.pkg then .next (s.endOp o .peerLost)
    else
      match o.placesOf srcs with
      | none => .next (s.endOp o .remoteAbort)
      | some ps =>
        if s.breaks o.env.vi o.mode ps then .next ((s.freeze o.env.vi 2).endOp o .remoteAbort)
        else if s.hostDown ps then .next (s.endOp o .hostLinkDown)
        else if ps.any fun p => !s.available false p then .next (s.askOp o false ps)
        else
          .next (((s.setOp o').homeReads o.policy ps).tensorRequest o m opTensorWrite (dsts.headD 0) n
            [BitVec.ofNat 64 (masks.headD 255), BitVec.ofNat 64 (masks.getLastD 255)]
            (ms.map fun x => x.value (s.opByte o) 0) (srcs.any (s.opPoison o)) off n)
  | none, some m =>
    let span := addrSpan srcs
    if 256 < span.2 - span.1 + 1 then s.skip
    else if s.fabric.lost.contains m.pkg then .next (s.endOp o .peerLost)
    else
      .next ((s.setOp o').tensorRequest o m opTensorRead (BitVec.ofNat 64 span.1) (span.2 - span.1 + 1) [] [] false off n)
  | none, none =>
    match o.placesOf srcs, o.placesOf dsts with
    | some ps, some qs =>
      if s.breaks o.env.vi o.mode (ps ++ qs) then .next ((s.freeze o.env.vi 2).endOp o .remoteAbort)
      else if s.hostDown (ps ++ qs) then .next (s.endOp o .hostLinkDown)
      else if (ps.any fun p => !s.available false p) || (qs.any fun p => !s.available true p) then
        .next ((s.askOp o false ps).askOp o true qs)
      else .next (((s.setOp o').homeReads o.policy ps).makeMoves o ms (s.opByte o) (s.opPoison o))
    | _, _ => .next (s.endOp o .remoteAbort)

/-- Whether a transfer may perform a range now. -/
def State.mayPerform (s : State) (o : AsyncOp) (off n : Nat) : Bool :=
  o.started && !o.ended && hasRange o.left off n && !s.heldBack o && s.viRuns o.env.vi &&
    match o.kind with
    | .gather size _ => decide (off % size = 0 ∧ n % size = 0)
    | _ => true

/-- Whether every address of a transfer lies on this package. -/
def State.isLocalOp (s : State) (o : AsyncOp) : Bool :=
  o.home == s.pkg &&
    match o.kind with
    | .gather _ addrs => addrs.all fun x => (s.remoteOf o x.2).isNone
    | .copyT t _ _ _ _ _ => (s.remoteOf o (TDesc.base { bytes := t })).isNone
    | _ => (s.remoteOf o o.src).isNone

/-- Whether requests of an operation are unanswered. -/
def State.awaiting (s : State) (id : Nat) : Bool := s.fabric.requests.any (·.op == id)

/-- A transfer completes (R312, R315): what is left of a transfer on this package is performed, and it ends. -/
def State.transferComplete (s : State) (o : AsyncOp) (st : OpStatus) : Out :=
  if o.started = false ∨ o.ended = true then s.skip
  else if st ≠ .success then
    if o.status = some st then .next (s.endOp o st) else s.skip
  else if s.awaiting o.id then s.skip
  else if o.left.isEmpty then .next (s.endOp o .success)
  else if s.isLocalOp o = false ∨ s.heldBack o = true ∨ s.viRuns o.env.vi = false then s.skip
  else
    o.left.foldl (fun r x =>
      match r with
      | .next s' =>
        match s'.opAt o.id with
        | some o' => if o'.ended then .next s' else s'.performMoves o' x.1 x.2
        | none => .next s'
      | z => z) (Host.Outcome.next s) |> fun r =>
    match r with
    | .next s' =>
      match s'.opAt o.id with
      | some o' => if o'.ended ∨ o'.left.isEmpty = false then .next s' else .next (s'.endOp o' .success)
      | none => .next s'
    | z => z

/-- COPY_COMPLETE (R308, R310, R312). -/
def execCopyComplete (id : Nat) (st : OpStatus) (s : State) : Out :=
  match s.opAt id with
  | none => s.skip
  | some o =>
    match o.kind with
    | .copy => s.transferComplete o st
    | .copyT _ _ _ _ _ _ => s.transferComplete o st
    | _ => s.skip

/-- GATHER_COMPLETE (R315). -/
def execGatherComplete (id : Nat) (st : OpStatus) (s : State) : Out :=
  match s.opAt id with
  | none => s.skip
  | some o =>
    match o.kind with
    | .gather _ _ => s.transferComplete o st
    | _ => s.skip

end Sys2Proof.Machine
end

