-- ==== Sys2Proof/Machine/Remote.lean ====
section
/-!
DEFINITION. Remote tensor requests at their home and their answers at the source (R33, R368 to R373), and XRATOM (R374, R375).
-/
namespace Sys2Proof.Machine

/-! ## At the home (R368 to R371) -/

/-- The stream of a request (R369). -/
def streamOf (p : FabPacket) : Stream := { pkg := p.src, core := p.strmCore, slot := p.strmSlot, strm := p.strm }

/-- The tensor-space address of a request at its home. -/
def State.homeAddr (s : State) (p : FabPacket) (i : Nat) : DWord :=
  BitVec.ofNat 64 (3 * 2 ^ 61 + (s.ownIndex p.vi).getD 0 * 2 ^ 40 + (p.addr + i) % 2 ^ 40)

/-- The places of a request's bytes; else the cause and the first failing offset. Page rights are checked without a mode, which
a request does not carry (log entry 29). -/
def State.homePlaces (s : State) (p : FabPacket) (acc : Access) (n : Nat) : Except (Nat × Nat) (List Place) :=
  (List.range n).foldr (fun i r =>
    match s.translate (agentEnv p.vi p.asid 1024) .supervisor acc (s.homeAddr p i), r with
    | .error c, _ => .error (c, i)
    | .ok _, .error e => .error e
    | .ok k, .ok ps => .ok (.mem k :: ps)) (.ok [])

/-- A VI-absent answer carries the status in its first operand (log entry 30). -/
def State.answerAbsent (s : State) (p : FabPacket) (op : Nat) : State :=
  s.post { s.packet p.src op with tag := p.tag, vi := p.vi, asid := p.asid, strmCore := p.strmCore, strmSlot := p.strmSlot,
                                  strm := p.strm, opnd := [BitVec.ofNat 64 (statusCode .viAbsent)] }

/-- The remote-fault record of a fault (R370). -/
def State.writeFaultRecord (s : State) (v : Vi) (p : FabPacket) (cause i kind : Nat) : State :=
  let seq := v.remoteFaults + 1
  let src := ((v.view.find? (·.pkg == p.src)).map (·.ix)).getD 0
  let bs := bytesOf 1 src ++ bytesOf 1 cause ++ bytesOf 2 p.strmCore ++ bytesOf 1 p.strmSlot ++ bytesOf 1 p.strm ++
    bytesOf 1 kind ++ [0] ++ bytesOf 8 (s.homeAddr p i).toNat ++ bytesOf 4 seq ++ List.replicate 12 0
  let s := s.tableWrite v (0x12000 + 32 * ((seq - 1) % 256)) bs
  (s.setVi { v with remoteFaults := seq, unanswered := v.unanswered ++ [(seq, streamOf p)] }).tell (.remoteFault v.vi seq)

/-- A message about a stream on VC4 (R371). -/
def State.streamMessage (s : State) (st : Stream) (op : Nat) : State :=
  s.post { s.packet st.pkg op with strmCore := st.core, strmSlot := st.slot, strm := st.strm }

/-- The streams of a request's source core that are frozen here (R372). -/
def State.frozenOf (s : State) (p : FabPacket) : Nat :=
  (s.fabric.homeFrozen.filter fun x => x.pkg == p.src && x.core == p.strmCore).length

/-- A fault of a request freezes its stream; with 256 records unanswered, or 64 frozen streams of its core, the stream is aborted instead
and no record is written (R369, R370, R372). -/
def State.refuseFault (s : State) (v : Vi) (p : FabPacket) (c i kind : Nat) : State :=
  let s1 := s.answer p opFaultRefusal [] false
  if 256 ≤ v.unanswered.length ∨ 64 ≤ s.frozenOf p then s1.streamMessage (streamOf p) opStreamAbort
  else
    let s2 := { s1 with fabric := { s1.fabric with homeFrozen := s1.fabric.homeFrozen ++ [streamOf p] } }
    s2.writeFaultRecord v p (if c = causeTranslation then 1 else 2) i kind

/-- A request whose places are refused at its home: it waits for the record's line, else its stream freezes (R276, R369, R370). -/
def State.faultOr (s : State) (v : Vi) (p : FabPacket) (c i kind : Nat) : State :=
  let o := 0x12000 + 32 * (v.remoteFaults % 256)
  if s.tableReady v true o 32 then s.refuseFault v p c i kind else (s.tableAsk v true o 32).keepIn p

/-- A tensor request at its home: an absent VI, a frozen VI, a frozen stream, a fault, a line or region that is not at hand, or
its performance (R33, R368, R369). -/
def State.serveTensor (s : State) (p : FabPacket) (acc : Access) (n kind reply : Nat) (k : List Place → State → State) : Out :=
  match s.viAt p.vi with
  | none => .next (s.answerAbsent p reply)
  | some v =>
    if v.phase = .absent ∨ v.phase = .teardown then .next (s.answerAbsent p reply)
    else if v.phase = .frozen ∨ s.fabric.heldIn.any (fun q => streamOf q == streamOf p && q.vc == p.vc && q.tag != 0 && comesBefore q.seq p.seq) = true then
      .next (s.keepIn p)
    else if s.fabric.homeFrozen.contains (streamOf p) then .next (s.answer p opFrozenRefusal [] false)
    else
      match (if kind = 2 then (s.homePlaces p acc n).bind fun _ => s.homePlaces p .read n else s.homePlaces p acc n) with
      | .error e => .next (s.faultOr v p e.1 e.2 kind)
      | .ok ps =>
        if ps.any fun q => !s.available (acc == .write) q then
          .next ((ps.foldl (fun s q => s.askFor 0 0 (acc == .write) q) s).keepIn p)
        else .next (k ps s)

/-- TENSOR_READ (R368). -/
def execTensorRead (p : FabPacket) (s : State) : Out :=
  s.receive p opTensorRead fun s =>
    s.serveTensor p .read p.len 0 opReadData fun ps s =>
      (s.homeReads 0 ps).answer p opReadData (ps.map s.released) (ps.any s.poisoned)

/-- The bytes of a write under the masks of its first and last byte (log entry 30). -/
def maskedBytes (old new : List Byte) (opnd : List DWord) : List Byte :=
  let n := new.length
  ((old.zip new).zipIdx).map fun x =>
    let m1 : Byte := if x.2 = 0 then (opnd.getD 0 255).setWidth 8 else 255
    let m2 : Byte := if x.2 + 1 = n then (opnd.getD 1 255).setWidth 8 else 255
    (x.1.1 &&& ~~~(m1 &&& m2)) ||| (x.1.2 &&& (m1 &&& m2))

/-- TENSOR_WRITE (R368). -/
def execTensorWrite (p : FabPacket) (s : State) : Out :=
  s.receive p opTensorWrite fun s =>
    s.serveTensor p .write p.len 1 opWriteCompletion fun ps s =>
      let bs := maskedBytes (ps.map s.released) p.payload p.opnd
      ((s.writePoison ps bs (bs.map fun _ => p.poisoned)).written none 0 ps).answer p opWriteCompletion [] false

/-- The atomic of a request's operands: control scalar, operand, expected value (R355, R374). -/
def atomicOf (opnd : List DWord) : AtomicOp :=
  let c := (opnd.getD 0 0).toNat
  let wide := decide (bitsN c 4 4 = 1)
  let cut := fun x : DWord => if wide then x else (x.setWidth 32).setWidth 64
  { op := bitsN c 3 0, size := if wide then 8 else 4, b := cut (opnd.getD 1 0), e := cut (opnd.getD 2 0) }

/-- An atomic performed at its places: the old value (R303). -/
def State.doAtomic (s : State) (ps : List Place) (a : AtomicOp) : DWord × State :=
  let old := BitVec.ofNat 64 (numOf (ps.map s.released))
  match a.newValue old with
  | some x => (old, s.setBytes ps (bytesOf a.size x.toNat))
  | none => (old, s)

/-- REMOTE_ATOMIC (R375). -/
def execRemoteAtomic (p : FabPacket) (s : State) : Out :=
  s.receive p opRemoteAtomic fun s =>
    let a := atomicOf p.opnd
    s.serveTensor p .write a.size 2 opAtomicResult fun ps s =>
      let r := s.doAtomic ps a
      (r.2.written none 0 ps).answer p opAtomicResult (bytesOf a.size r.1.toNat) (ps.any s.poisoned)

/-- The stream of an unanswered record of a VI. -/
def Vi.faultStream (v : Vi) (seq : Nat) : Option Stream := (v.unanswered.find? (·.1 == seq)).map (·.2)

/-- An answer to a fault record (R371): the stream thaws at the home, and the source is told. An unknown record is ignored. -/
def State.answerFault (s : State) (vi seq op : Nat) : Out :=
  match s.viAt vi with
  | none => s.skip
  | some v =>
    match v.faultStream seq with
    | none => .next s
    | some st =>
      let s1 := s.setVi { v with unanswered := v.unanswered.filter (·.1 != seq) }
      .next (({ s1 with fabric := { s1.fabric with homeFrozen := s1.fabric.homeFrozen.filter (· != st) } } : State).streamMessage st op)

/-- FAULT_PAGE_RESUME (R371). -/
def execFaultPageResume (vi seq : Nat) (s : State) : Out := s.answerFault vi seq opStreamResume

/-- FAULT_PAGE_ABORT (R371). -/
def execFaultPageAbort (vi seq : Nat) (s : State) : Out := s.answerFault vi seq opStreamAbort

/-! ## At the source -/

/-- The operation that a request serves ends with a status. -/
def State.failRequest (s : State) (r : Request) (st : OpStatus) : State :=
  let s := s.dropRequest r.tag
  match s.opAt r.op with
  | some o => if o.ended then s else s.endOp o st
  | none => s

/-- An answer reaches its request: one without a request is dropped, a VI-absent answer ends the operation (R30, R33). -/
def State.answered (s : State) (p : FabPacket) (k : Request → AsyncOp → State → Out) : Out :=
  match s.requestAt p.tag with
  | none => .next s
  | some r =>
    if p.opnd = [BitVec.ofNat 64 (statusCode .viAbsent)] then .next (s.failRequest r .viAbsent)
    else
      match s.opAt r.op with
      | none => .next (s.dropRequest r.tag)
      | some o => k r o s

/-- READ_DATA (R312 to R315, R356): the bytes are placed by the engine. It waits for a destination that is not at hand. -/
def execReadData (p : FabPacket) (s : State) : Out :=
  s.receive p opReadData fun s =>
    s.answered p fun r o s =>
      let ms := (List.range r.len).map fun i => o.move (r.off + i)
      let src := fun a : DWord => p.payload.getD (a.toNat % 2 ^ 44 - p.addr) 0
      match o.placesOf (ms.map (·.dst)) with
      | none => .next (s.failRequest r .remoteAbort)
      | some ps =>
        if s.breaks o.env.vi o.mode ps then .next ((s.freeze o.env.vi 2).failRequest r .remoteAbort)
        else if s.hostDown ps then .next (s.failRequest r .hostLinkDown)
        else if ps.any fun q => !s.available true q then
          .next ((ps.foldl (fun s q => s.askFor o.env.grid o.env.reach true q) s).keepIn p)
        else .next ((s.dropRequest r.tag).makeMoves o ms src fun _ => p.poisoned)

/-- WRITE_COMPLETION (R356). -/
def execWriteCompletion (p : FabPacket) (s : State) : Out :=
  s.receive p opWriteCompletion fun s => s.answered p fun r _ s => .next (s.dropRequest r.tag)

/-- ATOMIC_RESULT (R356, R375): the old value waits for XRATOM_RESULT. Poison is consumed by the sender's reach (R467). -/
def execAtomicResult (p : FabPacket) (s : State) : Out :=
  s.receive p opAtomicResult fun s =>
    s.answered p fun r o s =>
      let s1 := (s.dropRequest r.tag).setOp { o with reply := some (0, 0, p.payload) }
      .next (if p.poisoned then s1.soon (.op (.poisonConsumed o.env.grid o.env.reach)) else s1)

/-- A request is kept at the source (R369). -/
def State.holdRequest (s : State) (tag : Nat) : State :=
  { s with fabric := { s.fabric with requests := s.fabric.requests.map fun r => if r.tag = tag then { r with held := true } else r } }

/-- FAULT_REFUSAL (R369, R372): the stream freezes; at 64 frozen streams of the core the request is aborted. -/
def execFaultRefusal (p : FabPacket) (s : State) : Out :=
  s.receive p opFaultRefusal fun s =>
    match s.requestAt p.tag with
    | none => .next s
    | some r =>
      let st : Stream := { pkg := p.src, core := p.strmCore, slot := p.strmSlot, strm := p.strm }
      if 64 ≤ (s.fabric.frozen.filter (·.core == p.strmCore)).length then .next (s.failRequest r .remoteAbort)
      else .next (({ s with fabric := { s.fabric with frozen := s.fabric.frozen ++ [st] } } : State).holdRequest r.tag)

/-- A request sent again, in the order of the list (R371, R373). -/
def State.resend (s : State) (r : Request) : State :=
  let again (x : Request) : Request := if x.tag = r.tag then { x with held := false, sentAt := s.clock.us, resends := x.resends + 1 } else x
  let s := { s with fabric := { s.fabric with requests := s.fabric.requests.map again } }
  s.post r.packet

/-- FROZEN_REFUSAL (R369): the request is kept; a stream that has been resumed meanwhile sends it again. -/
def execFrozenRefusal (p : FabPacket) (s : State) : Out :=
  s.receive p opFrozenRefusal fun s =>
    match s.requestAt p.tag with
    | none => .next s
    | some r => .next (if s.streamFrozen p.strmCore p.strmSlot p.strm then s.holdRequest r.tag else s.resend r)

/-- The held requests of a stream, in issue order. -/
def State.heldRequests (s : State) (p : FabPacket) : List Request :=
  s.fabric.requests.filter fun r => r.held && r.packet.strmCore == p.strmCore && r.packet.strmSlot == p.strmSlot &&
    r.packet.strm == p.strm

/-- The stream thaws for the home that answers. -/
def State.thaw (s : State) (p : FabPacket) : State :=
  let st : Stream := { pkg := p.src, core := p.strmCore, slot := p.strmSlot, strm := p.strm }
  { s with fabric := { s.fabric with frozen := s.fabric.frozen.filter (· != st) } }

/-- STREAM_RESUME (R371). -/
def execStreamResume (p : FabPacket) (s : State) : Out :=
  s.receive p opStreamResume fun s =>
    let s := s.thaw p
    .next (if s.streamFrozen p.strmCore p.strmSlot p.strm then s else (s.heldRequests p).foldl (fun s r => s.resend r) s)

/-- STREAM_ABORT (R371): the stream's held requests complete with the abort status. -/
def execStreamAbort (p : FabPacket) (s : State) : Out :=
  s.receive p opStreamAbort fun s =>
    .next ((s.heldRequests p).foldl (fun s r => s.failRequest r .remoteAbort) (s.thaw p))

/-- TENSOR_REQUEST_TIMEOUT (R373): no response for 200 microseconds. -/
def execTensorRequestTimeout (tag : Nat) (s : State) : Out :=
  match s.requestAt tag with
  | none => s.skip
  | some r =>
    if r.control = true ∨ r.held = true ∨ s.clock.us < r.sentAt + 200 then s.skip
    else .next (s.failRequest r .lostPacket)

/-! ## XRATOM (R374, R375) -/

/-- Whether a control scalar and the number of extra registers agree with R374. -/
def xratomLegal (c : DWord) (extras : Nat) : Bool :=
  let op := bitsN c.toNat 3 0
  decide (c.toNat / 2 ^ 5 = 0 ∧ op ≤ 12 ∧ extras = (if op = 1 then 2 else 1)) && !(decide (10 ≤ op) && c.getLsbD 4)

/-- The target of an XRATOM (R375): the member that holds it, and the places of its bytes when it is on this package. -/
def State.xratomTarget (s : State) (a : DWord) (size : Nat) : Except Nat (Member × List Place) :=
  if a.toNat % size ≠ 0 then .error causeMisaligned
  else if 4 ≤ spaceOf a then .error causeTranslation
  else if spaceOf a ≠ 3 then .error causePermission
  else if 2 ^ 44 ≤ a.toNat % 2 ^ 61 then .error causeTranslation
  else
    match s.viewOf s.wave.env.vi (a.toNat % 2 ^ 61 / 2 ^ 40) with
    | none => .error causeTranslation
    | some m =>
      if m.pkg ≠ s.pkg then .ok (m, [])
      else (s.atomicReach 0 a size).map fun ps => (m, ps)

/-- XRATOM (R374, R375). -/
def execXratom (d a b : BitVec 7) (s : State) : Out :=
  s.group { counts := [1, 2], extra := .scalar, stream := true, ss := [d.toNat, a.toNat, b.toNat], lookout := false } fun h =>
    let w := s.wave
    let c := w.s (h.extra.headD 0)
    let addr := w.s a.toNat
    if xratomLegal c h.extra.length = false then s.trapCode 0x01
    else
      let op := atomicOf [c, w.s b.toNat, w.s (h.extra.getD 1 0)]
      match s.xratomTarget addr op.size with
      | .error x => s.trapAddr x .write addr
      | .ok (m, _) =>
        let ll := s.ids
        let s1 := s.issueLong 1 []
        let o := s1.newOp (.xratom op d.toNat ll) none (h.stream.getD 0) none addr addr op.size
        (s1.startOp { o with pages := if m.pkg = s.pkg then s.rangePages addr op.size else [], home := m.pkg,
                             left := [(0, 1)] }).doneEnd

/-- The step of an XRATOM is sent or, at home, performed (R375). -/
def State.performXratom (s : State) (o : AsyncOp) (a : AtomicOp) : Out :=
  let o' := { o with left := [] }
  match s.remoteOf o o.dst with
  | some m =>
    if s.fabric.lost.contains m.pkg then .next (s.endOp o .peerLost)
    else
      let c := BitVec.ofNat 64 (a.op + if a.size = 8 then 16 else 0)
      .next ((s.setOp o').tensorRequest o m opRemoteAtomic o.dst a.size [c, a.b, a.e] [] false 0 1)
  | none =>
    match o.places o.dst a.size with
    | none => .next (s.endOp o .remoteAbort)
    | some ps =>
      if s.breaks o.env.vi o.mode ps then .next ((s.freeze o.env.vi 2).endOp o .remoteAbort)
      else if s.hostDown ps then .next (s.endOp o .hostLinkDown)
      else if ps.any fun q => !s.available true q then
        .next (s.askOp o true ps)
      else
        let r := s.doAtomic ps a
        let t := (r.2.written none 0 ps).setOp { o' with reply := some (0, 0, bytesOf a.size r.1.toNat) }
        .next (if ps.any s.poisoned then t.soon (.op (.poisonConsumed o.env.grid o.env.reach)) else t)

/-- XRATOM_RESULT (R310, R375): on success sd takes the old value; the flag clears either way. -/
def execXratomResult (id : Nat) (st : OpStatus) (s : State) : Out :=
  match s.opAt id with
  | none => s.skip
  | some o =>
    match o.kind, o.reply with
    | .xratom _ d ll, some (_, _, bs) =>
      if st ≠ .success ∨ o.ended = true then s.skip
      else
        let t := if o.orphan then s else s.resolve o.core o.slot ll [.scal d (BitVec.ofNat 64 (numOf bs))]
        .next (t.endOp o .success)
    | _, _ => s.skip

end Sys2Proof.Machine
end

