-- ==== Sys2Proof/Machine/Ring.lean ====
section
/-!
DEFINITION. The sector ring (R414 to R419): shared moves, the escape slots, injection, and leaving the ring. A shared move or an
injection takes its link for the cycles of all its flits at once, an escape move and an ejection for one flit (log entry 26).
-/
namespace Sys2Proof.Machine

/-- The next stop in a message's direction. -/
def nextStop (ccw : Bool) (stop : Nat) : Nat := if ccw then (stop + 7) % 8 else (stop + 1) % 8

/-- Whether a flit that lies at a stop has crossed the dateline, and so lies in hi (R414, R416). -/
def crossed (m : RingMsg) (stop : Nat) : Bool := if m.ccw then decide (m.org < stop) else decide (stop < m.org)

namespace RingPos

/-- Whether flit i of a message lies in shared slots at its stop: a message in escape keeps only the flits that it has not yet
moved there. -/
def inShared (p : RingPos) (stop : Nat) : Bool := !p.msg.escape || stop == p.sharedAt

/-- The shared slots that a message takes at a stop. -/
def sharedSlots (p : RingPos) (stop : Nat) : Nat := if p.inShared stop then (p.flitsAt.filter (· == stop)).length else 0

/-- Whether a message takes the escape slot of a stop's channel. -/
def takesEscape (p : RingPos) (stop : Nat) (hi : Bool) : Bool :=
  !p.inShared stop && p.flitsAt.contains stop && crossed p.msg stop == hi

/-- Whether the whole message lies in the shared slots of one stop. -/
def whole (p : RingPos) (stop : Nat) : Bool :=
  !p.msg.escape && p.flitsAt.length == p.msg.flits + 1 && p.flitsAt.all (· == stop)

/-- Whether the first flit of a message at a stop may be sent on: it came in an earlier cycle (R418). -/
def ready (p : RingPos) (now stop : Nat) : Bool := decide (p.times.getD (p.flitsAt.idxOf stop) 0 ≤ now)

/-- The slots that flits of a message empty at a stop from a cycle on, one flit a cycle (R417). -/
def empties (p : RingPos) (stop n now : Nat) : List EmptiedSlot :=
  (List.range n).map fun i =>
    { stop := stop, ccw := p.msg.ccw, cls := p.msg.cls, escape := if p.inShared stop then none else some (crossed p.msg stop),
      from_ := now + i + 1 }

end RingPos

/-- The slots of a kind that the upstream stop does not count free yet. -/
def Ring.uncounted (r : Ring) (now stop : Nat) (ccw : Bool) (cls : Nat) (escape : Option Bool) : Nat :=
  (r.emptied.filter fun x => x.stop == stop && x.ccw == ccw && x.cls == cls && x.escape == escape && decide (now < x.from_)).length

/-- The free shared slots of a stop for a direction and class (R416, R417). -/
def Ring.freeSlots (r : Ring) (now stop : Nat) (ccw : Bool) (cls : Nat) : Nat :=
  12 - (r.onRing.filter fun p => p.msg.ccw == ccw && p.msg.cls == cls).foldl (fun n p => n + p.sharedSlots stop) 0 -
    r.uncounted now stop ccw cls none

/-- Whether the escape slot of a stop's channel is free. -/
def Ring.escapeFree (r : Ring) (now stop : Nat) (ccw : Bool) (cls : Nat) (hi : Bool) : Bool :=
  (r.onRing.all fun p => p.msg.ccw != ccw || p.msg.cls != cls || !p.takesEscape stop hi) &&
    r.uncounted now stop ccw cls (some hi) == 0

/-- Whether the link out of a stop in a direction is free: no message that has begun on it has flits left to send (R418). -/
def Ring.linkFree (r : Ring) (now stop : Nat) (ccw : Bool) : Bool :=
  r.links.all fun x => x.1 != stop || x.2.1 != ccw || decide (x.2.2 ≤ now)

/-- Whether the next stop has room for a message by a shared move (R417). -/
def Ring.canShare (r : Ring) (now stop : Nat) (m : RingMsg) : Bool :=
  decide (m.flits + 1 ≤ r.freeSlots now (nextStop m.ccw stop) m.ccw m.cls)

/-- The flit of a message that may move on from a stop through the escape slot: the first one there. -/
def Ring.canEscape (r : Ring) (now stop : Nat) (p : RingPos) : Bool :=
  let n := nextStop p.msg.ccw stop
  p.flitsAt.contains stop && p.msg.dst != stop && (p.msg.escape || (p.whole stop && !r.canShare now stop p.msg)) &&
    p.ready now stop && r.linkFree now stop p.msg.ccw && r.escapeFree now n p.msg.ccw p.msg.cls (crossed p.msg n)

/-- A message of the ring replaced. -/
def Ring.set (r : Ring) (n : Nat) (p : RingPos) : Ring := { r with onRing := r.onRing.set n p }

/-- Slots have emptied, and a link is in use for some cycles; what lies in the past is forgotten. -/
def Ring.uses (r : Ring) (now : Nat) (slots : List EmptiedSlot) (link : List (Nat × Bool × Nat)) : Ring :=
  { r with emptied := (r.emptied.filter fun x => decide (now < x.from_)) ++ slots,
           links := (r.links.filter fun x => decide (now < x.2.2)) ++ link }

/-- A message that has been sent whole to a stop's shared slots in a cycle: its header lies there from the next cycle on, its other flits
follow. -/
def RingPos.sentTo (m : RingMsg) (stop now : Nat) : RingPos :=
  { msg := m, flitsAt := List.replicate (m.flits + 1) stop, sharedAt := stop, arrived := now + 1,
    times := (List.range (m.flits + 1)).map (now + 1 + ·) }

/-- Whether a message at a stop ranks before another for the link (R418): earlier arrival, then lower class. -/
def RingPos.before (p q : RingPos) : Bool := decide (p.arrived < q.arrived ∨ (p.arrived = q.arrived ∧ p.msg.cls < q.msg.cls))

/-- Whether some message in escape may use the link out of a stop in a direction. -/
def Ring.escapeWants (r : Ring) (now stop : Nat) (ccw : Bool) : Bool :=
  r.onRing.any fun p => p.msg.ccw == ccw && p.msg.escape && r.canEscape now stop p

/-- Whether a message in a stop's shared slots may make a shared move. -/
def Ring.sharedWants (r : Ring) (now stop : Nat) (p : RingPos) : Bool :=
  p.whole stop && p.msg.dst != stop && r.canShare now stop p.msg && p.ready now stop && r.linkFree now stop p.msg.ccw

/-- RING_SHARED_MOVE (R416 to R418): message n moves on whole; it goes to hi as it crosses the dateline. -/
def execRingSharedMove (stop n : Nat) (s : State) : Out :=
  let r := s.ring
  match r.onRing[n]? with
  | none => s.skip
  | some p =>
    let now := s.uncore
    let rival := r.onRing.any fun q => q.msg.ccw == p.msg.ccw && r.sharedWants now stop q && q.before p
    if r.sharedWants now stop p = false ∨ r.escapeWants now stop p.msg.ccw = true ∨ rival = true then s.skip
    else
      let t := nextStop p.msg.ccw stop
      let k := p.msg.flits + 1
      let q := RingPos.sentTo { p.msg with hi := crossed p.msg t } t now
      .next { s with ring := (r.set n q).uses now (p.empties stop k now) [(stop, p.msg.ccw, now + k)] }

/-- The first flit at a stop moves on. -/
def moveFirst (stop t : Nat) : List Nat → List Nat
  | [] => []
  | f :: fs => if f = stop then t :: fs else f :: moveFirst stop t fs

/-- RING_ESCAPE_MOVE (R417, R418): one flit of message n moves on through the escape slot. -/
def execRingEscapeMove (stop n : Nat) (s : State) : Out :=
  let r := s.ring
  match r.onRing[n]? with
  | none => s.skip
  | some p =>
    let now := s.uncore
    if r.canEscape now stop p = false then s.skip
    else
      let t := nextStop p.msg.ccw stop
      let head := decide (p.flitsAt.head? = some stop) && p.flitsAt.length == p.msg.flits + 1
      let times := (List.range p.flitsAt.length).map fun i => if i = p.flitsAt.idxOf stop then now + 1 else p.times.getD i 0
      let q := { p with msg := { p.msg with escape := true, hi := if head then crossed p.msg t else p.msg.hi },
                        flitsAt := moveFirst stop t p.flitsAt, arrived := if head then now + 1 else p.arrived, times := times }
      .next { s with ring := (r.set n q).uses now (p.empties stop 1 now) [(stop, p.msg.ccw, now + 1)] }

/-- RING_EJECT (R419): a flit of message n leaves the ring at its destination; with the last one the message has arrived. -/
def execRingEject (stop n : Nat) (s : State) : Out :=
  let r := s.ring
  match r.onRing[n]? with
  | none => s.skip
  | some p =>
    let now := s.uncore
    if p.msg.dst ≠ stop ∨ p.flitsAt.head? ≠ some stop ∨ p.ready now stop = false then s.skip
    else
      let left := p.flitsAt.drop 1
      let gone := p.empties stop 1 now
      if left.isEmpty then
        let out : Ring := { r with onRing := r.onRing.eraseIdx n, ejected := r.ejected ++ [p.msg] }
        .next { s with ring := out.uses now gone [] }
      else
        let times := (List.range left.length).map fun i => max (now + 1) (p.times.getD (i + 1) 0)
        .next { s with ring := (r.set n { p with flitsAt := left, times := times }).uses now gone [] }

/-- The first waiting message of a source. -/
def Ring.firstOf (r : Ring) (stop source : Nat) : Option RingMsg :=
  (r.waiting.find? fun x => x.1 == stop && x.2.1 == source).map (·.2.2)

/-- Whether a message may be injected (R417, R418): its link is wanted by no message on the ring, and the next stop has room. A
message for an endpoint of its own stop needs no link. -/
def Ring.mayInject (r : Ring) (now stop : Nat) (m : RingMsg) : Bool :=
  m.dst == stop || (r.canShare now stop m && r.linkFree now stop m.ccw && !r.escapeWants now stop m.ccw &&
    !(r.onRing.any fun q => q.msg.ccw == m.ccw && r.sharedWants now stop q))

/-- The turn of a source in the round robin at a stop: how far it lies after the source that injected last. -/
def Ring.turnOf (r : Ring) (stop source : Nat) : Nat :=
  let last := ((r.turn.find? (·.1 == stop)).map (·.2)).getD 63
  (source + 64 - last % 64 - 1) % 64

/-- The sources with waiting messages at a stop that may be injected. -/
def Ring.injectors (r : Ring) (now stop : Nat) : List Nat :=
  ((r.waiting.filter (·.1 == stop)).map (·.2.1)).eraseDups.filter fun x =>
    match r.firstOf stop x with
    | some m => r.mayInject now stop m
    | none => false

/-- The waiting messages without the first of a source. -/
def dropWaiting (stop source : Nat) : List (Nat × Nat × RingMsg) → List (Nat × Nat × RingMsg)
  | [] => []
  | x :: xs => if x.1 = stop ∧ x.2.1 = source then xs else x :: dropWaiting stop source xs

/-- RING_INJECTION (R417, R418): the first message of a source enters the ring on lo by a shared move, round robin among the
stop's sources. -/
def execRingInjection (stop source : Nat) (s : State) : Out :=
  let r := s.ring
  match r.firstOf stop source with
  | none => s.skip
  | some m =>
    let now := s.uncore
    if r.mayInject now stop m = false ∨ (r.injectors now stop).any (fun x => decide (r.turnOf stop x < r.turnOf stop source)) = true then
      s.skip
    else
      let r := { r with waiting := dropWaiting stop source r.waiting,
                        turn := (stop, source) :: r.turn.filter (·.1 != stop) }
      if m.dst = stop then .next { s with ring := { r with ejected := r.ejected ++ [m] } }
      else
        let t := nextStop m.ccw stop
        let p := RingPos.sentTo { m with hi := crossed m t, escape := false } t now
        let on : Ring := { r with onRing := r.onRing ++ [p] }
        .next { s with ring := on.uses now [] [(stop, m.ccw, now + m.flits + 1)] }

/-! ## Travellers that leave the network with their grid -/

/-- The ring without the messages of some travellers. -/
def Ring.without (r : Ring) (gone : Nat → Bool) : Ring :=
  let on (m : RingMsg) : Bool := m.cls == 5 && gone m.seq
  { r with onRing := r.onRing.filter fun p => !on p.msg, waiting := r.waiting.filter fun x => !on x.2.2,
           ejected := r.ejected.filter fun m => !on m }

/-- Some travellers leave the network. -/
def State.dropTravellers (s : State) (gone : Traveller → Bool) : State :=
  let tags := (s.net.filter gone).map (·.tag)
  { s with net := s.net.filter fun t => !gone t, ring := s.ring.without tags.contains }

end Sys2Proof.Machine
end

