-- ==== Sys2Proof/Machine/Startup.lean ====
section
/-!
DEFINITION. Power, start-up and the upstream link (R17 to R27, R35 to R38).
-/
namespace Sys2Proof.Machine

/-! ## The configuration record (R23 to R25) -/

/-- The PORTMAP bytes of a record. -/
def recordPorts (bs : List Byte) : List Nat := (List.range 64).map fun i => fieldAt bs (0x10 + i) 1

/-- R25: exactly DOMSIZE − 1 peers, not this package, each on its full bundle, every other port spare. -/
def portmapGood (pkg dom : Nat) (ports : List Nat) : Bool :=
  let peers := (List.range 16).filter ports.contains
  let each_ := if dom = 8 then 8 else 4
  decide (peers.length = dom - 1) && !peers.contains pkg && (peers.all fun p => (ports.filter (· == p)).length == each_)

/-- The first field of a record that fails a check of R23 to R25, by its offset. -/
def recordFault (bs : List Byte) : Option Nat :=
  let f := fieldAt bs
  let ports := recordPorts bs
  if f 0 4 ≠ 0x474F5243 then some 0
  else if f 4 2 ≠ 1 then some 4
  else if f 6 2 ≠ 0x160 then some 6
  else if Config.signatureVerifies (sha384 (bs.take 256)) (bs.drop 256) = false then some 0x100
  else if 15 < f 0x0C 1 then some 0x0C
  else if f 0x0D 1 < 8 ∨ 16 < f 0x0D 1 then some 0x0D
  else if 1 < f 0x0E 1 then some 0x0E
  else if f 0x0F 1 ≠ 0 then some 0x0F
  else if ports.any fun p => decide (16 ≤ p ∧ p ≠ 255) then some 0x10
  else if f 0xBA 70 ≠ 0 then some 0xBA
  else if portmapGood (f 0x0C 1) (f 0x0D 1) ports = false then some 0x10
  else none

/-- The record's fields as the package uses them. -/
def recordOf (bs : List Byte) : ConfigRecord :=
  let f := fieldAt bs
  { secver := f 8 4, pkg := f 0x0C 1, domsize := f 0x0D 1, selfHosted := f 0x0E 1 == 1, portmap := recordPorts bs,
    plimit := (List.range 5).map fun i => f (0xB0 + 2 * i) 2 }

/-! ## Power blocks (R17 to R19): sectors 0 to 5, slice groups 6 to 17, HBM stacks 18 to 25, port groups 26 to 41, the hub 42 -/

def Platform.mapBlocks (p : Platform) (f : PowerBlock → PowerBlock) : Platform := { p with blocks := p.blocks.map f }

/-- Blocks at operating point 7 after step 3: the hub, and the stacks but the dead one (R26, R27). -/
def Platform.memoryOn (p : Platform) (dead : Option Nat) : Platform :=
  p.mapBlocks fun b =>
    if b.block = 42 ∨ (18 ≤ b.block ∧ b.block < 26 ∧ some (b.block - 18) ≠ dead) then { b with powered := true, point := 7 } else b

/-- The compute dies and the port groups with a port in use are powered (R26 step 6, R354). -/
def Platform.computeOn (p : Platform) : Platform :=
  let used := fun g : Nat => (List.range 4).any fun i => p.record.portmap.getD (4 * g + i) 255 != 255
  p.mapBlocks fun b =>
    if b.block < 18 ∨ (26 ≤ b.block ∧ b.block < 42 ∧ used (b.block - 26) = true) then { b with powered := true } else b

/-! ## Start-up (R26, R27) -/

/-- The recovery state (R27): every other block in reset, the management function alone, its status register with the failing
step in [7:0] and the detail above (log entry 114). -/
def State.recover (s : State) (step detail : Nat) : State :=
  { s with platform := { s.platform with phase := .recovery step detail, linkUp := true, functions := [0],
                                         blocks := (List.range Config.powerBlocks).map PowerBlock.idle,
                                         mgmtStatus := BitVec.ofNat 64 (step + detail * 2 ^ 8) } }

/-- A step that has not succeeded so far. -/
def State.stuckAt (s : State) (step detail : Nat) : State :=
  { s with platform := { s.platform with phase := .step step detail } }

/-- The ports as the record's map names them (R354). -/
def portsOf (r : ConfigRecord) : List Port :=
  (List.range Config.ports).map fun n =>
    let peer := r.portmap.getD n 255
    { Port.idle n with peer := peer, state := if peer = 255 then .spare else .untrained }

/-- Whether the firmware image of a number has a digest of 48 bytes (R26 step 4). -/
def Platform.imageMatches (p : Platform) (n : Nat) (digest : List Byte) : Bool := sha384 (Config.firmwareImage n p.flash) == digest

/-- The firmware image of a number loaded into control memory (R26 step 4). -/
def State.loadImage (s : State) (n : Nat) : State :=
  let bs := Config.firmwareImage n s.platform.flash
  let ps := (List.range bs.length).map fun i => Place.mem (2 ^ 40 + s.pkg * 2 ^ 35 + (Config.firmwareBase n + i) % 2 ^ 35)
  (s.setBytes ps bs).clearCovered ps

/-- Both images loaded, and the monitor's measurement recorded (R26 steps 4 and 5). -/
def State.loadFirmware (s : State) : State :=
  let t := (s.loadImage 0).loadImage 1
  { t with platform := { t.platform with measurement := sha384 (Config.firmwareImage 1 s.platform.flash) } }

/-- Steps 4 to 7: the images, the control cores, the compute dies and the endpoint, the partition monitor. -/
def State.startLate (s : State) (i : StartupInputs) (bs : List Byte) : State :=
  if i.imagesRead = false ∨ s.platform.imageMatches 0 ((bs.drop 0x80).take 48) = false ∨
      s.platform.imageMatches 1 ((bs.drop 0x50).take 48) = false then s.recover 4 0
  else if i.diesReleased ≠ 3 then s.loadFirmware.stuckAt 6 (i.diesReleased.toNat + 4)
  else
    let s := s.loadFirmware
    let p := { s.platform.computeOn with phase := .up, linkUp := true, functions := [0] }
    let s := { s with platform := p, fabric := { s.fabric with ports := portsOf p.record } }
    match p.deadStack with
    | some d => s.tell (.stackFailed d)
    | none => s

/-- Step 3: the limits, the memories (R26, R27). -/
def State.startMemory (s : State) (i : StartupInputs) (bs : List Byte) : State :=
  let failed := (List.range 8).filter fun k => i.hbmFailed.getLsbD k
  if 2 ≤ failed.length ∨ i.controlFailed = true then s.recover 3 (i.hbmFailed.toNat + if i.controlFailed then 2 ^ 8 else 0)
  else
    let p := { s.platform.memoryOn failed.head? with record := recordOf bs, deadStack := failed.head? }
    ({ s with platform := p } : State).startLate i bs

/-- POWER_GOOD (R26, R27): the steps in order, as far as they succeed. -/
def execPowerGood (i : StartupInputs) (s : State) : Out :=
  if s.platform.phase ≠ .off ∧ s.platform.phase ≠ .step 1 0 then s.skip
  else if i.romStarts = false then .next (s.stuckAt 1 1)
  else if i.flashReads = false then .next (s.stuckAt 2 1)
  else
    let bs := s.platform.recordBytes
    match recordFault bs with
    | some o => .next (s.recover 2 o)
    | none => .next (s.startMemory i bs)

/-- The detail of a step 2 that fails with no field of the record: the length of the record (log entry 114). -/
def noField : Nat := 0x160

/-- STARTUP_STEP_TIMEOUT (R27): a step has not succeeded within its bound. -/
def execStartupStepTimeout (step : Nat) (s : State) : Out :=
  match s.platform.phase with
  | .step n detail =>
    if n ≠ step ∨ detail = 0 then s.skip
    else if n = 1 then .next { s with platform := { s.platform with phase := .romFailed } }
    else if n = 2 then .next (s.recover 2 noField)
    else .next (s.recover n (3 - (detail - 4)))
  | _ => s.skip

/-- The package with every volatile state lost: the flash, the host's own memory, and what the model itself keeps, stay. -/
def State.cleared (s : State) : State :=
  { State.reset with agenda := s.agenda, free := s.free, ids := s.ids,
                     mem := s.mem.filter fun c => isHostKey c.1, poison := s.poison.filter fun n => isHostKey (32 * n),
                     platform := { Platform.reset with flash := s.platform.flash } }

/-- POWER_REMOVAL (R22). -/
def execPowerRemoval (s : State) : Out := .next s.cleared

/-! ## The upstream link (R35 to R38) -/

/-- An operation that reaches host memory. -/
def AsyncOp.usesHost (o : AsyncOp) : Bool := o.pages.any fun p => isHostKey p.key

/-- The link goes down in a self-hosted package (R36, R37): transfers with the host end, the host's pending requests are discarded, the
endpoint's functions reset. -/
def State.hostGone (s : State) : State :=
  let ends := s.ops.filter fun o => !o.ended && o.started && o.usesHost
  let s := ends.foldl (fun s o =>
    match s.opAt o.id with
    | some o => s.endOp o .hostLinkDown
    | none => s) s
  let hub := { s.hub with hostHeld := s.hub.hostHeld.filter (·.control) }
  ({ s with hub := hub, platform := { s.platform with linkUp := false, functions := [], mappings := [], config := [] } } : State).tell
    (.hostLink false)

/-- The upstream host resets the link (R27, R36): the whole device starts again, unless the package is self-hosted. -/
def State.upstreamReset (s : State) : Out :=
  let again : State := s.cleared.stuckAt 1 0
  match s.platform.phase with
  | .recovery _ _ => .next again
  | .up => .next (if s.platform.record.selfHosted then s.hostGone else again)
  | _ => s.skip

/-- UPSTREAM_HOT_RESET (R36, R37). -/
def execUpstreamHotReset (s : State) : Out := s.upstreamReset

/-- LINK_DOWN (R36, R37). -/
def execLinkDown (s : State) : Out := s.upstreamReset

/-- The virtual functions of the VIs that have one (R35). -/
def State.viFunctions (s : State) : List Nat :=
  (s.vis.filter fun v => decide (v.phase = .built ∨ v.phase = .active ∨ v.phase = .frozen)).map (·.vi + 1)

/-- The functions presented anew: a virtual function that was not there before has its queue mappings and a fresh configuration space
(log entry 115). -/
def Platform.present (p : Platform) (fs : List Nat) : Platform :=
  let old := fun f : Nat => p.functions.contains f
  { p with functions := fs, config := p.config.filter fun c => fs.contains c.1 && old c.1,
           mappings := (fs.filter fun f => decide (f ≠ 0) && (!old f || p.mappings.contains (f - 1))).map (· - 1) }

/-- UPSTREAM_LINK_UP (R35, R36): the host enumerates the functions again. -/
def execUpstreamLinkUp (s : State) : Out :=
  if s.platform.phase = .up ∧ s.platform.linkUp = false then
    .next (({ s with platform := { s.platform.present (0 :: s.viFunctions) with linkUp := true } } : State).tell (.hostLink true))
  else s.skip

/-- FUNCTION_LEVEL_RESET (R35, R38): the function's configuration space and its host-facing queue mappings are reset; the partition
monitor is told. -/
def execFunctionLevelReset (vi : Nat) (s : State) : Out :=
  if s.platform.linkUp = true ∧ s.platform.functions.contains (vi + 1) = true then
    let p := { s.platform with mappings := s.platform.mappings.filter (· != vi), config := s.platform.config.filter (·.1 != vi + 1) }
    .next (({ s with platform := p } : State).tell (.functionReset vi))
  else s.skip

/-- The host maps the queues of a VI's function again after its reset (R38). -/
def State.hostMaps (s : State) (vi : Nat) : State :=
  if s.platform.linkUp = true ∧ s.platform.functions.contains (vi + 1) = true ∧ s.platform.mappings.contains vi = false then
    { s with platform := { s.platform with mappings := s.platform.mappings ++ [vi] } }
  else s

/-- The host writes a byte of a function's 4 KiB configuration space (R38). -/
def State.hostConfigures (s : State) (f off : Nat) (b : Byte) : State :=
  if s.platform.linkUp = true ∧ s.platform.functions.contains f = true ∧ off < 4096 then
    let c := ((s.platform.config.find? (·.1 == f)).map (·.2)).getD []
    { s with platform := { s.platform with config := s.platform.config.filter (·.1 != f) ++ [(f, Cells.write (w := 8) c off b)] } }
  else s

/-! ## Operating points (R18, R19): they alter only timing (R20) -/

/-- A change to a powered block. -/
def State.onBlock (s : State) (b : Nat) (f : PowerBlock → PowerBlock) : Out :=
  if s.platform.blocks.any fun x => x.block == b && x.powered then
    .next { s with platform := s.platform.mapBlocks fun x => if x.block = b then f x else x }
  else s.skip

/-- The clock of a block at operating point 0, but never the hub's, is gated, or runs again (R22). -/
def State.gate (s : State) (b : Nat) (on : Bool) : Out :=
  s.onBlock b fun x => if x.point = 0 ∧ b ≠ 42 then { x with gated := on } else x

/-- OPERATING_POINT_LOWER (R19). -/
def execOperatingPointLower (b : Nat) (s : State) : Out := s.onBlock b fun x => { x with point := x.point - 1 }

/-- OPERATING_POINT_RAISE (R19). -/
def execOperatingPointRaise (b : Nat) (s : State) : Out :=
  s.onBlock b fun x => { x with gated := false, point := min (x.point + 1) (min x.ceiling 7) }

/-- OPERATING_POINT_CEILING (R19). -/
def execOperatingPointCeiling (b point : Nat) (s : State) : Out :=
  if 7 < point then s.skip
  else s.onBlock b fun x => { x with ceiling := point, point := min x.point point }

end Sys2Proof.Machine
end

