-- ==== Sys2Proof/Machine/Tenants.lean ====
section
/-!
DEFINITION. The virtual interfaces (R28 to R34, R489) and the kick and status registers of their launch queues (R97 to R101).
-/
namespace Sys2Proof.Machine

/-! ## Building and starting (R28 to R30) -/

/-- Whether a descriptor keeps the ranges and alignments of R28, and states a VI that is built: the values of `VISTATE` that are reserved
stand for an absent one. -/
def descGood (d : ViDesc) : Bool :=
  decide (d.visState = 1 ∧ 1 ≤ d.asidCnt ∧ d.asidCnt ≤ 4096 ∧ d.asidBase + d.asidCnt ≤ 65536 ∧ d.qcount ≤ 32 ∧ d.prioMax ≤ 23 ∧ d.pinWin ≤ 8 ∧
    d.pinQuota ≤ 1536 ∧ d.tenBase % 2 ^ 21 = 0 ∧ d.tenSize % 2 ^ 21 = 0 ∧ d.ctlBase % 2 ^ 16 = 0 ∧ d.ctlSize % 2 ^ 16 = 0 ∧
    d.ctlBase + d.ctlSize ≤ 2 ^ 39 ∧ spaceOf d.capBase = 2 ∧ d.svBudget < 2 ^ 32)

/-- Whether two ranges share a number. -/
def rangesMeet (a n b m : Nat) : Bool := decide (0 < n ∧ 0 < m ∧ a < b + m ∧ b < a + n)

/-- Whether a VI counts for R29: built, active or frozen. -/
def Vi.stands (v : Vi) : Bool := decide (v.phase = .built ∨ v.phase = .active ∨ v.phase = .frozen)

/-- Whether a descriptor may stand beside those that do (R29), in the tensor range that the package has (R3, R273). -/
def State.descFits (s : State) (d : ViDesc) : Bool :=
  let vs := s.vis.filter Vi.stands
  (vs.all fun v => !(rangesMeet d.asidBase d.asidCnt v.desc.asidBase v.desc.asidCnt ||
    rangesMeet d.tenBase d.tenSize v.desc.tenBase v.desc.tenSize || rangesMeet d.ctlBase d.ctlSize v.desc.ctlBase v.desc.ctlSize)) &&
  decide (vs.foldl (fun n v => n + v.desc.pinQuota) d.pinQuota ≤ 1536 ∧ d.tenBase + d.tenSize ≤ s.tensorBytes)

/-- A queue that has never been started. -/
def Queue.idle (q : Nat) : Queue :=
  { q := q, base := 0, log := 0, deviceFed := false, qst := 0, qacc := 0, e := 0, k := 0, waitSince := none }

/-- A VI as it is built: its view is its own package until the monitor maps another. -/
def Vi.built (vi pkg : Nat) (d : ViDesc) : Vi :=
  { vi := vi, phase := .built, desc := d, fcause := 0, fcount := 0, queues := (List.range d.qcount).map Queue.idle, kicks := [],
    pages := [], capHeld := none, capOld := false, coreSet := [], digests := [],
    view := [{ ix := pkg, pkg := pkg, vi := vi, asidBase := d.asidBase }], pins := [], preempt := none, remoteFaults := 0,
    unanswered := [], accepted := 0 }

/-- The virtual functions that the endpoint presents (R35). -/
def State.showFunctions (s : State) : State :=
  if s.platform.linkUp then { s with platform := s.platform.present (0 :: s.viFunctions) } else s

/-- VI_BUILD (R29, R30, R35): refused when the descriptor would overlap another or pass the pin quota. -/
def execViBuild (vi : Nat) (d : ViDesc) (s : State) : Out :=
  if s.platform.phase ≠ .up ∨ 64 ≤ vi ∨ (s.viAt vi).isSome = true ∨ descGood d = false then s.skip
  else if s.descFits d then .next ({ s with vis := s.vis ++ [Vi.built vi s.pkg d] } : State).showFunctions
  else .next s

/-- The Env under which the launch engine reaches the VI's memory (R102). -/
def Vi.hubEnv (v : Vi) : Env := agentEnv v.vi v.desc.asidBase 1024

/-- Whether a queue descriptor keeps R98. -/
def queueGood (bs : List Byte) : Bool :=
  let base := BitVec.ofNat 64 (fieldAt bs 0 8)
  decide (spaceOf base = 2 ∧ base.toNat % 2 ^ 61 < 2 ^ 48 ∧ base.toNat % 128 = 0 ∧ fieldAt bs 8 1 ≤ 12 ∧ fieldAt bs 9 1 ≤ 1 ∧
    fieldAt bs 10 2 = 0 ∧ fieldAt bs 16 16 = 0)

/-- A queue started from its descriptor (R100). -/
def Queue.start (x : Queue) (bs : List Byte) : Queue :=
  let e := fieldAt bs 12 4
  let k := (e + 2 ^ 32 - 1) % 2 ^ 32
  let y := { x with e := e, k := k, qacc := k, waitSince := none }
  if queueGood bs then
    { y with base := BitVec.ofNat 64 (fieldAt bs 0 8), log := fieldAt bs 8 1, deviceFed := fieldAt bs 9 1 == 1, qst := 1 }
  else { y with qst := 4 }

/-- The 32 bytes of a queue's descriptor (R98). -/
def State.queueDesc (s : State) (v : Vi) (q : Nat) : List Byte :=
  Cells.readList (w := 8) s.mem (v.ctlKey (0x10000 + 32 * q)) 32

/-- The bytes of the VI's queue descriptors that lie at hand (R98, R276). -/
def State.queuesReady (s : State) (v : Vi) : Bool := s.tableReady v false 0x10000 (32 * v.desc.qcount)

/-- VI_START (R30): the monitor starts the VI's launch queues. -/
def execViStart (vi : Nat) (s : State) : Out :=
  match s.viAt vi with
  | none => s.skip
  | some v =>
    if s.queuesReady v = false then .next (s.tableAsk v false 0x10000 (32 * v.desc.qcount))
    else if v.phase = .built then
      .next (s.setVi { v with phase := .active, queues := v.queues.map fun x => x.start (s.queueDesc v x.q) })
    else s.skip

/-! ## Freezing and resuming (R31, R32, R34, R440) -/

/-- FREEZE_REQUEST (R31): cause 4. -/
def execFreezeRequest (vi : Nat) (s : State) : Out := .next (s.freeze vi 4)

/-- SUPERVISOR_BUDGET_EXPIRY (R440): a watchdog handler has run its budget of core cycles. -/
def execSupervisorBudgetExpiry (r : WaveRef) (s : State) : Out :=
  match s.waveAt r with
  | none => s.skip
  | some w =>
    match w.svStart, s.viAt w.env.vi with
    | some t, some v =>
      if t + v.desc.svBudget ≤ s.coreTime w.core then .next ((s.putWave { w with svStart := none }).freeze v.vi 3)
      else s.skip
    | _, _ => s.skip

/-- A kick as a running host-fed queue takes it (R101). -/
def Queue.takeKick (x : Queue) (v : DWord) : Queue :=
  let n := v.toNat
  let d := (n + 2 ^ 32 - x.k) % 2 ^ 32
  if x.qst ≠ 1 ∨ x.deviceFed = true ∨ 2 ^ 32 ≤ n then x
  else if d = 0 ∨ 2 ^ 31 ≤ d then x
  else if 2 ^ x.log < (n + 2 ^ 32 - x.qacc) % 2 ^ 32 then { x with qst := 3 }
  else { x with k := n }

/-- Kicks applied in the order in which they were recorded (R34). -/
def Vi.takeKicks (v : Vi) (ks : List (Nat × DWord)) : Vi :=
  ks.foldl (fun v k =>
    match v.queueAt k.1 with
    | some x => v.setQueue (x.takeKick k.2)
    | none => v) v

/-- The queues run again after a pause: recorded kicks are acted on, a window under way has been abandoned (R34, R102). -/
def Vi.wakeQueues (v : Vi) : Vi :=
  let x := v.takeKicks v.kicks
  { x with kicks := [], queues := x.queues.map fun q => { q with waitSince := none } }

/-- Waves of a VI that stopped for one reason run on. -/
def State.releaseWaves (s : State) (vi : Nat) (k : StopKind) : State :=
  s.mapWaves fun w => if w.env.vi = vi ∧ w.stop = some k then { w with stop := none, readySince := s.coreTime w.core } else w

/-- VI_RESUME (R30, R31, R34). -/
def execViResume (vi : Nat) (s : State) : Out :=
  match s.viAt vi with
  | none => s.skip
  | some v =>
    if v.phase = .frozen then
      let x := { v with phase := .active, fcause := 0, fcount := 0 }
      .next ((s.setVi (if x.preempt.isSome then x else x.wakeQueues)).releaseWaves vi .frozen)
    else s.skip

/-! ## Teardown (R30, R33, R116, R282) -/

/-- A core without what a VI's work has put there: waves' held items, operations, bins, travellers and packets. -/
def Core.dropWork (c : Core) : Core :=
  { c with held := [], bins := [], departure := [], landing := [], rxq := [], outgoing := [], prefetches := [], residents := [],
           segment := none, segText := [], loading := false, istore := [],
           matrix := { data := .zero, holder := none, queue := [], undo := [], rillGrid := none } }

/-- Every core changed. -/
def State.mapCores (s : State) (f : Core → Core) : State := { s with core := f s.core, cores := s.cores.map f }

/-- A wave that is no longer in its slot. -/
def Wave.gone (w : Wave) : Wave :=
  { w with status := .absent, lookoutOf := none, ll := [], hints := [], entries := [], pending := none, arrival := none, batches := [],
           openBatch := .empty, failures := [], stop := none, waitInv := none }

/-- Waves that leave their slots. -/
def State.dropWaves (s : State) (p : Wave → Bool) : State :=
  { s with wave := if p s.wave then s.wave.gone else s.wave, waves := s.waves.filter fun w => !p w }

/-- A keeper without the messages and handlers of a VI. -/
def Keeper.without (k : Keeper) (vi : Nat) : Keeper :=
  { k with queue := k.queue.filter (·.vi != vi), run := k.run.filter (·.msg.vi != vi), held := k.held.filter (·.msg.vi != vi) }

/-- A team entry given up (R114): its generation moves on. -/
def State.freeEntry (s : State) (e : Option Nat) : State :=
  match e.bind s.launch.entryAt with
  | some x => { s with launch := s.launch.setEntry { x with inUse := false, gen := x.gen + 1, outstanding := 0, perr := 0 } }
  | none => s

/-- Every task of a VI ends, writing no record (R116, R480): nothing of its work is left, its team entries are free again (R114). -/
def State.endTasks (s : State) (vi : Nat) : State :=
  let mine := (s.grids.filter (·.vi == vi)).map (·.id)
  let entries := (s.grids.filter (·.vi == vi)).flatMap fun g => g.reaches.flatMap fun x => x.teams.map (·.entry)
  let s := (entries.foldl State.freeEntry s).dropTravellers fun t => mine.contains t.grid
  let ops := (s.ops.filter (·.env.vi == vi)).map (·.id)
  let s := s.dropWaves fun w => w.env.vi == vi && decide (w.status ≠ .absent)
  let s := s.mapCores fun c => if c.vi = some vi then c.dropWork else c
  { s with grids := s.grids.filter (·.vi != vi), ops := s.ops.filter (·.env.vi != vi),
           launch := { s.launch with lineage := s.launch.lineage.filter (·.vi != vi) },
           keeper := s.keeper.without vi,
           keepers := s.keepers.map fun k => k.without vi,
           fabric := { s.fabric with requests := s.fabric.requests.filter fun r => r.control || !ops.contains r.op
                                     collGens := s.fabric.collGens.filter (·.1 != vi) },
           hub := { s.hub with saved := s.hub.saved.filter (·.vi != vi) } }

/-- The answer type of a request kept at its home (R33, R356). -/
def replyOp (op : Nat) : Nat :=
  if op = opTensorRead then opReadData else if op = opTensorWrite then opWriteCompletion
  else if op = opRemoteAtomic then opAtomicResult else opCollectiveAck

/-- Whether an access of the host reaches a VI's allocation or kick page. -/
def HostRequest.reaches (r : HostRequest) (v : Vi) : Bool :=
  match r.target with
  | .tensor a => (List.range (max r.len r.bytes.length)).any fun i => v.owns (a + i)
  | .control a => (List.range (max r.len r.bytes.length)).any fun i => v.owns (2 ^ 40 + a + i)
  | .kickPage vi _ => vi == v.vi
  | .faultPage vi _ => vi == v.vi
  | .endpoint _ _ => false

/-- Accesses of the host that were held for a VI complete with the VI-absent status (R33). -/
def State.refuseHost (s : State) (v : Vi) : State :=
  let mine (r : HostRequest) : Bool := !r.control && r.reaches v
  let answers := (s.hub.hostHeld.filter fun r => mine r && !r.write).map fun _ => HostAnswer.viAbsent
  { s with hub := { s.hub with hostHeld := s.hub.hostHeld.filter fun r => !mine r, hostReads := s.hub.hostReads ++ answers } }

/-- Requests held for a VI complete with the VI-absent status (R33). -/
def State.refuseHeld (s : State) (vi : Nat) : State :=
  let mine (p : FabPacket) : Bool := p.vi == vi && p.vc == 2
  let s1 := { s with fabric := { s.fabric with heldIn := s.fabric.heldIn.filter fun p => !mine p } }
  (s.fabric.heldIn.filter mine).foldl (fun s p => s.answerAbsent p (replyOp p.op)) s1

/-- VI_TEARDOWN (R30, R33, R116, R282): its tasks end, its pinned lines are let go. -/
def execViTeardown (vi : Nat) (s : State) : Out :=
  match s.viAt vi with
  | none => s.skip
  | some v =>
    if v.stands then
      let x := { v with phase := .teardown, kicks := [], preempt := none, pins := v.pins.map fun p => { p with lines := [] } }
      .next (((((s.setVi x).endTasks vi).refuseHeld vi).refuseHost v).showFunctions)
    else s.skip

/-- A core without what its last VI left there; what the monitor and the hardware hold of the core itself stays. -/
def Core.cleared (c : Core) : Core := { Core.empty c.id with halted := c.halted, struck := c.struck }

/-- Whether some engine has not acknowledged the teardown of a VI yet: something of its work is still there (R30). -/
def State.worksFor (s : State) (vi : Nat) : Bool :=
  (s.allWaves.any fun w => w.env.vi == vi && decide (w.status ≠ .absent ∧ w.status ≠ .exited)) || s.ops.any (·.env.vi == vi) ||
    s.grids.any (·.vi == vi) ||
    ((s.core :: s.cores).any fun c => decide (c.vi = some vi) && !(c.held.isEmpty && c.matrix.queue.isEmpty && c.outgoing.isEmpty)) ||
    (s.keeper :: s.keepers).any fun k => k.queue.any (·.vi == vi) || k.run.any (·.msg.vi == vi) || k.held.any (·.msg.vi == vi)

/-- The resources of a VI cleared (R30): its cores, its channel endpoints, the translations kept for it. -/
def State.clearVi (s : State) (vi : Nat) : State :=
  let t := s.mapCores fun c => if c.vi = some vi then c.cleared else c
  let hub := { t.hub with endpoints := t.hub.endpoints.map fun e => if e.vi = some vi then Endpoint.idle e.ep else e }
  { t with hub := hub, tlbs := t.tlbs.filter (·.vi != vi), vis := t.vis.filter (·.vi != vi) }

/-- TEARDOWN_COMPLETE (R30): every engine has acknowledged, and the VI's resources are cleared. -/
def execTeardownComplete (vi : Nat) (s : State) : Out :=
  match s.viAt vi with
  | none => s.skip
  | some v => if v.phase = .teardown ∧ s.worksFor vi = false then .next (s.clearVi vi).showFunctions else s.skip

/-! ## Kick and status registers (R97, R99 to R101) -/

/-- The right that an access of an origin needs (R95). -/
def originRight : Origin → Nat
  | .host => 3
  | .controlCore => 4

/-- Whether the origin can reach a VI's kick page: the host through the VI's function and its queue mappings (R35, R38, R99). -/
def State.pageReached (s : State) (vi : Nat) (o : Origin) : Bool :=
  match o with
  | .host => s.platform.linkUp && s.platform.functions.contains (vi + 1) && s.platform.mappings.contains vi
  | .controlCore => true

/-- An access to a register of a queue (R97, R99): a register of no queue ignores it; a denied access has no effect but on the VI. -/
def State.queueAccess (s : State) (vi q : Nat) (o : Origin) (rights : List Nat) (k : Vi → Queue → Out) : Out :=
  match s.viAt vi with
  | none => s.skip
  | some v =>
    if s.pageReached vi o = false then s.skip
    else
      match v.queueAt q with
      | none => .next s
      | some x => if rights.all (s.granted vi .supervisor 1 q) then k v x else .next (s.freeze vi 1)

/-- A write of a kick register (R34, R101, R448): while the VI is frozen or being pre-empted, the kick is recorded. -/
def State.kickWrite (s : State) (vi q : Nat) (n : DWord) (o : Origin) : Out :=
  s.queueAccess vi q o [originRight o] fun v x =>
    if v.phase = .frozen ∨ v.preempt.isSome = true then .next (s.setVi { v with kicks := v.kicks ++ [(q, n)] })
    else .next (s.setVi (v.setQueue (x.takeKick n)))

/-- Whether commands act on a VI's queues: while it is frozen its queue state is kept unchanged (R32). -/
def Vi.commanded (v : Vi) : Bool := decide (v.phase = .active)

/-- An access to a queue's register that waits for the line of its descriptor (R276), as a held access to the kick page. -/
def State.holdCommand (s : State) (v : Vi) (q : Nat) (o : Origin) : State :=
  let r : HostRequest := { control := decide (o = .controlCore), write := true, target := .kickPage v.vi (16 * q + 8), bytes := bytesOf 8 1, len := 0 }
  { s.tableAsk v false (0x10000 + 32 * q) 32 with hub := { s.hub with hostHeld := s.hub.hostHeld ++ [r] } }

/-- A write of a status register (R100): 1 starts the queue, 2 stops it and lets the tasks that are accepted run on, other values
are ignored. -/
def State.statusWrite (s : State) (vi q : Nat) (n : DWord) (o : Origin) : Out :=
  s.queueAccess vi q o [5, originRight o] fun v x =>
    .next (if v.commanded then
      if n = 1 ∧ s.tableReady v false (0x10000 + 32 * q) 32 = false then s.holdCommand v q o
      else if n = 1 then s.setVi (v.setQueue (x.start (s.queueDesc v q)))
      else if n = 2 then s.setVi (v.setQueue { x with qst := 0, waitSince := none })
      else s
    else s)

/-- KICK (R34, R101, R448). -/
def execKick (vi q : Nat) (n : DWord) (o : Origin) (s : State) : Out := s.kickWrite vi q n o

/-- QUEUE_START (R100). -/
def execQueueStart (vi q : Nat) (o : Origin) (s : State) : Out := s.statusWrite vi q 1 o

/-- QUEUE_STOP (R100). -/
def execQueueStop (vi q : Nat) (o : Origin) (s : State) : Out := s.statusWrite vi q 2 o

end Sys2Proof.Machine
end

