-- ==== Sys2Proof/Machine/Accept.lean ====
section
/-!
DEFINITION. What the launch engine reads and checks before it accepts a launch record (R39 to R43, R61 to R63, R105, R244, R248,
R249), and the grid that it makes of an accepted one.
-/
namespace Sys2Proof.Machine

/-! ## Reading the VI's memory -/

/-- Why a read gives nothing: a line or region is not at hand yet, or the read fails, with or without a breach of the VI's
allocation (R489). -/
inductive NoRead where
  | wait (ps : List Place)
  | bad
  | breach
  deriving DecidableEq, Repr

/-- What a read or a check of the launch engine gives. -/
abbrev Got (α : Type) := Except NoRead α

/-- `n` bytes at an address of the VI's memory. -/
def State.fetchBytes (s : State) (v : Vi) (a : DWord) (n : Nat) : Got (List Byte) :=
  match s.hubPlaces v.hubEnv .read a n with
  | .error c => .error (if c = causePartition then .breach else .bad)
  | .ok ps => if ps.any fun p => !s.available false p then .error (.wait ps) else .ok (ps.map s.released)

/-- A check that the record must pass. -/
def need (b : Bool) : Got Unit := if b then .ok () else .error .bad

/-! ## Addresses (R46, R105) -/

/-- Whether an address lies in control space. -/
def inControl (a : DWord) : Bool := decide (spaceOf a = 2 ∧ a.toNat % 2 ^ 61 < 2 ^ 48)

/-- Whether `n` bytes from an address end within control space. -/
def fitsControl (a : DWord) (n : Nat) : Bool := inControl a && decide (a.toNat % 2 ^ 61 + n ≤ 2 ^ 48)

/-- Whether an address lies in this package's tensor space, as the VI sees it. -/
def State.inLocalTensor (s : State) (v : Vi) (a : DWord) : Bool :=
  decide (spaceOf a = 3 ∧ a.toNat % 2 ^ 61 < 2 ^ 44) &&
    match s.viewOf v.vi (a.toNat % 2 ^ 61 / 2 ^ 40) with
    | some m => m.pkg == s.pkg
    | none => false

/-- Whether `n` bytes from a tensor address end within its package's offsets. -/
def fitsTensor (a : DWord) (n : Nat) : Bool := decide (a.toNat % 2 ^ 40 + n ≤ 2 ^ 40)

/-! ## The image (R39 to R43) -/

/-- A section table entry. -/
def sectionOf (bs : List Byte) (i : Nat) : Section :=
  let o := 32 * i
  { kind := fieldAt bs o 4, seg := fieldAt bs (o + 4) 4, off := fieldAt bs (o + 8) 8, size := fieldAt bs (o + 16) 8 }

/-- Whether an entry keeps R40 by itself, in an image of a size and a table of `n` entries. -/
def Section.good (x : Section) (bytes n reserved : Nat) : Bool :=
  decide (1 ≤ x.kind ∧ x.kind ≤ 5 ∧ x.seg < 256 ∧ (x.kind ≠ 2 → x.seg = 0) ∧ x.off % 64 = 0 ∧ x.size % 4 = 0 ∧ reserved = 0 ∧
    x.off + x.size ≤ bytes) && !rangesMeet x.off x.size 0 (64 + 32 * n)

/-- Whether the sections of a list are apart from one another. -/
def sectionsApart : List Section → Bool
  | [] => true
  | x :: xs => (xs.all fun y => !rangesMeet x.off x.size y.off y.size) && sectionsApart xs

/-- The limits of R41. -/
def sectionLimits (ferry : Bool) (xs : List Section) : Bool :=
  let of := fun k => xs.filter (·.kind == k)
  let sv := (of 3).foldl (fun n x => n + x.size) 0
  let segs := of 2
  decide ((of 1).length = (if ferry then 0 else 1) ∧ (of 3).length = 1 ∧ (of 4).length ≤ 1 ∧ (of 5).length ≤ 16) &&
  (if ferry then decide (1 ≤ segs.length ∧ segs.length ≤ 255) else segs.isEmpty) &&
  ((of 1).all fun x => decide (x.size ≤ 2 ^ 26)) && ((of 3).all fun x => decide (x.size ≤ 2 ^ 16)) &&
  ((of 4).all fun x => decide (x.size ≤ 2 ^ 20)) &&
  (segs.all fun x => decide (x.size + (sv + 4095) / 4096 * 4096 ≤ 2 ^ 18)) &&
  ((List.range segs.length).all fun i => segs.any (·.seg == i))

/-- Whether the entries of a slice table have their reserved bytes zero up to an all-zero one, which is among the first `n` (R42). -/
def sliceReserved (bs : List Byte) : Nat → Bool
  | 0 => false
  | n + 1 =>
    if bs.length < 16 then false
    else if numOf (bs.take 16) = 0 then true
    else decide (fieldAt bs 12 4 = 0) && sliceReserved (bs.drop 16) n

/-- An image as the launch engine has read it. -/
structure Image where
  ferry : Bool
  sections : List Section
  svText : List Byte

/-- The image at an address (R39 to R43). -/
def State.readImage (s : State) (v : Vi) (a : DWord) : Got Image := do
  need (decide (a.toNat % 65536 = 0) && (inControl a || s.inLocalTensor v a))
  let h ← s.fetchBytes v a 64
  let n := fieldAt h 6 2
  let ferry := fieldAt h 8 4 == 1
  let bytes := fieldAt h 12 4 * 65536
  need (decide (fieldAt h 0 4 = 0x4B4E4C53 ∧ fieldAt h 4 2 = 1 ∧ 1 ≤ n ∧ n ≤ 64 ∧ fieldAt h 8 4 ≤ 1 ∧ 1 ≤ fieldAt h 12 4))
  need (if inControl a then fitsControl a bytes else fitsTensor a bytes)
  let tab ← s.fetchBytes v (a + 64) (32 * n)
  let xs := (List.range n).map (sectionOf tab)
  need ((List.range n).all fun i => (sectionOf tab i).good bytes n (fieldAt tab (32 * i + 24) 8))
  need (sectionsApart xs && sectionLimits ferry xs)
  let at_ (x : Section) : DWord := a + BitVec.ofNat 64 x.off
  for x in xs.filter Section.isLookout do
    let t ← s.fetchBytes v (at_ x) (min x.size 1040)
    need (sliceReserved t 65)
  match xs.find? Section.isSupervisor with
  | none => .error .bad
  | some x =>
    let text ← s.fetchBytes v (at_ x) x.size
    let d := sha384 text
    need (decide (d = (h.drop 16).take 48) && v.digests.contains d)
    return { ferry := ferry, sections := xs, svText := text }

/-! ## The record and its extension (R61, R62) -/

/-- The fields of a record and its extension. -/
def recordOfBytes (r x : List Byte) : LaunchRecord :=
  let q := fun o : Nat => BitVec.ofNat 64 (fieldAt x o 8)
  let w := fun o : Nat => BitVec.ofNat 64 (fieldAt r o 8)
  { lseq := fieldAt r 0 4, prio := fieldAt r 4 1 % 32, flags := BitVec.ofNat 8 (fieldAt r 5 1),
    shape := BitVec.ofNat 16 (fieldAt r 6 2), nV := fieldAt r 8 1, nS := fieldAt r 9 1, llocal := fieldAt r 10 2,
    privLane := 16 * fieldAt r 12 2, privWave := 64 * fieldAt r 14 2, gx := fieldAt r 16 4, gy := fieldAt r 20 2, gz := fieldAt r 22 2,
    image := w 24, entry := fieldAt r 32 4, dep := BitVec.ofNat 32 (fieldAt r 36 4), compl := w 48, parent := w 56,
    args := (List.range 8).map fun i => w (64 + 8 * i), ranges := (List.range 8).map fun i => (q (16 * i), q (16 * i + 8)),
    ttBase := q 128, ttCount := fieldAt x 136 4, privBase := q 144, privSize := fieldAt x 152 8, segMap := q 160, ovfBase := q 168,
    ovfSize := fieldAt x 176 8 }

namespace LaunchRecord

/-- The shape fields of a record (R61, R126). -/
def width (r : LaunchRecord) : Nat := 16 * 2 ^ (r.shape.toNat % 4)
def reachSize (r : LaunchRecord) : Nat := bitsN r.shape.toNat 3 2 + 1
def pair (r : LaunchRecord) : Bool := r.shape.getLsbD 4
def waves (r : LaunchRecord) : Nat := bitsN r.shape.toNat 10 5 + 1
def teams (r : LaunchRecord) : Nat := r.gx * r.gy * r.gz

/-- The flags of a record (R61). -/
def relaunchable (r : LaunchRecord) : Bool := r.flags.getLsbD 0
def ferry (r : LaunchRecord) : Bool := r.flags.getLsbD 1
def det (r : LaunchRecord) : Bool := r.flags.getLsbD 2
def lookouts (r : LaunchRecord) : Bool := r.flags.getLsbD 4

/-- The declared ranges: base, length, write (R62). -/
def declared (r : LaunchRecord) : List (DWord × Nat × Bool) :=
  (r.ranges.take (r.dep.toNat % 16)).map fun x => (x.1, x.2.toNat % 2 ^ 63, x.2.getLsbD 63)

/-- The dependence domain (R61). -/
def domain (r : LaunchRecord) : Nat := bitsN r.dep.toNat 31 16

/-- Bytes of vector registers per team, each wave's block rounded up to 1 KiB (R130). -/
def vectorBytes (r : LaunchRecord) : Nat := r.waves * ((r.width * r.nV * 4 + 1023) / 1024 * 1024)

end LaunchRecord

/-- Whether the fields of a record keep their limits and its reserved bits are zero (R61, R63). -/
def recordGood (v : Vi) (bs : List Byte) (r : LaunchRecord) : Bool :=
  decide (fieldAt bs 4 1 ≤ 23 ∧ r.prio ≤ v.desc.prioMax ∧ r.flags.toNat < 32 ∧ r.shape.toNat % 4 ≠ 3 ∧ r.shape.toNat < 2 ^ 11 ∧
    1 ≤ r.nV ∧ r.nV ≤ 128 ∧ 8 ≤ r.nS ∧ r.nS ≤ 128 ∧ 64 ≤ r.privWave ∧ 1 ≤ r.gx ∧ 1 ≤ r.gy ∧ 1 ≤ r.gz ∧ r.entry % 4 = 0 ∧
    r.dep.toNat % 16 ≤ 8 ∧ bitsN r.dep.toNat 15 4 = 0 ∧ r.compl.toNat % 16 = 0) &&
  (r.compl == 0 || inControl r.compl)

/-- The checks of the extension's fields (R62). -/
def extensionGood (x : List Byte) (r : LaunchRecord) : Bool :=
  decide (r.ttBase.toNat % 64 = 0 ∧ r.ttCount ≤ 65536 ∧ fieldAt x 140 4 = 0 ∧ fieldAt x 184 8 = 0)

/-- The checks of fit, reach and private backing (R63). -/
def State.shapeGood (s : State) (v : Vi) (r : LaunchRecord) : Bool :=
  let regs := r.waves * r.width * r.nV * 4
  (if r.pair then decide (regs ≤ 2 ^ 21 ∧ r.llocal ≤ 1024 ∧ r.reachSize ≤ 2)
   else decide (r.waves ≤ 32 ∧ r.llocal ≤ 512 ∧ regs ≤ 2 ^ 20)) &&
  decide (r.teams * r.waves * (r.privLane * r.width + r.privWave) ≤ r.privSize ∧ r.privBase.toNat % 65536 = 0) &&
  s.inLocalTensor v r.privBase && fitsTensor r.privBase r.privSize

/-- The checks of the declared ranges (R105). -/
def State.rangesGood (s : State) (v : Vi) (r : LaunchRecord) : Bool :=
  r.declared.all fun x =>
    if spaceOf x.1 = 2 then fitsControl x.1 x.2.1
    else decide (spaceOf x.1 = 3 ∧ x.1.toNat % 2 ^ 61 < 2 ^ 44) && fitsTensor x.1 x.2.1 &&
      (s.viewOf v.vi (x.1.toNat % 2 ^ 61 / 2 ^ 40)).isSome

/-- Whether the entry lies in the code section or in segment 0 (R61). -/
def entryGood (r : LaunchRecord) (xs : List Section) : Bool :=
  xs.any fun x => (x.kind == 1 || (x.kind == 2 && x.seg == 0)) && decide (x.off ≤ r.entry ∧ r.entry < x.off + x.size)

/-! ## The segment map (R244, R248, R249) -/

/-- A segment's entry in the map. -/
def segmentEntryOf (bs : List Byte) (i : Nat) : SegmentEntry :=
  let o := 0x80 + 16 * i
  let reps := (List.range 3).filterMap fun j =>
    let x := fieldAt bs (o + 2 + 2 * j) 2
    if 2 ^ 15 ≤ x then some (x - 2 ^ 15, j + 1) else none
  { seg := i, primary := fieldAt bs o 2, replicas := reps.map (·.1), spots := reps.map (·.2), loading := none, hotSince := none }

/-- Whether a map is valid for a grid of `teams` teams and an image of `segs` segments. -/
def segmentMapGood (bs : List Byte) (teams segs : Nat) : Bool :=
  let count := fieldAt bs 0 2
  let spares := fieldAt bs 2 2
  let high := fieldAt bs 4 2
  let named := ((List.range count).flatMap fun i => (segmentEntryOf bs i).primary :: (segmentEntryOf bs i).replicas) ++
    (List.range spares).map fun i => fieldAt bs (0x40 + 2 * i) 2
  decide (count = segs ∧ spares ≤ 32 ∧ high ≤ 2048 ∧ (high ≠ 0 → fieldAt bs 6 2 ≠ 0) ∧ fieldAt bs 8 56 = 0) &&
  ((List.range count).all fun i => decide (fieldAt bs (0x80 + 16 * i + 8) 8 = 0)) &&
  decide (named.length = teams) && (named.all fun t => decide (t < teams)) && decide named.Nodup

/-- The live copy of a map (R250). -/
def segmentMapOf (bs : List Byte) : SegmentMap :=
  { high := fieldAt bs 4 2, dwell := fieldAt bs 6 2,
    spare := (List.range (fieldAt bs 2 2)).map fun i => fieldAt bs (0x40 + 2 * i) 2,
    segs := (List.range (fieldAt bs 0 2)).map (segmentEntryOf bs) }

/-- The map of a ferry-mode record, with the checks of R63 and R244. -/
def State.readMap (s : State) (v : Vi) (r : LaunchRecord) (xs : List Section) : Got (Option SegmentMap) :=
  if r.ferry = false then .ok none
  else do
    let segs := (xs.filter Section.isSegment).length
    need (decide (r.segMap ≠ 0 ∧ r.ovfSize ≠ 0 ∧ r.teams ≤ v.coreSet.length ∧ r.ovfBase.toNat % 65536 = 0 ∧ 4096 ≤ r.ovfSize ∧
      r.ovfSize % 4096 = 0 ∧ r.segMap.toNat % 64 = 0) && !r.pair && !r.lookouts && s.inLocalTensor v r.ovfBase &&
      fitsTensor r.ovfBase (r.teams * r.ovfSize) && inControl r.segMap)
    let bs ← s.fetchBytes v r.segMap (0x80 + 16 * segs)
    need (segmentMapGood bs r.teams segs)
    return some (segmentMapOf bs)

/-! ## The checked record -/

/-- What acceptance keeps of a record. -/
structure Checked where
  record : LaunchRecord
  image : Image
  map : Option SegmentMap

/-- Every check of a record whose `LSEQ` matches (R39 to R43, R61 to R63, R105, R244). -/
def State.checkRecord (s : State) (v : Vi) (q : Queue) (bs : List Byte) : Got Checked := do
  let ext := BitVec.ofNat 64 (fieldAt bs 0x28 8)
  need (recordGood v bs (recordOfBytes bs []) && decide (ext.toNat % 64 = 0) && fitsControl ext 192 &&
    (q.deviceFed || decide (fieldAt bs 0x38 8 = 0)))
  let x ← s.fetchBytes v ext 192
  let r := recordOfBytes bs x
  need (extensionGood x r && s.shapeGood v r && s.rangesGood v r)
  let im ← s.readImage v r.image
  need (entryGood r im.sections && im.ferry == r.ferry)
  let m ← s.readMap v r im.sections
  return { record := r, image := im, map := m }

/-! ## Completion records and parents (R479 to R482) -/

/-- The places of a completion record; none for no record; an error when it cannot be written (R479). -/
def State.completionPlaces (s : State) (v : Vi) (compl : DWord) : Except NoRead (List Place) :=
  if compl.toNat % 16 ≠ 0 ∨ inControl compl = false then .error .bad
  else
    match s.hubPlaces v.hubEnv .write compl 16 with
    | .error c => .error (if c = causePartition then .breach else .bad)
    | .ok ps => if ps.any fun p => !s.available true p then .error (.wait ps) else .ok ps

/-- A completion record written (R479), or its loss told; an error when the lines are not at hand yet. -/
def State.complete (s : State) (v : Vi) (compl : DWord) (lseq status detail perr cefail creln : Nat) : Except (List Place) State :=
  if compl = 0 then .ok s
  else
    match s.completionPlaces v compl with
    | .error (.wait ps) => .error ps
    | .error .bad => .ok (s.tell (.completionLost v.vi lseq))
    | .error .breach => .ok ((s.tell (.completionLost v.vi lseq)).freeze v.vi 2)
    | .ok ps =>
      .ok ((s.setBytes ps (bytesOf 4 (2 ^ 31 + detail * 2 ^ 8 + status) ++ bytesOf 4 lseq ++ bytesOf 2 perr ++ bytesOf 2 cefail ++
        bytesOf 1 creln ++ bytesOf 3 0)).written none 0 ps)

/-- A child's completion is told to the team entry that its parent link names (R114, R482). -/
def State.tellParent (s : State) (parent : DWord) (status : Nat) : State :=
  if parent.getLsbD 63 = false then s
  else
    match s.launch.entryAt (bitsN parent.toNat 15 0) with
    | none => s
    | some e =>
      if e.inUse = true ∧ e.gen % 2 ^ 32 = bitsN parent.toNat 47 16 then
        { s with launch := s.launch.setEntry { e with
            outstanding := e.outstanding - 1, perr := if status = 0 then e.perr else min 65535 (e.perr + 1) } }
      else s

/-! ## Acceptance (R102, R103, R106) -/

/-- The grid that a child's parent link names (R104, R113). -/
def State.parentGrid (s : State) (parent : DWord) : Option Grid :=
  if parent.getLsbD 63 = false then none
  else
    match s.launch.entryAt (bitsN parent.toNat 15 0) with
    | none => none
    | some e =>
      if e.inUse = true ∧ e.gen % 2 ^ 32 = bitsN parent.toNat 47 16 then
        s.grids.find? fun g => g.reaches.any fun r => r.teams.any fun t => t.entry == some e.index
      else none

/-- The reaches of a grid before dispatch (R126); a ferry-mode grid is one reach (R245). -/
def reachesOf (r : LaunchRecord) : List Reach :=
  let n := if r.ferry then r.teams else r.reachSize
  (List.range ((r.teams + n - 1) / n)).map fun j =>
    { index := j, phase := .waiting, relaunches := 0,
      teams := ((List.range n).map (j * n + ·)).filterMap fun t =>
        if t < r.teams then some { team := t, cores := [], lbase := 0, ended := false, entry := none } else none }

/-- A page put among others in the order of their virtual addresses. -/
def insertPage (p : Page) : List Page → List Page
  | [] => [p]
  | x :: xs => if p.vpage ≤ x.vpage then p :: x :: xs else x :: insertPage p xs

/-- A page joins the run that ends before it, when it goes on from it in physical memory with the same permissions (R107). -/
def joinExtent (xs : List Extent) (p : Page) : List Extent :=
  let y : Extent := { asid := p.asid, base := p.vpage, key := p.key, size := p.size, read := p.read, write := p.write, user := p.user }
  match xs.getLast? with
  | some x =>
    if x.base + x.size = p.vpage ∧ x.key + x.size = p.key ∧ x.read = p.read ∧ x.write = p.write ∧ x.user = p.user then
      xs.dropLast ++ [{ x with size := x.size + p.size }]
    else xs ++ [y]
  | none => [y]

/-- The extents of a declared range: the pages of the tables that it touches, in runs (R107). -/
def Vi.extentsOf (v : Vi) (a : DWord) (n : Nat) : List Extent :=
  let ps := v.pages.filter fun p => p.asid == v.desc.asidBase && rangesMeet a.toNat n p.vpage p.size
  (ps.foldr insertPage []).foldl joinExtent []

/-- The extent table of a task: up to 16 extents, for its ranges in control space and in local tensor space in declaration order
(R107). -/
def State.extentTable (s : State) (v : Vi) (r : LaunchRecord) : List Extent :=
  ((r.declared.filter fun x => inControl x.1 || s.inLocalTensor v x.1).flatMap fun x => v.extentsOf x.1 x.2.1).take 16

/-- The ancestors of the task that a record of a queue makes: those of its LAUNCH, else what its parent link names (R104, R113). -/
def State.ancestorsOf (s : State) (vi q seq : Nat) (parent : DWord) : List Nat :=
  match s.launch.lineage.find? fun x => x.vi == vi && x.q == q && x.seq == seq with
  | some x => x.ancestors
  | none =>
    match s.parentGrid parent with
    | some g => g.id :: g.ancestors
    | none => []

/-- A record of a queue has been accepted or rejected: its lineage is kept no longer. -/
def LaunchEngine.forget (l : LaunchEngine) (vi q seq : Nat) : LaunchEngine :=
  { l with lineage := l.lineage.filter fun x => !(x.vi == vi && x.q == q && x.seq == seq) }

/-- A record accepted as a task of the VI. -/
def State.acceptGrid (s : State) (v : Vi) (q : Queue) (c : Checked) : State :=
  let g : Grid :=
    { id := s.ids, vi := v.vi, q := q.q, order := v.accepted,
      depth := if q.deviceFed then bitsN c.record.parent.toNat 51 48 else 0,
      ancestors := if q.deviceFed then s.ancestorsOf v.vi q.q q.e c.record.parent else [],
      record := c.record, sections := c.image.sections, svText := c.image.svText, reaches := reachesOf c.record, map := c.map,
      extents := s.extentTable v c.record, reservedAt := none, passedSince := none, perr := 0, cefail := 0, firstFail := 0, creln := 0, failed := false }
  { (s.setVi { v with accepted := v.accepted + 1 }) with
      ids := s.ids + 1, grids := s.grids ++ [g], launch := s.launch.forget v.vi q.q q.e }

/-- Whether the range matcher has a free entry for a VI (R106): of its 4,096, 16 are kept for every active VI (log entry 108). -/
def State.matcherRoom (s : State) (v : Vi) : Bool :=
  let inFlight := fun vi : Nat => (s.grids.filter (·.vi == vi)).length
  let kept := s.vis.foldl (fun n x => n + if x.phase = .active ∨ x.phase = .frozen then max 16 (inFlight x.vi) else inFlight x.vi) 0
  decide (s.grids.length < Config.matcherEntries ∧ (inFlight v.vi < 16 ∨ kept < Config.matcherEntries))

/-- The queue goes on to its next record (R102). -/
def Queue.next (q : Queue) : Queue := { q with qacc := q.e, e := (q.e + 1) % 2 ^ 32, waitSince := none }

/-- The engine asks for what it waits for. -/
def State.askPlaces (s : State) (write : Bool) (ps : List Place) : State := ps.foldl (fun s p => s.askFor 0 0 write p) s

/-- A queue of a VI put back. -/
def State.putQueue (s : State) (vi : Nat) (q : Queue) : State :=
  match s.viAt vi with
  | some v => s.setVi (v.setQueue q)
  | none => s

/-- A record that is rejected (R63, R479, R482): its completion, its parent, the next record. -/
def State.rejectRecord (s : State) (v : Vi) (q : Queue) (bs : List Byte) (breach : Bool) : State :=
  let parent := BitVec.ofNat 64 (fieldAt bs 0x38 8)
  match s.complete v (BitVec.ofNat 64 (fieldAt bs 0x30 8)) (fieldAt bs 0 4) 1 0 0 0 0 with
  | .error ps => s.askPlaces true ps
  | .ok s =>
    let t := ({ s with launch := s.launch.forget v.vi q.q q.e } : State).putQueue v.vi q.next |>.tellParent (if q.deviceFed then parent else 0) 1
    if breach then t.freeze v.vi 2 else t

/-- A matching record is accepted or rejected, once everything it needs can be read. -/
def State.takeRecord (s : State) (v : Vi) (q : Queue) (bs : List Byte) : State :=
  match s.checkRecord v q bs with
  | .ok c => (s.acceptGrid v q c).putQueue v.vi q.next
  | .error (.wait ps) => s.askPlaces false ps
  | .error .bad => s.rejectRecord v q bs false
  | .error .breach => s.rejectRecord v q bs true

/-- Whether the engine may read a slot of a queue now (R102, R106). -/
def State.mayRead (s : State) (v : Vi) (q : Queue) : Bool :=
  decide (v.phase = .active ∧ q.qst = 1 ∧ q.e ≠ (q.k + 1) % 2 ^ 32) && v.preempt.isNone && s.matcherRoom v

/-- Where a pause has begun, a window under way is abandoned (R102). -/
def State.closeWindows (s : State) : State :=
  { s with vis := s.vis.map fun v =>
      if v.phase = .active ∧ v.preempt.isNone = true ∧ s.matcherRoom v = true then v
      else { v with queues := v.queues.map fun q => { q with waitSince := none } } }

/-- The address of a queue's next slot. -/
def Queue.slot (q : Queue) : DWord := q.base + BitVec.ofNat 64 (128 * (q.e % 2 ^ q.log))

/-- Whether the record of a queue's next slot can be taken now (R102). -/
def State.matches (s : State) (v : Vi) (q : Queue) : Bool :=
  s.mayRead v q &&
    match s.fetchBytes v q.slot 128 with
    | .ok bs => fieldAt bs 0 4 == q.e
    | .error _ => false

/-- SLOT_READ (R102, R103, R489): records that can be taken go in the order of their queues' numbers, and a window of 10 µs that has run
out without a match ends in state 2. -/
def execSlotRead (vi n : Nat) (s : State) : Out :=
  match (s.viAt vi).bind fun v => (v.queueAt n).map fun q => (v, q) with
  | none => s.skip
  | some (v, q) =>
    if s.mayRead v q = false ∨ v.queues.any (fun x => decide (x.q < n) && s.matches v x) = true then s.skip
    else
      match s.fetchBytes v q.slot 128 with
      | .error (.wait ps) => .next (s.askPlaces false ps)
      | .error .bad => .next (s.putQueue vi { q with qst := 4, waitSince := none })
      | .error .breach => .next ((s.putQueue vi q.next).freeze vi 2)
      | .ok bs =>
        if q.waitSince.any fun t => decide (t + 10 ≤ s.clock.us) then .next (s.putQueue vi { q with qst := 2, waitSince := none })
        else if fieldAt bs 0 4 = q.e then .next (s.takeRecord v q bs)
        else .next (s.putQueue vi { q with waitSince := q.waitSince.or (some s.clock.us) })

/-- STALE_KICK_TIMEOUT (R102). -/
def execStaleKickTimeout (vi n : Nat) (s : State) : Out :=
  match (s.viAt vi).bind fun v => (v.queueAt n).map fun q => (v, q) with
  | none => s.skip
  | some (v, q) =>
    match q.waitSince with
    | some t =>
      if s.mayRead v q = true ∧ t + 10 ≤ s.clock.us then .next (s.putQueue vi { q with qst := 2, waitSince := none })
      else s.skip
    | none => s.skip

end Sys2Proof.Machine
end

