-- ==== Sys2Proof/Machine/Async.lean ====
section
/-!
DEFINITION. Issuing copies, gathers and prefetches (R306, R309, R312 to R319), waiting for completion (R320 to R322).
-/
namespace Sys2Proof.Machine

/-- The first error of a list of checks. -/
def firstError (cs : List (Except (Nat × DWord) Unit)) : Option (Nat × DWord) :=
  cs.findSome? fun c => match c with
    | .error x => some x
    | .ok _ => none

/-- A trap of a range check: cause and first address that fails (log entry 20). -/
def State.trapRange (s : State) (acc : Access) (x : Nat × DWord) : Out := s.trapAddr x.1 acc x.2

/-- XCOPY (R306, R309, R312). Within a row of R309 the source is checked before the destination (log entry 20). -/
def execXcopy (d a b : BitVec 7) (s : State) : Out :=
  s.group { ss := [d.toNat, a.toNat, b.toNat], stream := true, lookout := false } fun h =>
    let x := s.wave.s b.toNat
    let src := s.wave.s a.toNat
    let dst := s.wave.s d.toNat
    let n := paramLen x
    if paramLegal x false = false ∨ 16777216 < n then s.trapCode 0x01
    else
      match s.side src, s.side dst with
      | .error c, _ => s.trapAddr c .read src
      | .ok _, .error c => s.trapAddr c .write dst
      | .ok sa, .ok sd =>
        if (sa = .store ∧ sd = .store) ∨ (sa.isRemote = true ∧ sd.isRemote = true) then
          s.trapAddr causePermission .write dst
        else
          match s.checkSide sa .read src n, s.checkSide sd .write dst n with
          | .error e, _ => s.trapRange .read e
          | .ok _, .error e => s.trapRange .write e
          | .ok _, .ok _ =>
            let counter := paramCounter 0 (bitsN x.toNat 62 60)
            if s.wave.counterFull counter then s.wait
            else
              let o := { s.newOp .copy counter (paramStream h x) (paramTag x) src dst n with
                policy := paramPolicy x, pages := s.rangePages src n ++ s.rangePages dst n, home := s.sidePkg sd,
                left := if n = 0 then [] else [(0, n)] }
              let s1 := s.startOp o
              let s2 := if n = 0 then
                  match s1.opAt s.ids with
                  | some o' => s1.endOp o' .success
                  | none => s1
                else s1
              s2.doneEnd

/-- The byte ranges of tensor rows that a tile copy touches, with the access it makes. -/
def Tile.rowRanges (t : Tile) : List (DWord × Nat) :=
  if t.rowLen = 0 then [] else (List.range t.rowsIn).map fun r => (t.d.rowAddr (t.r0 + r) 0 0 (t.first / 8), t.rowLen)

/-- XCOPYT (R306, R309, R314). -/
def execXcopyt (d a b : BitVec 7) (s : State) : Out :=
  s.group { ss := [d.toNat, a.toNat, b.toNat], stream := true, lookout := false } fun h =>
    let x := s.wave.s b.toNat
    let near := s.wave.s d.toNat
    let sel := (s.wave.s a.toNat).toNat
    let cols := bitsN x.toNat 15 0
    let rows := bitsN x.toNat 31 16
    let back := x.getLsbD 47
    let nacc := if back then Access.read else Access.write
    let tacc := if back then Access.write else Access.read
    if paramLegal x true = false ∨ cols = 0 ∨ rows = 0 then s.trapCode 0x01
    else
      match s.side near with
      | .error c => s.trapAddr c nacc near
      | .ok sn =>
        if sn.isRemote then s.trapAddr causePermission nacc near
        else
          match s.tensor (bitsN sel 15 0) (if back then 1 else 0) with
          | .notYet ps => (s.askAll ps).wait
          | .fault c e => s.trapAddr c (if c = causePermission then tacc else .read) e
          | .got t =>
            let tile : Tile := { d := t, cols := cols, rows := rows, c0 := bitsN sel 39 16, r0 := bitsN sel 63 40, near := near }
            match s.side t.base with
            | .error c => s.trapAddr c tacc t.base
            | .ok st =>
              if 16777216 < rows * tile.q then s.trapCode 0x01
              else if near.toNat % 16 ≠ 0 then s.trapAddr causeMisaligned nacc near
              else
                match s.checkRange nacc near (rows * tile.q),
                    firstError (tile.rowRanges.map fun r => s.checkSide st tacc r.1 r.2) with
                | .error e, _ => s.trapRange nacc e
                | .ok _, some e => s.trapRange tacc e
                | .ok _, none =>
                  let counter := paramCounter 0 (bitsN x.toNat 62 60)
                  if s.wave.counterFull counter then s.wait
                  else
                    let n := tile.units back
                    let o := { s.newOp (.copyT t.bytes cols rows tile.c0 tile.r0 back) counter (paramStream h x) (paramTag x)
                        t.base near n with
                      policy := paramPolicy x, pages := (s.rangePages near (rows * tile.q) ++ tile.rowRanges.flatMap fun r => s.rangePages r.1 r.2).eraseDups,
                      home := if back then s.sidePkg st else s.pkg,
                      left := if n = 0 then [] else [(0, n)] }
                    (s.startOp o).doneEnd

/-- What a lane of a gather gives: its source address, or the cause, access and address with which it fails (R309, R315). -/
def State.gatherLane (s : State) (size : Nat) (dst : DWord) (l : Nat) (src : DWord) :
    Except (Nat × Access × DWord) (Nat × DWord) :=
  match s.side src with
  | .error c => .error (c, .read, src)
  | .ok .store => .error (causePermission, .read, src)
  | .ok sd =>
    if src.toNat % size ≠ 0 then .error (causeMisaligned, .read, src)
    else
      match s.checkSide sd .read src size, s.checkRange .write (dst + BitVec.ofNat 64 (l * size)) size with
      | .error e, _ => .error (e.1, .read, e.2)
      | .ok _, .error e => .error (e.1, .write, e.2)
      | .ok _, .ok _ => .ok (l, src)

/-- XGATH (R306, R309, R315). A failure of the destination traps the wave before any lane's (log entry 20). -/
def execXgath (d a b : BitVec 7) (s : State) : Out :=
  s.group { vs := [a.toNat, a.toNat + 1], ss := [d.toNat, b.toNat], stream := true, lookout := false } fun h =>
    if s.wave.active.isEmpty then s.doneEnd
    else
      let x := s.wave.s b.toNat
      let dst := s.wave.s d.toNat
      let size := 2 ^ (paramLen x)
      if paramLegal x false = false ∨ 4 < paramLen x then s.trapCode 0x01
      else
        match s.side dst with
        | .error c => s.trapAddr c .write dst
        | .ok sd =>
          if sd.isRemote then s.trapAddr causePermission .write dst
          else if dst.toNat % size ≠ 0 then s.trapAddr causeMisaligned .write dst
          else
            let counter := paramCounter 2 (bitsN x.toNat 62 60)
            let rs := s.wave.active.map fun l => (l, s.gatherLane size dst l (s.wave.pair a.toNat l))
            let good := rs.filterMap fun r => r.2.toOption
            let bad := rs.filterMap fun r => match r.2 with
              | .error e => some (r.1, causeWord e.1 e.2.1, some e.2.2)
              | .ok _ => none
            if good.isEmpty = false ∧ s.wave.counterFull counter = true then s.wait
            else
              let s1 :=
                if good.isEmpty then s
                else
                  s.startOp { s.newOp (.gather size good) counter (paramStream h x) (paramTag x) 0 dst (size * good.length) with
                    policy := paramPolicy x, pages := (good.flatMap fun g => s.rangePages g.2 size ++
                      s.rangePages (dst + BitVec.ofNat 64 (g.1 * size)) size).eraseDups,
                    left := [(0, size * good.length)] }
              if bad.isEmpty then s1.doneEnd else (s.partly s1).trap (laneTrap bad)

/-! ## Prefetches (R317 to R319) -/

/-- PFT (R318). What it brings nearer changes no value; the unit keeps at most 16 per core. -/
def execPft (a b : BitVec 7) (s : State) : Out :=
  s.group { ss := [a.toNat, b.toNat] } fun _ =>
    let id := s.wave.s a.toNat
    let x := (s.wave.s b.toNat).toNat
    if id.toNat / 2 ^ 16 ≠ 0 ∨ x / 2 ^ 6 ≠ 0 ∨ 2 ≤ bitsN x 1 0 ∨ bitsN x 3 2 = 3 then s.trapCode 0x01
    else
      match s.tensor id.toNat 0 with
      | .notYet ps => (s.askAll ps).wait
      | .fault c e => s.trapAddr c .read e
      | .got t =>
        if (s.viewOf s.wave.env.vi (t.base.toNat / 2 ^ 40 % 16)).any fun m => m.pkg != s.pkg then s.done
        else if 16 ≤ s.core.prefetches.length then s.wait
        else
          let p : Prefetch :=
            { prio := bitsN x 5 4, level := bitsN x 1 0, cls := bitsN x 3 2, env := s.wave.env, mode := s.wave.arch.mode,
              desc := t.bytes }
          ({ s with core := { s.core with prefetches := s.core.prefetches ++ [p] } } : State).done

/-- A line brought in for an agent; a page that is absent or unreadable is skipped (R283). -/
def State.fetchLine (core level policy : Nat) (e : Env) (mode : Mode) (l : Nat) (s : State) (a : DWord) : State :=
  match s.place e mode .read l a with
  | .ok (.mem k) => if isHostKey k then s else s.bring core level policy k
  | _ => s

/-- The lines of a prefetch, in ascending order (R283, R318). -/
def State.fetchLines (s : State) (core : Nat) (p : Prefetch) : State :=
  (TDesc.lines ⟨p.desc⟩).foldl (fun s a => s.fetchLine core (p.level + 1) p.cls p.env p.mode 0 (BitVec.ofNat 64 a)) s

/-- PREFETCH_COMPLETE (R283, R318): a prefetch of the highest priority finishes. -/
def execPrefetchComplete (core n : Nat) (s : State) : Out :=
  let c := s.coreAt core
  match c.prefetches[n]? with
  | none => s.skip
  | some p =>
    if c.prefetches.any fun q => decide (p.prio < q.prio) then s.skip
    else .next ((s.setCore { c with prefetches := c.prefetches.eraseIdx n }).fetchLines core p)

/-- LOOK (R319): each active lane's line is brought to a level; it changes no value. A lane that reaches neither control nor local
tensor space is dropped (R292). -/
def execLook (a b : BitVec 7) (s : State) : Out :=
  s.group { vs := [a.toNat, a.toNat + 1], ss := [b.toNat] } fun _ =>
    let x := (s.wave.s b.toNat).toNat
    if s.wave.active.isEmpty = false ∧ (x / 2 ^ 4 ≠ 0 ∨ bitsN x 1 0 = 3 ∨ bitsN x 3 2 = 3) then s.trapCode 0x01
    else
      let look (s : State) (l : Nat) : State :=
        let a := s.wave.pair a.toNat l
        if spaceOf a < 2 then s
        else s.fetchLine s.core.id (bitsN x 1 0) (bitsN x 3 2) s.wave.env s.wave.arch.mode l (a &&& 0xFFFFFFFFFFFFFF80)
      (s.wave.active.foldl look s).done

/-! ## Waiting (R321, R322) -/

/-- WAITC (R321): the counter is below n. -/
def execWaitc (c : BitVec 2) (n : BitVec 6) (s : State) : Out :=
  s.group { terminal := true, lookout := false } fun _ =>
    if s.wave.counter c.toNat < n.toNat then s.done else s.stall

/-- TAGWANY (R322). -/
def execTagwany (a : BitVec 7) (s : State) : Out :=
  s.group { terminal := true, ss := [a.toNat], lookout := false } fun _ =>
    let m := s.wave.s a.toNat
    if m = 0 ∨ s.core.tagmap &&& m ≠ 0 then s.done else s.stall

/-- TAGWALL (R322). -/
def execTagwall (a : BitVec 7) (s : State) : Out :=
  s.group { terminal := true, ss := [a.toNat], lookout := false } fun _ =>
    let m := s.wave.s a.toNat
    if s.core.tagmap &&& m = m then s.done else s.stall

/-- The lowest set bit of a mask, 64 when there is none. -/
def lowestBit (m : DWord) : Nat := ((List.range 64).find? fun i => bitOf m i).getD 64

/-- The tags of a core that the current uncore cycle has set. -/
def Core.newTags (c : Core) (now : Nat) : DWord := if c.tagsAt = now then c.tagsNew else 0

/-- The settings that a take of the current uncore cycle may find: a clear comes before a setting of the same cycle (R323). -/
def Core.oldTags (c : Core) (now : Nat) : DWord := c.tagmap &&& ~~~(c.newTags now &&& ~~~c.tagsWas)

/-- Tags cleared at once, and held for a roll-back (R323, R455); a setting of the same uncore cycle stands. -/
def State.clearTags (s : State) (m : DWord) : State :=
  let gone := m &&& ~~~(s.core.newTags s.uncore)
  ({ s with core := { s.core with tagmap := s.core.tagmap &&& ~~~gone, tagsWas := s.core.tagsWas &&& ~~~m } } : State).hold
    (.tags (s.core.oldTags s.uncore &&& m))

/-- TAGFFR (R322, R323). -/
def execTagffr (d a : BitVec 7) (s : State) : Out :=
  s.group { terminal := true, ss := [d.toNat, a.toNat], lookout := false } fun _ =>
    let m := s.wave.s a.toNat
    let hit := s.core.oldTags s.uncore &&& m
    if m = 0 then ({ s with wave := s.wave.setS d.toNat 64 } : State).doneEnd
    else if hit = 0 then s.stall
    else
      let t := lowestBit hit
      let u := s.clearTags (laneBit t)
      ({ u with wave := u.wave.setS d.toNat (BitVec.ofNat 64 t) } : State).doneEnd

/-- TAGCLR (R322, R323). -/
def execTagclr (a : BitVec 7) (s : State) : Out :=
  s.group { ss := [a.toNat], lookout := false } fun _ => (s.clearTags (s.wave.s a.toNat)).doneEnd

/-- TAGRD (R322). -/
def execTagrd (d : BitVec 7) (s : State) : Out :=
  s.group { ss := [d.toNat], lookout := false } fun _ => s.scalarResult d.toNat s.core.tagmap

end Sys2Proof.Machine
end

