-- ==== Sys2Proof/Machine/Coherence.lean ====
section
/-!
DEFINITION. Control lines across the domain (R365 to R367, R373): what the home, the mirror home, a requester and a holder of a
copy do with the packets of VC0 and VC1 (log entry 32).
-/
namespace Sys2Proof.Machine

/-! ## Lines -/

/-- The line of a control packet. -/
def packetLine (p : FabPacket) : Nat := p.addr / 128

/-- A line's bytes and poison written. -/
def State.setLine (s : State) (line : Nat) (bytes : List Byte) (bad : Bool) : State :=
  s.writePoison (linePlaces line) bytes (bytes.map fun _ => bad)

def ControlHome.setCopy (c : ControlHome) (line : Nat) (st : Moesi) : ControlHome :=
  { c with copies := (c.copies.filter (·.1 != line)) ++ [(line, st)] }

def ControlHome.setEntry (c : ControlHome) (e : DirEntry) : ControlHome :=
  let rest := c.dir.filter (·.line != e.line)
  { c with dir := if e.st = .invalid then rest else rest ++ [e] }

/-- The bytes of a line at its home, while this package's copy may be newer. -/
def State.homeBytes (s : State) (line : Nat) : List Byte :=
  ((s.control.backing.find? (·.1 == line)).map (·.2)).getD (s.lineBytes line)

/-- This package takes a copy of a line, with bytes when some came. At the home, the line's own bytes are kept beside a shared
copy; a line that the home owns is its own. -/
def State.installCopy (s : State) (line : Nat) (st : Moesi) (bytes : Option (List Byte)) (bad : Bool) : State :=
  let home := s.homeFor (lineKey line) == some s.pkg
  let rest := s.control.backing.filter (·.1 != line)
  let backing := if st = .shared ∧ home = true then (line, s.homeBytes line) :: rest else rest
  let s := match bytes with
    | none => s
    | some bs => s.setLine line bs bad
  { s with control := { s.control.setCopy line st with backing := backing } }

/-- This package's copy of a line goes: the home's own bytes stand again, and no cache holds it any more (R276). -/
def State.dropCopy (s : State) (line : Nat) : State :=
  let home := s.homeFor (lineKey line) == some s.pkg
  let bs := (s.control.backing.find? (·.1 == line)).map (·.2)
  let s := match bs, home with
    | some b, _ => s.setLine line b false
    | none, true => s
    | none, false => s.setLine line (List.replicate 128 0) false
  ({ s with control := { s.control with copies := s.control.copies.filter (·.1 != line),
                                        backing := s.control.backing.filter (·.1 != line) } } : State).dropLine (lineKey line / 128)

/-! ## Packets -/

/-- A control packet for a package: one for this package itself is taken next. -/
def State.deliverTo (s : State) (p : FabPacket) : State :=
  if p.dst = s.pkg then
    match packetEvent p with
    | some i => s.soon (.op i)
    | none => s
  else s.post p

/-- A control packet about a line. -/
def State.controlPacket (s : State) (dst op line tag : Nat) : FabPacket :=
  { s.packet dst op with addr := 128 * line, len := 128, tag := tag }

/-- The answer to a control request, with a line or without. -/
def State.controlAnswer (s : State) (q : FabPacket) (op : Nat) (bytes : List Byte) (bad : Bool) : FabPacket :=
  { s.controlPacket q.src op (packetLine q) q.tag with addr := q.addr, payload := bytes, poisoned := bad }

/-! ## The requester -/

/-- A wanted line is asked for (R366): shared for reading, owned for writing, an upgrade when this package has a copy. -/
def State.postWant (s : State) (line : Nat) : Out :=
  match s.control.wanted.find? fun w => w.line == line && w.tag.isNone with
  | none => s.skip
  | some w =>
    let others := s.control.wanted.filter fun x => decide (x ≠ w)
    if s.atHand w.write (lineKey line) then .next { s with control := { s.control with wanted := others } }
    else
      match s.homeFor (lineKey line) with
      | none => .next { s with control := { s.control with wanted := others } }
      | some h =>
        let has := s.control.copies.any (·.1 == line)
        let op := if w.write then (if has then opUpgrade else opReadOwn) else opReadShared
        let tag := s.ids
        let s := { s with control := { s.control with wanted := others ++ [{ w with tag := some tag }] } }
        let p := s.controlPacket h op line tag
        .next (if h = s.pkg then ({ s with ids := tag + 1 } : State).deliverTo p else s.request p 0 line 128 true)

/-- The wanted lines that an answer satisfies are wanted no more. -/
def State.wantDone (s : State) (tag : Nat) : State :=
  (({ s with control := { s.control with wanted := s.control.wanted.filter (·.tag != some tag) } } : State)).dropRequest tag

/-- The line that a tag was asked for. -/
def State.wantAt (s : State) (tag : Nat) : Option Wanted := s.control.wanted.find? (·.tag == some tag)

/-- DATA_SHARED (R366): the requester has a shared copy. Data that an owner forwarded is acknowledged to the home. -/
def execDataShared (p : FabPacket) (s : State) : Out :=
  s.receive p opDataShared fun s =>
    match s.wantAt p.tag with
    | none => .next (s.dropRequest p.tag)
    | some w =>
      let t := (s.installCopy w.line .shared (some p.payload) p.poisoned).wantDone p.tag
      match s.homeFor (lineKey w.line) with
      | some h => .next (if p.src = h then t else t.deliverTo (t.controlPacket h opAcknowledgement w.line p.tag))
      | none => .next t

/-- DATA_EXCLUSIVE (R366): the requester is the owner. -/
def execDataExclusive (p : FabPacket) (s : State) : Out :=
  s.receive p opDataExclusive fun s =>
    match s.wantAt p.tag with
    | none => .next (s.dropRequest p.tag)
    | some w => .next ((s.installCopy w.line .modified (some p.payload) p.poisoned).wantDone p.tag)

/-- The destination elements of an atomic with its old value. -/
def fillOld (dst : List RegWrite) (old : DWord) : List RegWrite :=
  dst.zipIdx.map fun x =>
    match x.1 with
    | .vec r l _ => .vec r l (BitVec.ofNat 32 (old.toNat / 2 ^ (32 * x.2)))
    | .scal r _ => .scal r old
    | .flags f => .flags f

/-- Whether a held item is the atomic that was sent with a tag. -/
def Held.sentAs (h : Held) (tag : Nat) : Bool :=
  match h.kind with
  | .atomic _ _ _ _ _ _ sent => sent == some tag
  | _ => false

/-- An atomic's old value reaches the wave that issued it (R304, R366); poison is consumed by its reach (R467). -/
def State.atomicDone (s : State) (tag : Nat) (bytes : List Byte) (bad : Bool) : State :=
  match (s.core :: s.cores).find? fun c => c.held.any (·.sentAs tag) with
  | none => s
  | some c =>
    let s := s.setCore { c with held := c.held.filter fun h => !h.sentAs tag }
    match c.held.find? (·.sentAs tag) with
    | some { slot := slot, kind := .atomic _ _ ll dst _ _ _, .. } =>
      let s1 := s.resolve c.id slot ll (fillOld dst (BitVec.ofNat 64 (numOf bytes)))
      match s.waveAt ⟨c.id, slot⟩, bad with
      | some w, true => s1.soon (.op (.poisonConsumed w.env.grid w.env.reach))
      | _, _ => s1
    | _ => s

/-- COMPLETION (R366): an upgrade makes this package the owner; a control atomic brings its old value. -/
def execCompletion (p : FabPacket) (s : State) : Out :=
  s.receive p opCompletion fun s =>
    match s.wantAt p.tag with
    | some w => .next ((s.installCopy w.line .modified none false).wantDone p.tag)
    | none => .next ((s.dropRequest p.tag).atomicDone p.tag p.payload p.poisoned)

/-! ## Holders of copies -/

/-- FORWARDED_READ (R366): the owner sends the line to the requester, whose index the packet carries, and keeps an O copy. -/
def execForwardedRead (p : FabPacket) (s : State) : Out :=
  s.receive p opForwardedRead fun s =>
    let line := packetLine p
    if s.control.copies.all (·.1 != line) then s.skip
    else if s.keeperHolds (lineKey line) then .next (s.keepIn p)
    else
      let taker := (p.opnd.getD 0 0).toNat % 16
      let q := { s.controlPacket taker opDataShared line p.tag with payload := s.lineBytes line, poisoned := s.linePoison line }
      .next (({ s with control := s.control.setCopy line .owned } : State).deliverTo q)

/-- INVALIDATE (R366): the copy goes, and an owner's data with the acknowledgement. -/
def execInvalidate (p : FabPacket) (s : State) : Out :=
  s.receive p opInvalidate fun s =>
    let line := packetLine p
    if s.keeperHolds (lineKey line) then .next (s.keepIn p)
    else
      let dirty := s.control.copies.any fun c => c.1 == line && (c.2 == .modified || c.2 == .owned || c.2 == .exclusive)
      let q := s.controlAnswer p opAcknowledgement (if dirty then s.lineBytes line else []) (dirty && s.linePoison line)
      .next ((s.dropCopy line).deliverTo q)

/-! ## The mirror home (R367) -/

/-- MIRROR_UPDATE (R367): the data and the entry are kept, and acknowledged. -/
def execMirrorUpdate (p : FabPacket) (s : State) : Out :=
  s.receive p opMirrorUpdate fun s =>
    let line := packetLine p
    let e := DirEntry.ofWord line (p.opnd.getD 0 0)
    let rest : List DirEntry := s.control.mirror.filter fun x => x.line != line
    let ps := (List.range p.payload.length).map fun i => Place.mem (2 ^ 41 + 128 * line + i)
    let s := ({ s with control := { s.control with mirror := rest ++ [e] } } : State).writePoison ps p.payload
      (p.payload.map fun _ => p.poisoned)
    .next (s.deliverTo (s.controlAnswer p opMirrorAck [] false))

/-! ## The home -/

def State.txnAt (s : State) (line : Nat) : Option HomeTxn := s.control.txns.find? (·.line == line)
def State.setTxn (s : State) (t : HomeTxn) : State :=
  { s with control := { s.control with txns := s.control.txns.map fun x => if x.line = t.line then t else x } }

/-- The request is served: the next one for the line is taken (R366). -/
def State.endTxn (s : State) (line : Nat) : State :=
  let s := { s with control := { s.control with txns := s.control.txns.filter (·.line != line) } }
  match (s.fabric.heldIn.find? fun p => p.vc == 0 && packetLine p == line).bind packetEvent with
  | some i => s.soon (.op i)
  | none => s

/-- Whether the request of a transaction was forwarded to an owner on another package. -/
def HomeTxn.forwarded (t : HomeTxn) : Bool := t.sends.any (·.op == opForwardedRead)

/-- The change is made at the home, and the packets that depend on it leave (R367). -/
def State.install (s : State) (t : HomeTxn) : State :=
  let s := match t.data with
    | some bs => ({ s with control := { s.control with backing := s.control.backing.filter (·.1 != t.line) } } : State).setLine t.line bs
        (t.req.poisoned || t.sends.any (·.poisoned))
    | none => s
  let s := { s with control := s.control.setEntry t.entry }
  let s := t.sends.foldl State.deliverTo s
  if t.forwarded then s.setTxn { t with phase := .forwarding, acks := [t.req.src], sends := [] } else s.endTxn t.line

/-- Every acknowledgement is in: the mirror is told, and the change waits for it (R367). -/
def State.mirrorTxn (s : State) (t : HomeTxn) : State :=
  match s.mirrorPkg with
  | none => s.install t
  | some m =>
    let bad := if t.data.isSome then t.req.poisoned || t.sends.any (·.poisoned) else s.linePoison t.line
    let p := s.mirrorUpdate m t.entry (t.data.getD (s.homeBytes t.line)) bad t.req.tag
    (s.setTxn { t with phase := .mirroring }).post p

/-- What a request does once every copy that it recalls is in: `bytes` is the line's current value (R366). -/
def State.collected (s : State) (t : HomeTxn) (bytes : List Byte) (bad : Bool) : State :=
  let p := t.req
  if p.op = opControlAtomic then
    let a := atomicOf p.opnd
    let o := p.addr % 128
    let old := BitVec.ofNat 64 (fieldAt bytes o a.size)
    let new := match a.newValue old with
      | some x => bytes.take o ++ bytesOf a.size x.toNat ++ bytes.drop (o + a.size)
      | none => bytes
    let q := s.controlAnswer p opCompletion (bytesOf a.size old.toNat) bad
    s.mirrorTxn { t with data := some new, sends := [q] }
  else if p.op = opReadOwn ∨ (p.op = opUpgrade ∧ t.sends.isEmpty = true) then
    s.mirrorTxn { t with sends := [s.controlAnswer p opDataExclusive bytes bad] }
  else s.mirrorTxn t

/-- The transaction moves on when nothing is awaited any more. -/
def State.advance (s : State) (t : HomeTxn) (bytes : List Byte) (bad : Bool) : State :=
  if t.acks.isEmpty = false then s.setTxn t
  else match t.phase with
    | .collecting => s.collected t bytes bad
    | .mirroring => s.setTxn t
    | .forwarding => s.endTxn t.line

/-- The packages of a sharer vector. -/
def sharersOf (v : BitVec 16) : List Nat := (List.range 16).filter fun i => v.getLsbD i
def pkgBit (p : Nat) : BitVec 16 := BitVec.ofNat 16 (2 ^ p)

/-- A request is begun that invalidates every copy but the one of `keep`. The bytes of this package's own copy stay in the request
until the acknowledgements are in. -/
def State.beginRecall (s : State) (p : FabPacket) (entry : DirEntry) (keep : Option Nat) (sends : List FabPacket) : State :=
  let line := packetLine p
  let e := s.dirEntry line
  let own := s.control.copies.any (·.1 == line) && keep != some s.pkg
  let bytes := s.lineBytes line
  let bad := s.linePoison line
  let acks := (sharersOf (e.sharers ||| (if e.st = .invalid ∨ e.st = .shared then 0 else pkgBit e.owner))).filter fun x =>
    x != s.pkg && some x != keep && !s.fabric.lost.contains x
  let t : HomeTxn := { line := line, req := p, phase := .collecting, acks := acks, entry := entry, data := none, sends := sends }
  let s := { s with control := { s.control with txns := s.control.txns ++ [t] } }
  let s := if own then s.dropCopy line else s
  let s := acks.foldl (fun s x => s.post (s.controlPacket x opInvalidate line p.tag)) s
  if acks.isEmpty then s.advance t bytes bad
  else s.setTxn { t with req := { p with payload := if own then bytes else [], poisoned := own && bad } }

/-- A request that changes no other copy. -/
def State.beginPlain (s : State) (p : FabPacket) (entry : DirEntry) (data : Option (List Byte)) (sends : List FabPacket) : State :=
  let t : HomeTxn :=
    { line := packetLine p, req := p, phase := .collecting, acks := [], entry := entry, data := data, sends := sends }
  ({ s with control := { s.control with txns := s.control.txns ++ [t] } } : State).mirrorTxn t

/-- A control request reaches the home (R365, R366): requests for one line are served one at a time, and one for a line that is
not served here yet waits (R473). -/
def State.serveControl (s : State) (p : FabPacket) (op : Nat) (k : State → State) : Out :=
  s.receive p op fun s =>
    let line := packetLine p
    if s.servesLine (lineKey line) = false ∨ (s.txnAt line).isSome = true ∨ s.keeperHolds (lineKey line) = true then
      .next (s.keepIn p)
    else .next (k s)

/-- READ_SHARED (R366). -/
def execReadShared (p : FabPacket) (s : State) : Out :=
  s.serveControl p opReadShared fun s =>
    let line := packetLine p
    let e := s.dirEntry line
    let add := { e with sharers := e.sharers ||| pkgBit p.src }
    let data := s.controlAnswer p opDataShared (s.lineBytes line) (s.linePoison line)
    match e.st with
    | .invalid => s.beginPlain p { add with st := .shared } none [data]
    | .shared => s.beginPlain p add none [data]
    | _ =>
      if e.owner = s.pkg then
        ({ s with control := s.control.setCopy line .owned } : State).beginPlain p { add with st := .owned } none [data]
      else
        let f := { s.controlPacket e.owner opForwardedRead line p.tag with opnd := [BitVec.ofNat 64 p.src] }
        s.beginPlain p { add with st := .owned } none [f]

/-- The entry after a request for ownership (R366). -/
def ownedBy (line q : Nat) : DirEntry := { line := line, st := .modified, sharers := pkgBit q, owner := q }

/-- READ_OWN (R366). -/
def execReadOwn (p : FabPacket) (s : State) : Out :=
  s.serveControl p opReadOwn fun s => s.beginRecall p (ownedBy (packetLine p) p.src) (some p.src) []

/-- UPGRADE (R366): a requester whose copy has been invalidated meanwhile gets the line. -/
def execUpgrade (p : FabPacket) (s : State) : Out :=
  s.serveControl p opUpgrade fun s =>
    let line := packetLine p
    let e := s.dirEntry line
    let sends := if e.sharers.getLsbD p.src then [s.controlAnswer p opCompletion [] false] else []
    s.beginRecall p (ownedBy line p.src) (some p.src) sends

/-- WRITEBACK (R366, R367): from the owner, the data is stored at the home; any other changes nothing. -/
def execWriteback (p : FabPacket) (s : State) : Out :=
  s.serveControl p opWriteback fun s =>
    let line := packetLine p
    let e := s.dirEntry line
    let q := s.controlAnswer p opCompletion [] false
    if (e.st = .modified ∨ e.st = .owned) ∧ e.owner = p.src then
      let left := e.sharers &&& ~~~(pkgBit p.src)
      let after := if e.st = .modified then { e with st := .invalid, sharers := 0 } else { e with st := .shared, sharers := left }
      s.beginPlain p after (some p.payload) [q]
    else s.deliverTo q

/-- CONTROL_ATOMIC (R366): every copy is recalled, and the atomic performed at the home. -/
def execControlAtomic (p : FabPacket) (s : State) : Out :=
  s.serveControl p opControlAtomic fun s =>
    s.beginRecall p { line := packetLine p, st := .invalid, sharers := 0, owner := 0 } none []

/-- ACKNOWLEDGEMENT (R366): an acknowledgement reaches the home; an owner's brings the line. -/
def execAcknowledgement (p : FabPacket) (s : State) : Out :=
  s.receive p opAcknowledgement fun s =>
    match s.txnAt (packetLine p) with
    | none => .next s
    | some t =>
      if t.acks.contains p.src = false then .next s
      else
        let kept := t.req.payload
        let bytes := if p.payload.isEmpty then kept else p.payload
        let bad := if p.payload.isEmpty then t.req.poisoned else p.poisoned
        let t := { t with acks := t.acks.filter (· != p.src), req := { t.req with payload := bytes, poisoned := bad } }
        .next (s.advance t (if bytes.isEmpty then s.lineBytes t.line else bytes) bad)

/-- MIRROR_ACKNOWLEDGEMENT (R367): the change is made. -/
def execMirrorAcknowledgement (p : FabPacket) (s : State) : Out :=
  s.receive p opMirrorAck fun s =>
    match s.txnAt (packetLine p) with
    | some t => .next (if t.phase = .mirroring then s.install t else s)
    | none => .next s

/-! ## Loss of a response (R373) -/

/-- The grid and reach on whose behalf a control request was made. -/
def State.wantedFor (s : State) (tag : Nat) : Option (Nat × Nat) :=
  match s.wantAt tag with
  | some w => some (w.grid, w.reach)
  | none =>
    (s.core :: s.cores).findSome? fun c =>
      match c.held.find? (·.sentAs tag) with
      | some h => (s.waveAt ⟨c.id, h.slot⟩).map fun w => (w.env.grid, w.env.reach)
      | none => none

/-- CONTROL_REQUEST_TIMEOUT (R373): sent again up to three times; a fourth loss counts as poison that is consumed. -/
def execControlRequestTimeout (tag : Nat) (s : State) : Out :=
  match s.requestAt tag with
  | none => s.skip
  | some r =>
    if r.control = false ∨ s.clock.us < r.sentAt + 200 then s.skip
    else if r.resends < 3 then .next (s.resend r)
    else
      let t := s.wantDone tag
      match s.wantedFor tag with
      | some (g, x) => .next (t.soon (.op (.poisonConsumed g x)))
      | none => .next t

end Sys2Proof.Machine
end

