-- ==== Sys2Proof/Machine/Collective.lean ====
section
/-!
DEFINITION. Collectives (R376 to R384). Members greet one another when an operation is ready, compare their descriptors, and
move elements in pieces of at most 256 bytes (log entry 31).
-/
namespace Sys2Proof.Machine

/-! ## The descriptor (R376, R377) -/

/-- A collective at one member: its descriptor as it is used, its element count, and this member's index in the view. -/
structure Coll where
  desc : List Byte
  count : Nat
  own : Nat
  deriving DecidableEq, Repr

def Coll.src (c : Coll) : DWord := BitVec.ofNat 64 (fieldAt c.desc 0 8)
def Coll.dst (c : Coll) : DWord := BitVec.ofNat 64 (fieldAt c.desc 8 8)
def Coll.mask (c : Coll) : Nat := fieldAt c.desc 0x10 2
def Coll.op (c : Coll) : Nat := fieldAt c.desc 0x12 1
def Coll.red (c : Coll) : Nat := fieldAt c.desc 0x13 1
def Coll.type (c : Coll) : Nat := fieldAt c.desc 0x14 1
def Coll.det (c : Coll) : Bool := fieldAt c.desc 0x15 1 % 2 == 1
def Coll.root (c : Coll) : Nat := fieldAt c.desc 0x16 1
def Coll.group (c : Coll) : Nat := fieldAt c.desc 0x18 4

/-- The member indices, ascending. -/
def Coll.members (c : Coll) : List Nat := (List.range 16).filter fun i => c.mask / 2 ^ i % 2 = 1
def Coll.n (c : Coll) : Nat := c.members.length

/-- The rank of a member index. -/
def Coll.rank (c : Coll) (ix : Nat) : Nat := (c.members.filter (· < ix)).length

/-- The element size z. -/
def Coll.size (c : Coll) : Nat := if c.type = 1 ∨ c.type = 2 then 2 else 4

/-- Whether the operation combines values. -/
def Coll.reduces (c : Coll) : Bool := decide (c.op ≤ 1)

/-- Whether this member reads an input. -/
def Coll.reads (c : Coll) : Bool := c.op != 3 || c.root == c.own

/-- The elements that this member reads, and those that it writes (R377). -/
def Coll.inCount (c : Coll) : Nat := if c.reads then (if c.op = 4 then c.n * c.count else c.count) else 0
def Coll.outCount (c : Coll) : Nat :=
  if c.op = 1 then c.count / c.n else if c.op = 2 ∨ c.op = 4 then c.n * c.count else c.count

/-- The position of the first element of this member's output. -/
def Coll.outBase (c : Coll) : Nat := if c.op = 1 then c.rank c.own * (c.count / c.n) else 0

/-- The number of elements that this member sends, to itself included. -/
def Coll.sendCount (c : Coll) : Nat :=
  if c.reduces then c.count else if c.op = 3 ∧ c.root ≠ c.own then 0 else c.n * c.count

/-- Sent element u: the rank that it goes to, its place in the input, its position at that rank. -/
def Coll.unit (c : Coll) (u : Nat) : Nat × Nat × Nat :=
  if c.reduces then (u * c.n / c.count, u, u)
  else
    let pos := if c.op = 3 then u % c.count else c.rank c.own * c.count + u % c.count
    (u / c.count, if c.op = 4 then u else u % c.count, pos)

/-- The descriptor as the members compare it (R379): the reduction only where it is used. -/
def Coll.signature (c : Coll) : Nat :=
  c.mask + c.op * 2 ^ 16 + (if c.reduces then c.red * 2 ^ 24 else 0) + c.type * 2 ^ 32 + (if c.det then 2 ^ 40 else 0) + c.root * 2 ^ 48

/-- Item 4 of R378: the field values of R376, this package's bit, the condition of R377 and the sizes. Every member must be in
the view. -/
def Coll.legal (c : Coll) (view : List Member) : Bool :=
  decide (c.op ≤ 4 ∧ (c.reduces = true → c.red ≤ 2) ∧ c.type ≤ 4 ∧ fieldAt c.desc 0x15 1 < 2 ∧ fieldAt c.desc 0x17 1 = 0 ∧
    fieldAt c.desc 0x1C 36 = 0 ∧ c.mask / 2 ^ c.own % 2 = 1 ∧ c.mask / 2 ^ c.root % 2 = 1 ∧ c.root < 16 ∧
    (c.op = 1 → c.count % c.n = 0) ∧ c.inCount * c.size ≤ 268435456 ∧ c.outCount * c.size ≤ 268435456) &&
  c.members.all fun i => view.any (·.ix == i)

/-- The deterministic mode set in a descriptor's bytes (R376). -/
def withDet (bs : List Byte) (det : Bool) : List Byte :=
  if det then bs.set 0x15 (bs.getD 0x15 0 ||| 1) else bs

/-! ## Reductions (R380 to R382) -/

/-- Two element codes combined. -/
def collFloat (f : Fmt) (red x y : Nat) : Nat :=
  let a := f.decode x
  let b := f.decode y
  let r := match red with
    | 0 => sumExact .rne [a, b]
    | 1 => minmaxExact false a b
    | _ => minmaxExact true a b
  (f.finish .plain r).code

def collInt (signed : Bool) (red x y : Nat) : Nat :=
  let v := fun z : Nat => if signed then sextN 32 z else (z : Int)
  match red with
  | 0 => (x + y) % 2 ^ 32
  | 1 => if v x ≤ v y then x else y
  | _ => if v y ≤ v x then x else y

def Coll.combine (c : Coll) (x y : Nat) : Nat :=
  match c.type with
  | 0 => collFloat .f32 c.red x y
  | 1 => collFloat .f16 c.red x y
  | 2 => collFloat .bf16 c.red x y
  | 3 => collInt true c.red x y
  | _ => collInt false c.red x y

/-- The node of level k that starts at rank i (R93, R380): an absent child changes nothing. -/
def collNode (f : Nat → Nat → Nat) (leaf : Nat → Option Nat) : Nat → Nat → Option Nat
  | 0, i => leaf i
  | k + 1, i =>
    match collNode f leaf k i, collNode f leaf k (i + 2 ^ k) with
    | some a, some b => some (f a b)
    | some a, none => some a
    | none, b => b

/-- The reduction of an element's partials, given with their ranks in the order of arrival (R380, R381). -/
def Coll.reduce (c : Coll) (ps : List (Nat × Nat)) : Nat :=
  if c.det then (collNode c.combine (fun r => (ps.find? (·.1 == r)).map (·.2)) 4 0).getD 0
  else match ps with
    | [] => 0
    | p :: rest => rest.foldl (fun x q => c.combine x q.2) p.2

/-! ## Issue (R376, R378) -/

/-- Items 5 and 6 of R378 for one range: the side and alignment of row 2 and 4 of R309. -/
def State.collSide (s : State) (a : DWord) : Option Nat :=
  match s.side a with
  | .error c => some c
  | .ok .tensor => none
  | .ok _ => some causePermission

/-- The checks of the two ranges in the order of R378; the first failure. -/
def State.collRanges (s : State) (c : Coll) : Option (Access × Nat × DWord) :=
  let ins := if c.reads then [c.src] else []
  let side := (ins.findSome? fun a => (s.collSide a).map fun x => (Access.read, x, a)).or
    ((s.collSide c.dst).map fun x => (Access.write, x, c.dst))
  let align := if c.reads ∧ c.src.toNat % c.size ≠ 0 then some (Access.read, causeMisaligned, c.src)
    else if c.dst.toNat % c.size ≠ 0 then some (Access.write, causeMisaligned, c.dst) else none
  let pages :=
    match if c.reads then s.checkRange .read c.src (c.inCount * c.size) else .ok (), s.checkRange .write c.dst (c.outCount * c.size) with
    | .error e, _ => some (Access.read, e.1, e.2)
    | .ok _, .error e => some (Access.write, e.1, e.2)
    | .ok _, .ok _ => none
  (side.or align).or pages

/-- XCOLL with its descriptor read. -/
def State.issueCollective (s : State) (sa x : DWord) (h : Hints) (bs : List Byte) : Out :=
  let vi := s.wave.env.vi
  let c : Coll := { desc := withDet bs s.wave.env.det, count := paramLen x, own := (s.ownIndex vi).getD 16 }
  if c.legal (((s.viAt vi).map (·.view)).getD []) = false then s.trapAddr causeTranslation .read sa
  else
    match s.collRanges c with
    | some e => s.trapAddr e.2.1 e.1 e.2.2
    | none =>
      let counter := paramCounter 3 (bitsN x.toNat 62 60)
      if s.wave.counterFull counter then s.wait
      else
        let o := { s.newOp (.collective c.desc c.count []) counter (paramStream h x) (paramTag x) c.src c.dst c.count with
          policy := paramPolicy x, pages := ((if c.reads then s.rangePages c.src (c.inCount * c.size) else []) ++
            s.rangePages c.dst (c.outCount * c.size)).eraseDups,
          left := if c.sendCount = 0 then [] else [(0, c.sendCount)],
          out := if c.outCount = 0 then [] else [(c.outBase, c.outCount)] }
        (s.startOp o).doneEnd

/-- XCOLL (R376, R378). -/
def execXcoll (a b : BitVec 7) (s : State) : Out :=
  s.group { ss := [a.toNat, b.toNat], stream := true, lookout := false } fun h =>
    let sa := s.wave.s a.toNat
    let x := s.wave.s b.toNat
    if paramLegal x false = false ∨ paramLen x = 0 ∨ 16777216 < paramLen x then s.trapCode 0x01
    else if sa.toNat % 64 ≠ 0 then s.trapAddr causeMisaligned .read sa
    else if spaceOf sa ≠ 2 ∨ s.undecodable s.wave.env sa = true then s.trapAddr causeTranslation .read sa
    else
      match s.places s.wave.env s.wave.arch.mode .read 0 sa 64 with
      | .error c => s.trapAddr c .read sa
      | .ok ps => if s.blocked ps then (s.askAll ps).wait else s.issueCollective sa x h (s.bytesAt ps)

/-! ## Messages between members (R355, R384, log entry 31) -/

def collPartial : Nat := 0
def collValue : Nat := 1
def collMismatch : Nat := 2
def collHello : Nat := 3

/-- The collective of an operation. -/
def State.collOf (s : State) (o : AsyncOp) : Option Coll :=
  match o.kind with
  | .collective d n _ => some { desc := d, count := n, own := (s.ownIndex o.env.vi).getD 16 }
  | _ => none

/-- The members that an operation has heard; itself from its greeting on. -/
def AsyncOp.heard (o : AsyncOp) : List Nat :=
  match o.kind with
  | .collective _ _ h => h
  | _ => []

def AsyncOp.hear (o : AsyncOp) (ix : Nat) : AsyncOp :=
  match o.kind with
  | .collective d n h => { o with kind := .collective d n (h ++ [ix]) }
  | _ => o

/-- How many collectives of a group this package and a member have failed together: greetings of one that has failed are stale, those of
the next one wait (R379, log entry 31). -/
def State.collGen (s : State) (vi group ix : Nat) : Nat :=
  ((s.fabric.collGens.find? fun x => x.1 == vi && x.2.1 == group && x.2.2.1 == ix).map (·.2.2.2)).getD 0

def State.collBump (s : State) (vi group ix : Nat) : State :=
  let rest := s.fabric.collGens.filter fun x => !(x.1 == vi && x.2.1 == group && x.2.2.1 == ix)
  { s with fabric := { s.fabric with collGens := (vi, group, ix, s.collGen vi group ix + 1) :: rest } }

/-- A collective-data packet of an operation for a member. -/
def State.collPacket (s : State) (o : AsyncOp) (c : Coll) (m : Member) (kind first : Nat) (bytes : List Byte) (bad : Bool) : FabPacket :=
  { s.packet m.pkg opCollectiveData with
      vi := m.vi, asid := s.remoteAsid o m, strmCore := o.core, strmSlot := o.slot, strm := o.stream,
      len := bytes.length / c.size, payload := bytes, poisoned := bad,
      opnd := [BitVec.ofNat 64 (c.group + first * 2 ^ 32), BitVec.ofNat 64 (c.signature + o.env.vi * 2 ^ 56),
        BitVec.ofNat 64 (c.count + kind * 2 ^ 32 + s.collGen o.env.vi c.group m.ix * 2 ^ 40)] }

def collGroup (p : FabPacket) : Nat := (p.opnd.getD 0 0).toNat % 2 ^ 32
def collFirst (p : FabPacket) : Nat := (p.opnd.getD 0 0).toNat / 2 ^ 32
def collSig (p : FabPacket) : Nat := (p.opnd.getD 1 0).toNat % 2 ^ 56
def collVi (p : FabPacket) : Nat := (p.opnd.getD 1 0).toNat / 2 ^ 56
def collCount (p : FabPacket) : Nat := (p.opnd.getD 2 0).toNat % 2 ^ 32
def collKind (p : FabPacket) : Nat := (p.opnd.getD 2 0).toNat / 2 ^ 32 % 2 ^ 8
def collNumber (p : FabPacket) : Nat := (p.opnd.getD 2 0).toNat / 2 ^ 40

/-- A request of a collective to a member. -/
def State.collSend (s : State) (o : AsyncOp) (c : Coll) (m : Member) (kind first : Nat) (bytes : List Byte) (bad : Bool) : State :=
  s.request (s.collPacket o c m kind first bytes bad) o.id first (bytes.length / c.size) false

/-- The other members of a collective on packages that are not lost. -/
def State.collPeers (s : State) (o : AsyncOp) (c : Coll) : List Member :=
  (c.members.filterMap fun i => s.viewOf o.env.vi i).filter fun m => m.ix != c.own && !s.fabric.lost.contains m.pkg

/-- Operations of one group end with the mismatch status, and the other members learn of it (R379). -/
def State.collFail (s : State) (os : List (AsyncOp × Coll)) (more : List (AsyncOp × Coll × Member)) : State :=
  let notices := ((os.flatMap fun x => (s.collPeers x.1 x.2).map fun m => (x.1, x.2, m)) ++ more).foldl
    (fun ns x => if ns.any fun y => y.2.2.ix == x.2.2.ix then ns else ns ++ [x]) []
  let s := notices.foldl (fun s x => (s.post (s.collPacket x.1 x.2.1 x.2.2 collMismatch 0 [] false)).collBump x.1.env.vi x.2.1.group x.2.2.ix) s
  os.foldl (fun s x => s.endOp x.1 .mismatch) s

/-- The quarantine releases a collective: a second one of its group ends both with the mismatch status (R379). -/
def State.beginCollective (s : State) (o : AsyncOp) (c : Coll) : State :=
  let o := { o with started := true }
  let s := s.setOp o
  let same := s.ops.findSome? fun x =>
    match s.collOf x with
    | some d => if x.id ≠ o.id ∧ x.env.vi = o.env.vi ∧ x.started = true ∧ x.ended = false ∧ d.group = c.group then some (x, d) else none
    | none => none
  match same with
  | some x => s.collFail [x, (o, c)] []
  | none => s

/-- A member is ready: it tells the others (R379). A lost member fails the operation. -/
def State.greet (s : State) (o : AsyncOp) (c : Coll) : Out :=
  if o.heard.contains c.own ∨ s.heldBack o = true then s.skip
  else if (c.members.any fun i => (s.viewOf o.env.vi i).any fun m => s.fabric.lost.contains m.pkg) then .next (s.endOp o .peerLost)
  else
    let o := o.hear c.own
    .next ((s.collPeers o c).foldl (fun s m => s.collSend o c m collHello 0 [] false) (s.setOp o))

/-! ## Taking in data -/

/-- The address of an output position. -/
def Coll.outAddr (c : Coll) (pos : Nat) : DWord := c.dst + BitVec.ofNat 64 ((pos - c.outBase) * c.size)

/-- Output bytes written from a position on; none while a region is not at hand. A breach ends the operation (R489). -/
def State.collWrite (s : State) (o : AsyncOp) (c : Coll) (pos : Nat) (bytes : List Byte) (bad : Bool) : Option State :=
  match o.places (c.outAddr pos) bytes.length with
  | none => some (s.endOp o .remoteAbort)
  | some ps =>
    if s.breaks o.env.vi o.mode ps then some ((s.freeze o.env.vi 2).endOp o .remoteAbort)
    else if s.hostDown ps then some (s.endOp o .hostLinkDown)
    else if ps.any fun q => !s.available true q then none
    else
      some (((s.writePoison ps bytes (bytes.map fun _ => bad)).written none o.policy ps).setOp
        { o with out := takeRange o.out pos (bytes.length / c.size) })

/-- The partials of an element that have arrived: ranks and codes, in their order. -/
def AsyncOp.partials (o : AsyncOp) (size e : Nat) : List (Nat × Nat) :=
  o.parts.filterMap fun p =>
    if p.2.1 ≤ e ∧ e < p.2.1 + p.2.2.length / size then some (p.1, fieldAt p.2.2 ((e - p.2.1) * size) size) else none

/-- The elements from `e` on that have every partial, combined, as runs of positions with their bytes. -/
def AsyncOp.results (o : AsyncOp) (c : Coll) (e : Nat) : Nat → List (Nat × List Byte)
  | 0 => []
  | k + 1 =>
    let ps := o.partials c.size e
    let rest := o.results c (e + 1) k
    if ps.length < c.n then rest
    else
      let bs := bytesOf c.size (c.reduce ps)
      match rest with
      | (f, ds) :: more => if f = e + 1 then (e, bs ++ ds) :: more else (e, bs) :: rest
      | [] => [(e, bs)]

/-- One run of results written here and, in an all-reduce, sent to the other members. -/
def State.collResult (s : State) (id : Nat) (c : Coll) (r : Nat × List Byte) : Option State :=
  match s.opAt id with
  | none => some s
  | some o =>
    if o.ended then some s
    else
      match s.collWrite o c r.1 r.2 false with
      | none => none
      | some s =>
        match s.opAt id with
        | none => some s
        | some o =>
          if o.ended ∨ c.op ≠ 0 then some s
          else some ((s.collPeers o c).foldl (fun s m => s.collSend o c m collValue r.1 r.2 false) s)

/-- Elements of a rank taken in at a position; none while they must wait. A reduction consumes poison (R467). -/
def State.takeIn (s : State) (o : AsyncOp) (c : Coll) (rank kind pos : Nat) (bytes : List Byte) (bad : Bool) : Option State :=
  if c.reduces = true ∧ kind = collPartial then
    let o := { o with parts := o.parts ++ [(rank, pos, bytes)] }
    let s := s.setOp o
    let s := if bad then s.soon (.op (.poisonConsumed o.env.grid o.env.reach)) else s
    (o.results c pos (bytes.length / c.size)).foldl (fun r x => r.bind fun s => s.collResult o.id c x) (some s)
  else s.collWrite o c pos bytes bad

/-! ## Steps (R384) -/

/-- Part of a collective is performed: with no elements, the greeting; else `n` sent elements from `off` on, all for one member. -/
def State.performCollective (s : State) (o : AsyncOp) (off n : Nat) : Out :=
  match s.collOf o with
  | none => s.skip
  | some c =>
    if o.started = false ∨ o.ended = true ∨ s.viRuns o.env.vi = false then s.skip
    else if n = 0 then s.greet o c
    else
      let u := c.unit off
      let taker := c.members.getD u.1 16
      if hasRange o.left off n = false ∨ 256 < n * c.size ∨ (c.unit (off + n - 1)).1 ≠ u.1 ∨ o.heard.contains taker = false ∨
          o.heard.contains c.own = false then s.skip
      else
        match o.places (c.src + BitVec.ofNat 64 (u.2.1 * c.size)) (n * c.size) with
        | none => .next (s.endOp o .remoteAbort)
        | some ps =>
          if s.breaks o.env.vi o.mode ps then .next ((s.freeze o.env.vi 2).endOp o .remoteAbort)
          else if s.hostDown ps then .next (s.endOp o .hostLinkDown)
          else if ps.any fun q => !s.available false q then
            .next (ps.foldl (fun s q => s.askFor o.env.grid o.env.reach false q) s)
          else
            let o' := { o with left := takeRange o.left off n }
            let s := s.homeReads o.policy ps
            let bytes := ps.map s.released
            let bad := ps.any s.poisoned
            if taker = c.own then
              match (s.setOp o').takeIn o' c (c.rank c.own) collPartial u.2.2 bytes bad with
              | some t => .next t
              | none =>
                match o.places (c.outAddr u.2.2) (n * c.size) with
                | some qs => .next (qs.foldl (fun s q => s.askFor o.env.grid o.env.reach true q) s)
                | none => .next s
            else
              match s.viewOf o.env.vi taker with
              | none => .next (s.endOp o .remoteAbort)
              | some m => .next ((s.setOp o').collSend o' c m collPartial u.2.2 bytes bad)

/-- The member that sent a packet, in the view of the VI that it is for. -/
def State.collSender (s : State) (p : FabPacket) : Option Member := (s.viAt p.vi).bind fun v => v.view.find? fun m => m.pkg == p.src

/-- The operation of this package that a packet is for: of its tenant and group, not ended (R379). -/
def State.collMatch (s : State) (p : FabPacket) (m : Member) : Option (AsyncOp × Coll) :=
  s.ops.findSome? fun o =>
    match s.collOf o with
    | some c =>
      if o.env.vi = p.vi ∧ o.started = true ∧ o.ended = false ∧ c.group = collGroup p ∧ m.vi = collVi p then some (o, c) else none
    | none => none

/-- A packet is acknowledged, where its sender waits for that: one kept after it waits no more. -/
def State.collAck (s : State) (p : FabPacket) : State := if p.tag = 0 then s else s.answer p opCollectiveAck [] false

/-- A packet that has been acknowledged is kept. -/
def State.collKeep (s : State) (p : FabPacket) : State := s.keepIn { p with tag := 0 }

/-- Whether a greeting names a package that is lost among its members. -/
def State.collLost (s : State) (p : FabPacket) : Bool :=
  ((s.viAt p.vi).map (·.view)).getD [] |>.any fun m => collSig p / 2 ^ m.ix % 2 == 1 && s.fabric.lost.contains m.pkg

/-- A greeting or a notice of a mismatch: the members compare what they perform (R379). One that comes before the operation that it is for
is kept; one for an operation that has failed is stale. -/
def State.takeWord (s : State) (p : FabPacket) (m : Member) : State :=
  let n := s.collGen p.vi (collGroup p) m.ix
  if collNumber p < n then s
  else if n < collNumber p then s.collKeep p
  else
    match (if s.collLost p then none else some (s.collMatch p m)) with
    | none => s
    | some none => s.collKeep p
    | some (some (o, c)) =>
      if collKind p = collMismatch then s.collFail [(o, c)] [(o, c, m)]
      else if o.heard.contains m.ix then s.collKeep p
      else if collSig p = c.signature ∧ collCount p = c.count then s.setOp (o.hear m.ix)
      else s.collFail [(o, c)] [(o, c, m)]

/-- Elements refused with the abort status: their operation has ended here (log entry 31). -/
def State.collRefuse (s : State) (p : FabPacket) : State :=
  s.post { s.packet p.src opCollectiveAck with
    tag := p.tag, vi := p.vi, asid := p.asid, strmCore := p.strmCore, strmSlot := p.strmSlot, strm := p.strm,
    opnd := [BitVec.ofNat 64 (statusCode .remoteAbort)] }

/-- The cause and the first failing offset of elements that are written here, translated afresh at their home (R108, R370). -/
def State.collFault (s : State) (o : AsyncOp) (c : Coll) (p : FabPacket) : Option (Nat × Nat) :=
  if c.reduces = true ∧ collKind p = collPartial then none
  else
    (List.range p.payload.length).findSome? fun i =>
      match s.translate (agentEnv p.vi o.env.asid 1024) .supervisor .write (c.outAddr (collFirst p) + BitVec.ofNat 64 i) with
      | .error e => some (e, i)
      | .ok _ => none

/-- Elements arrive, and are taken in, or wait for their place. -/
def State.takeElements (s : State) (v : Vi) (p : FabPacket) (m : Member) : State :=
  match s.collMatch p m with
  | none => s.collRefuse p
  | some (o, c) =>
    if o.heard.contains m.ix = false ∨ collNumber p ≠ s.collGen p.vi (collGroup p) m.ix then s.collRefuse p
    else
      match (if p.tag = 0 then none else s.collFault o c p) with
      | some e => s.faultOr v { p with addr := (c.outAddr (collFirst p)).toNat % 2 ^ 40 } e.1 e.2 3
      | none =>
        match s.takeIn o c (c.rank m.ix) (collKind p) (collFirst p) p.payload p.poisoned with
        | some t => t.collAck p
        | none =>
          match o.places (c.outAddr (collFirst p)) p.payload.length with
          | some qs => ((qs.foldl (fun s q => s.askFor o.env.grid o.env.reach true q) s).collAck p).collKeep p
          | none => (s.collAck p).collKeep p

/-- Whether the collective engine has reported stopped for a VI's pre-emption (R384, R450). -/
def Vi.collStopped (v : Vi) : Bool := v.preempt.any fun p => !p.waiting.contains .collective

/-- COLLECTIVE_DATA (R33, R369, R379 to R384): what comes for a VI whose engine has stopped waits. -/
def execCollectiveData (p : FabPacket) (s : State) : Out :=
  s.receive p opCollectiveData fun s =>
    match s.viAt p.vi with
    | none => .next (s.answerAbsent p opCollectiveAck)
    | some v =>
      if v.phase = .absent ∨ v.phase = .teardown then .next (s.answerAbsent p opCollectiveAck)
      else if v.phase = .frozen then .next (s.keepIn p)
      else if p.tag ≠ 0 ∧ s.fabric.homeFrozen.contains (streamOf p) = true then .next (s.answer p opFrozenRefusal [] false)
      else if v.collStopped then .next ((s.collAck p).collKeep p)
      else
        match s.collSender p with
        | none => .next (s.collRefuse p)
        | some m =>
          .next (if collKind p = collHello ∨ collKind p = collMismatch then (s.collAck p).takeWord p m else s.takeElements v p m)

/-- COLLECTIVE_ACKNOWLEDGEMENT (R356, R383): the other member has read what it was sent. -/
def execCollectiveAcknowledgement (p : FabPacket) (s : State) : Out :=
  s.receive p opCollectiveAck fun s =>
    s.answered p fun r _ s =>
      .next (if p.opnd = [BitVec.ofNat 64 (statusCode .remoteAbort)] then s.failRequest r .remoteAbort else s.dropRequest r.tag)

/-- COLLECTIVE_COMPLETE (R383): the output is written, and the others have read this member's input. -/
def execCollectiveComplete (id : Nat) (st : OpStatus) (s : State) : Out :=
  match s.opAt id with
  | none => s.skip
  | some o =>
    match s.collOf o with
    | none => s.skip
    | some c =>
      if st = .success ∧ o.started = true ∧ o.ended = false ∧ o.left = [] ∧ o.out = [] ∧ s.awaiting id = false ∧
          (c.members.all o.heard.contains) = true then
        .next (s.endOp o .success)
      else s.skip

end Sys2Proof.Machine
end

