-- ==== Sys2Proof/Machine/FpFunc.lean ====
section
/-!
DEFINITION. The functions of 0x14 that are not algebraic (R207, R208): 2^a, log₂ a, sin a, cos a, tanh a. Each is
computed in fixed point with 640 fractional bits and finished with a sticky bit, so that the single rounding of R207 is
the rounding of the exact value (log entry 10).
-/
namespace Sys2Proof.Machine

/-- Fractional bits of the fixed-point work. -/
def fx : Nat := 640

/-- One in fixed point. -/
def fxOne : Nat := 2 ^ fx

/-- Sum of `x^(2i+1) / (2i+1)` from term `i`, with sign alternating when `alt`: `p` holds `x^(2i+1)`. -/
def oddSeries (alt : Bool) (x2 : Nat) : Nat → Nat → Nat → Int
  | 0, _, _ => 0
  | k + 1, i, p =>
    let t : Int := (p / (2 * i + 1) : Nat)
    (if alt && i % 2 == 1 then -t else t) + oddSeries alt x2 k (i + 1) (p * x2 / fxOne)

/-- atan(1/n) and ln 2 = 2 atanh(1/3) in fixed point. -/
def atanInv (n : Nat) : Nat := (oddSeries true (fxOne / (n * n)) 330 0 (fxOne / n)).toNat
def ln2 : Nat := 2 * (oddSeries false (fxOne / 9) 330 0 (fxOne / 3)).toNat

/-- π by Machin's formula. -/
def pi : Nat := 16 * atanInv 5 - 4 * atanInv 239

/-- Taylor sum of `x^i / i!` taking every `step`-th term with alternating sign when `alt`; `p` is term `i`. -/
def taylor (alt : Bool) (x : Nat) (step : Nat) : Nat → Nat → Nat → Bool → Int
  | 0, _, _, _ => 0
  | k + 1, i, p, s =>
    let p' := if step = 1 then p * x / fxOne / (i + 1) else p * x / fxOne * x / fxOne / ((i + 1) * (i + 2))
    (if s then -(p : Int) else p) + taylor alt x step k (i + step) p' (alt && !s)

/-- e^x, sin x and cos x for 0 ≤ x < 2 in fixed point. -/
def expFx (x : Nat) : Nat := (taylor false x 1 170 0 fxOne false).toNat
def cosFx (x : Nat) : Nat := (taylor true x 2 90 0 fxOne false).toNat
def sinFx (x : Nat) : Nat := (taylor true x 2 90 1 x false).toNat

/-- A finite magnitude in fixed point. -/
def toFx (m : Nat) (e : Int) : Nat := if -(fx : Int) ≤ e then m * 2 ^ (e + fx).toNat else m / 2 ^ (-(e + fx)).toNat

/-- An inexact fixed-point value as an exact value with a sticky bit. -/
def ofFx (neg : Bool) (x : Nat) : Val := let r := sticky x true (-(fx : Int)); .fin neg r.1 r.2

/-- sin (`c = 0`) or cos (`c = 1`) of a finite non-zero value: quadrant and remainder of π/2. -/
def trigFin (c : Nat) (neg : Bool) (m : Nat) (e : Int) : Val :=
  let x := toFx m e
  let h := pi / 2
  let k := x / h + c
  let r := x % h
  let v := if k % 2 = 0 then sinFx r else cosFx r
  let flip := decide (k % 4 ≥ 2)
  ofFx (if c = 0 then neg != flip else flip) v

def sinExact : Val → Exact
  | .nan s => (.nan false, snanFlag [.nan s])
  | .inf _ => (.nan false, fNV)
  | .fin n m e => if m = 0 then (.fin n 0 0, 0) else (trigFin 0 n m e, 0)

def cosExact : Val → Exact
  | .nan s => (.nan false, snanFlag [.nan s])
  | .inf _ => (.nan false, fNV)
  | .fin n m e => if m = 0 then (.fin false 1 0, 0) else (trigFin 1 n m e, 0)

/-- 2^x for x = ±(whole + frac / 2^640). -/
def exp2Parts (neg : Bool) (x : Nat) : Val :=
  let n : Int := if neg then -((x / fxOne : Nat) : Int) else (x / fxOne : Nat)
  let f := x % fxOne
  if f = 0 then .fin false 1 n
  else
    let g := if neg then fxOne - f else f
    let n' := if neg then n - 1 else n
    let r := sticky (expFx (g * ln2 / fxOne)) true (-(fx : Int))
    .fin false r.1 (r.2 + n')

def exp2Exact : Val → Exact
  | .nan s => (.nan false, snanFlag [.nan s])
  | .inf n => (if n then .fin false 0 0 else .inf false, 0)
  | .fin n m e =>
    if m = 0 then (.fin false 1 0, 0)
    else if magGt m e 1024 0 then (if n then .fin false 1 (-2048) else .fin false 1 2048, 0)
    else (exp2Parts n (toFx m e), 0)

/-- ln y for 1 ≤ y < 2 in fixed point: 2 atanh ((y - 1) / (y + 1)). -/
def lnFx (y : Nat) : Nat :=
  let z := (y - fxOne) * fxOne / (y + fxOne)
  2 * (oddSeries false (z * z / fxOne) 220 0 z).toNat

def log2Exact : Val → Exact
  | .nan s => (.nan false, snanFlag [.nan s])
  | .inf n => if n then (.nan false, fNV) else (.inf false, 0)
  | .fin n m e =>
    if m = 0 then (.inf true, fDZ)
    else if n then (.nan false, fNV)
    else
      let p := leadPos m
      let k : Int := e + p
      if m = 2 ^ p then (.fin (decide (k < 0)) k.natAbs 0, 0)
      else
        let fr := lnFx (m * 2 ^ (fx - p)) * fxOne / ln2
        let v : Int := k * fxOne + fr
        if v < 0 then (ofFx true (v.natAbs - 1), 0) else (ofFx false v.natAbs, 0)

def tanhExact : Val → Exact
  | .nan s => (.nan false, snanFlag [.nan s])
  | .inf n => (.fin n 1 0, 0)
  | .fin n m e =>
    if m = 0 then (.fin n 0 0, 0)
    else if magGt m e 200 0 then (ofFx n (fxOne - 1), 0)
    else
      let x := toFx m (e + 1)
      let k := x / ln2
      let er := expFx (x % ln2) * 2 ^ k
      (ofFx n ((er - fxOne) * fxOne / (er + fxOne)), 0)

end Sys2Proof.Machine
end

