-- ==== Sys2Proof/Machine/VectorFp.lean ====
section
/-!
DEFINITION. The vector floating-point instructions of 0x10 to 0x15 (R200 to R209).
-/
namespace Sys2Proof.Machine

/-- The rounding hints of 0x10 to 0x16 (R168). -/
def Form.fp (vs ss : List Nat) : Form := { vs := vs, ss := ss, rm := true, sat := true }

/-- An operation on one element: the environment and the source values. -/
abbrev ElemOp := FpEnv → List Val → Exact

/-- One element of a format: sources flushed under FTZ, the exact result rounded once (R200). -/
def elem (f : Fmt) (env : FpEnv) (g : ElemOp) (xs : List Nat) : FpRes :=
  f.finish env (g env (xs.map (f.decodeFtz env.ftz)))

/-- A binary32 lane (R200). -/
def lane32 (env : FpEnv) (g : ElemOp) (xs : List Word) : LaneRes :=
  let r := elem .f32 env g (xs.map (·.toNat))
  ⟨BitVec.ofNat 32 r.code, r.flags⟩

/-- A lane of two 16-bit elements: written whole, with the union of the flags (R200, R204). -/
def lane16 (f : Fmt) (env : FpEnv) (g : ElemOp) (xs : List Word) : LaneRes :=
  let r0 := elem f env g (xs.map fun x => x.toNat % 2 ^ 16)
  let r1 := elem f env g (xs.map fun x => x.toNat / 2 ^ 16)
  ⟨BitVec.ofNat 32 (r0.code + r1.code * 2 ^ 16), r0.flags ||| r1.flags⟩

/-- binary16 or bfloat16 by fn5[4] (R204). -/
def fmt16 (b : BitVec 1) : Fmt := if b = 0 then .f16 else .bf16

def first (xs : List Val) : Val := xs.headD (.nan false)
def second (xs : List Val) : Val := xs.getD 1 (.nan false)
def third (xs : List Val) : Val := xs.getD 2 (.nan false)

/-- The element operations (R201, R202, R205). -/
def opAdd : ElemOp := fun env xs => sumExact env.rm [first xs, second xs]
def opSub : ElemOp := fun env xs => sumExact env.rm [first xs, (second xs).negate]
def opMul : ElemOp := fun _ xs => mulExact (first xs) (second xs)
def opMin : ElemOp := fun _ xs => minmaxExact false (first xs) (second xs)
def opMax : ElemOp := fun _ xs => minmaxExact true (first xs) (second xs)
def opFma (negP negC : Bool) : ElemOp := fun env xs => fmaExact env.rm negP negC (first xs) (second xs) (third xs)
def opRint : ElemOp := fun env xs => rintExact env.rm (first xs)
def opDiv : ElemOp := fun _ xs => divExact (first xs) (second xs)
def opUnary (f : Val → Exact) : ElemOp := fun _ xs => f (first xs)

/-- A two-source binary32 instruction (R201). -/
def State.fp2 (s : State) (d a b : BitVec 7) (g : ElemOp) : Out :=
  s.group (.fp [d.toNat, a.toNat, b.toNat] []) fun h =>
    s.fpLanes d.toNat fun l => lane32 (s.wave.fpEnv h) g [s.wave.v a.toNat l, s.wave.v b.toNat l]

/-- A two-source packed 16-bit instruction (R204). -/
def State.fp2h (s : State) (d a b : BitVec 7) (f : BitVec 1) (g : ElemOp) : Out :=
  s.group (.fp [d.toNat, a.toNat, b.toNat] []) fun h =>
    s.fpLanes d.toNat fun l => lane16 (fmt16 f) (s.wave.fpEnv h) g [s.wave.v a.toNat l, s.wave.v b.toNat l]

/-- An instruction that only copies bits: no flush, no flag, no trap (R65, R201, R203, R204). -/
def State.fpBits (s : State) (d a b : BitVec 7) (g : Word → Word → Word) : Out :=
  s.group (.fp [d.toNat, a.toNat, b.toNat] []) fun _ =>
    s.vecLanes d.toNat fun l => g (s.wave.v a.toNat l) (s.wave.v b.toNat l)

/-- A fused multiply-add on binary32, the addend from the HSRC register or vd (R189, R205). -/
def State.fma32 (s : State) (d a b : BitVec 7) (negP negC : Bool) : Out :=
  s.group { Form.fp [d.toNat, a.toNat, b.toNat] [] with counts := [0, 1], extra := .vector } fun h =>
    s.fpLanes d.toNat fun l =>
      lane32 (s.wave.fpEnv h) (opFma negP negC) [s.wave.v a.toNat l, s.wave.v b.toNat l, s.wave.v (h.extra.headD d.toNat) l]

/-- The same on two 16-bit elements (R206). -/
def State.fma16 (s : State) (d a b : BitVec 7) (f : BitVec 1) (negP negC : Bool) : Out :=
  s.group { Form.fp [d.toNat, a.toNat, b.toNat] [] with counts := [0, 1], extra := .vector } fun h =>
    s.fpLanes d.toNat fun l =>
      lane16 (fmt16 f) (s.wave.fpEnv h) (opFma negP negC)
        [s.wave.v a.toNat l, s.wave.v b.toNat l, s.wave.v (h.extra.headD d.toNat) l]

/-- The lane of VDOT2: two exact 16-bit products and a binary32 addend, one rounding (R206). -/
def dot2 (f : Fmt) (env : FpEnv) (a b c : Word) : LaneRes :=
  let e := fun (x : Word) (i : Nat) => f.decodeFtz env.ftz (x.toNat / 2 ^ (16 * i) % 2 ^ 16)
  let p0 := mulExact (e a 0) (e b 0)
  let p1 := mulExact (e a 1) (e b 1)
  let z := Fmt.f32.decodeFtz env.ftz c.toNat
  let x := sumExact env.rm [p0.1, p1.1, z]
  let r := Fmt.f32.finish env (x.1, p0.2 ||| p1.2 ||| x.2 ||| snanFlag [z])
  ⟨BitVec.ofNat 32 r.code, r.flags⟩

/-- A correctly rounded function of 0x14: long-latency when no trap is enabled, else the wave holds for it (R188, R207). -/
def State.fpFunc (s : State) (d : BitVec 7) (srcs : List Nat) (g : ElemOp) : Out :=
  s.group (.fp (d.toNat :: srcs) []) fun h =>
    let res := fun l => lane32 (s.wave.fpEnv h) g (srcs.map fun r => s.wave.v r l)
    if fpcTrapEn s.wave.arch.fpc = 0 then s.fpLong d.toNat res else s.fpLanes d.toNat res

/-- A lane combined with the binary32 value of a scalar (R209). -/
def State.fpScalar (s : State) (d a b : BitVec 7) (g : ElemOp) (withD : Bool) : Out :=
  s.group (.fp [d.toNat, a.toNat] [b.toNat]) fun h =>
    s.fpLanes d.toNat fun l =>
      lane32 (s.wave.fpEnv h) g
        ([s.wave.v a.toNat l, (s.wave.s b.toNat).setWidth 32] ++ if withD then [s.wave.v d.toNat l] else [])

/-- VADD_F32 (R201): the operation of R201 or R202. -/
def execVaddF32 (d a b : BitVec 7) (s : State) : Out :=
  s.fp2 d a b opAdd

/-- VSUB_F32 (R201): the operation of R201 or R202. -/
def execVsubF32 (d a b : BitVec 7) (s : State) : Out :=
  s.fp2 d a b opSub

/-- VMUL_F32 (R201): the operation of R201 or R202. -/
def execVmulF32 (d a b : BitVec 7) (s : State) : Out :=
  s.fp2 d a b opMul

/-- VMIN_F32 (R202): the operation of R201 or R202. -/
def execVminF32 (d a b : BitVec 7) (s : State) : Out :=
  s.fp2 d a b opMin

/-- VMAX_F32 (R202): the operation of R201 or R202. -/
def execVmaxF32 (d a b : BitVec 7) (s : State) : Out :=
  s.fp2 d a b opMax

/-- VABS_F32 (R201): bit 31 cleared. -/
def execVabsF32 (d a : BitVec 7) (s : State) : Out :=
  s.fpBits d a a fun x _ => x &&& 0x7FFFFFFF

/-- VNEG_F32 (R201): bit 31 inverted. -/
def execVnegF32 (d a : BitVec 7) (s : State) : Out :=
  s.fpBits d a a fun x _ => x ^^^ 0x80000000

/-- VCPYS_F32 (R201): bits [30:0] of a, bit 31 of b. -/
def execVcpysF32 (d a b : BitVec 7) (s : State) : Out :=
  s.fpBits d a b fun x y => (x &&& 0x7FFFFFFF) ||| (y &&& 0x80000000)

/-- VRINT_F32 (R203): rounding to an integral value (R203). -/
def execVrintF32 (d a : BitVec 7) (s : State) : Out :=
  s.group (.fp [d.toNat, a.toNat] []) fun h =>
    s.fpLanes d.toNat fun l => lane32 (s.wave.fpEnv h) opRint [s.wave.v a.toNat l]

/-- VCLASS_F32 (R203): the class word (R203). -/
def execVclassF32 (d a : BitVec 7) (s : State) : Out :=
  s.fpBits d a a fun x _ => BitVec.ofNat 32 (classWord x.toNat)

/-- VADD_F16_BF16 (R204): the operation on two elements (R204). -/
def execVaddF16Bf16 (d a b : BitVec 7) (f : BitVec 1) (s : State) : Out :=
  s.fp2h d a b f opAdd

/-- VSUB_F16_BF16 (R204): the operation on two elements (R204). -/
def execVsubF16Bf16 (d a b : BitVec 7) (f : BitVec 1) (s : State) : Out :=
  s.fp2h d a b f opSub

/-- VMUL_F16_BF16 (R204): the operation on two elements (R204). -/
def execVmulF16Bf16 (d a b : BitVec 7) (f : BitVec 1) (s : State) : Out :=
  s.fp2h d a b f opMul

/-- VMIN_F16_BF16 (R204): the operation on two elements (R204). -/
def execVminF16Bf16 (d a b : BitVec 7) (f : BitVec 1) (s : State) : Out :=
  s.fp2h d a b f opMin

/-- VMAX_F16_BF16 (R204): the operation on two elements (R204). -/
def execVmaxF16Bf16 (d a b : BitVec 7) (f : BitVec 1) (s : State) : Out :=
  s.fp2h d a b f opMax

/-- VABS_F16_BF16 (R204): bit 15 of each element cleared; `f` names the format and changes nothing. -/
def execVabsF16Bf16 (d a : BitVec 7) (f : BitVec 1) (s : State) : Out :=
  s.fpBits d a a fun x _ => x &&& 0x7FFF7FFF

/-- VNEG_F16_BF16 (R204): bit 15 of each element inverted; `f` names the format and changes nothing. -/
def execVnegF16Bf16 (d a : BitVec 7) (f : BitVec 1) (s : State) : Out :=
  s.fpBits d a a fun x _ => x ^^^ 0x80008000

/-- VFMA_F32 (R205): the fused operation of R205. -/
def execVfmaF32 (d a b : BitVec 7) (s : State) : Out :=
  s.fma32 d a b false false

/-- VFMS_F32 (R205): the fused operation of R205. -/
def execVfmsF32 (d a b : BitVec 7) (s : State) : Out :=
  s.fma32 d a b false true

/-- VFNMA_F32 (R205): the fused operation of R205. -/
def execVfnmaF32 (d a b : BitVec 7) (s : State) : Out :=
  s.fma32 d a b true false

/-- VFNMS_F32 (R205): the fused operation of R205. -/
def execVfnmsF32 (d a b : BitVec 7) (s : State) : Out :=
  s.fma32 d a b true true

/-- VFMA_F16_BF16 (R206): the fused operation on two elements (R206). -/
def execVfmaF16Bf16 (d a b : BitVec 7) (f : BitVec 1) (s : State) : Out :=
  s.fma16 d a b f false false

/-- VFMS_F16_BF16 (R206): the fused operation on two elements (R206). -/
def execVfmsF16Bf16 (d a b : BitVec 7) (f : BitVec 1) (s : State) : Out :=
  s.fma16 d a b f false true

/-- VFNMA_F16_BF16 (R206): the fused operation on two elements (R206). -/
def execVfnmaF16Bf16 (d a b : BitVec 7) (f : BitVec 1) (s : State) : Out :=
  s.fma16 d a b f true false

/-- VFNMS_F16_BF16 (R206): the fused operation on two elements (R206). -/
def execVfnmsF16Bf16 (d a b : BitVec 7) (f : BitVec 1) (s : State) : Out :=
  s.fma16 d a b f true true

/-- VDOT2 (R206): two products and an addend, rounded once. -/
def execVdot2 (d a b : BitVec 7) (f : BitVec 1) (s : State) : Out :=
  s.group { Form.fp [d.toNat, a.toNat, b.toNat] [] with counts := [0, 1], extra := .vector } fun h =>
    s.fpLanes d.toNat fun l =>
      dot2 (fmt16 f) (s.wave.fpEnv h) (s.wave.v a.toNat l) (s.wave.v b.toNat l) (s.wave.v (h.extra.headD d.toNat) l)

/-- VRCP_F32 (R207): the function of R207 and R208. -/
def execVrcpF32 (d a : BitVec 7) (s : State) : Out :=
  s.fpFunc d [a.toNat] (opUnary (fun x => divExact (.fin false 1 0) x))

/-- VRSQRT_F32 (R207): the function of R207 and R208. -/
def execVrsqrtF32 (d a : BitVec 7) (s : State) : Out :=
  s.fpFunc d [a.toNat] (opUnary rsqrtExact)

/-- VSQRT_F32 (R207): the function of R207 and R208. -/
def execVsqrtF32 (d a : BitVec 7) (s : State) : Out :=
  s.fpFunc d [a.toNat] (opUnary sqrtExact)

/-- VEXP2_F32 (R207): the function of R207 and R208. -/
def execVexp2F32 (d a : BitVec 7) (s : State) : Out :=
  s.fpFunc d [a.toNat] (opUnary exp2Exact)

/-- VLOG2_F32 (R207): the function of R207 and R208. -/
def execVlog2F32 (d a : BitVec 7) (s : State) : Out :=
  s.fpFunc d [a.toNat] (opUnary log2Exact)

/-- VSIN_F32 (R207): the function of R207 and R208. -/
def execVsinF32 (d a : BitVec 7) (s : State) : Out :=
  s.fpFunc d [a.toNat] (opUnary sinExact)

/-- VCOS_F32 (R207): the function of R207 and R208. -/
def execVcosF32 (d a : BitVec 7) (s : State) : Out :=
  s.fpFunc d [a.toNat] (opUnary cosExact)

/-- VTANH_F32 (R207): the function of R207 and R208. -/
def execVtanhF32 (d a : BitVec 7) (s : State) : Out :=
  s.fpFunc d [a.toNat] (opUnary tanhExact)

/-- VDIV_F32 (R207): a / b (R207, R208). -/
def execVdivF32 (d a b : BitVec 7) (s : State) : Out :=
  s.fpFunc d [a.toNat, b.toNat] opDiv

/-- VADDS_F32 (R209): the operation with the scalar (R209). -/
def execVaddsF32 (d a b : BitVec 7) (s : State) : Out :=
  s.fpScalar d a b opAdd false

/-- VSUBS_F32 (R209): the operation with the scalar (R209). -/
def execVsubsF32 (d a b : BitVec 7) (s : State) : Out :=
  s.fpScalar d a b opSub false

/-- VMULS_F32 (R209): the operation with the scalar (R209). -/
def execVmulsF32 (d a b : BitVec 7) (s : State) : Out :=
  s.fpScalar d a b opMul false

/-- VFMAS_F32 (R209): the operation with the scalar (R209). -/
def execVfmasF32 (d a b : BitVec 7) (s : State) : Out :=
  s.fpScalar d a b (opFma false false) true

/-- VMINS_F32 (R209): the operation with the scalar (R209). -/
def execVminsF32 (d a b : BitVec 7) (s : State) : Out :=
  s.fpScalar d a b opMin false

/-- VMAXS_F32 (R209): the operation with the scalar (R209). -/
def execVmaxsF32 (d a b : BitVec 7) (s : State) : Out :=
  s.fpScalar d a b opMax false

end Sys2Proof.Machine
end

