-- ==== Sys2Proof/Machine/Compare.lean ====
section
/-!
DEFINITION. The compares and predicate operations of 0x17 (R214, R215).
-/
namespace Sys2Proof.Machine

/-- An integer compare: one predicate bit per active lane (R214). -/
def State.cmpInt (s : State) (d a b : BitVec 7) (r : Word → Word → Bool) : Out :=
  s.group { vs := [a.toNat, b.toNat] } fun _ =>
    ({ s with wave := s.wave.writePred d.toNat (fun l => r (s.wave.v a.toNat l) (s.wave.v b.toNat l)) s.wave.active } : State).done

/-- A floating-point relation: its result, its result on a NaN, and whether a quiet NaN is invalid (R214). -/
structure FpRel where
  rel : Int → Bool
  onNan : Bool
  quietNv : Bool

/-- One lane of a floating-point compare: the bit and the flags. -/
def fpCompare (r : FpRel) (ftz : Bool) (x y : Word) : Bool × FpFlags :=
  let a := Fmt.f32.decodeFtz ftz x.toNat
  let b := Fmt.f32.decodeFtz ftz y.toNat
  if a.isNan || b.isNan then (r.onNan, if r.quietNv then fNV else snanFlag [a, b]) else (r.rel (cmpVal a b), 0)

/-- A floating-point compare: a lane whose NV is enabled traps and keeps its bit (R83, R214). -/
def State.cmpFp (s : State) (d a b : BitVec 7) (r : FpRel) : Out :=
  s.group { vs := [a.toNat, b.toNat] } fun _ =>
    let w := s.wave
    let c := fun l => fpCompare r (fpcFtz w.arch.fpc) (w.v a.toNat l) (w.v b.toNat l)
    s.fpEnd (fun l => (c l).2) fun w ls => w.writePred d.toNat (fun l => (c l).1) ls

/-- A predicate operation on the active lanes (R215). -/
def State.predOp (s : State) (d a b : BitVec 7) (g : Bool → Bool → Bool) : Out :=
  s.group {} fun _ =>
    let bit := fun l => g (bitOf (s.wave.pred a.toNat) l) (bitOf (s.wave.pred b.toNat) l)
    ({ s with wave := s.wave.writePred d.toNat bit s.wave.active } : State).done

/-- VCMP_EQ_I32 (R214): the integer relation. -/
def execVcmpEqI32 (d a b : BitVec 7) (s : State) : Out :=
  s.cmpInt d a b fun x y => x == y

/-- VCMP_NE_I32 (R214): the integer relation. -/
def execVcmpNeI32 (d a b : BitVec 7) (s : State) : Out :=
  s.cmpInt d a b fun x y => x != y

/-- VCMP_LT_I32 (R214): the integer relation. -/
def execVcmpLtI32 (d a b : BitVec 7) (s : State) : Out :=
  s.cmpInt d a b fun x y => decide (x.toInt < y.toInt)

/-- VCMP_LE_I32 (R214): the integer relation. -/
def execVcmpLeI32 (d a b : BitVec 7) (s : State) : Out :=
  s.cmpInt d a b fun x y => decide (x.toInt ≤ y.toInt)

/-- VCMP_LT_N32 (R214): the integer relation. -/
def execVcmpLtN32 (d a b : BitVec 7) (s : State) : Out :=
  s.cmpInt d a b fun x y => decide (x.toNat < y.toNat)

/-- VCMP_LE_N32 (R214): the integer relation. -/
def execVcmpLeN32 (d a b : BitVec 7) (s : State) : Out :=
  s.cmpInt d a b fun x y => decide (x.toNat ≤ y.toNat)

/-- VCMP_EQ_F32 (R214): the floating-point relation. -/
def execVcmpEqF32 (d a b : BitVec 7) (s : State) : Out :=
  s.cmpFp d a b ⟨fun c => decide (c = 0), false, false⟩

/-- VCMP_NE_F32 (R214): the floating-point relation. -/
def execVcmpNeF32 (d a b : BitVec 7) (s : State) : Out :=
  s.cmpFp d a b ⟨fun c => decide (c ≠ 0), true, false⟩

/-- VCMP_LT_F32 (R214): the floating-point relation. -/
def execVcmpLtF32 (d a b : BitVec 7) (s : State) : Out :=
  s.cmpFp d a b ⟨fun c => decide (c < 0), false, true⟩

/-- VCMP_LE_F32 (R214): the floating-point relation. -/
def execVcmpLeF32 (d a b : BitVec 7) (s : State) : Out :=
  s.cmpFp d a b ⟨fun c => decide (c ≤ 0), false, true⟩

/-- VCMP_UN_F32 (R214): the floating-point relation. -/
def execVcmpUnF32 (d a b : BitVec 7) (s : State) : Out :=
  s.cmpFp d a b ⟨fun _ => false, true, false⟩

/-- PAND (R215): the predicate operation. -/
def execPand (d a b : BitVec 7) (s : State) : Out :=
  s.predOp d a b fun x y => x && y

/-- POR (R215): the predicate operation. -/
def execPor (d a b : BitVec 7) (s : State) : Out :=
  s.predOp d a b fun x y => x || y

/-- PXOR (R215): the predicate operation. -/
def execPxor (d a b : BitVec 7) (s : State) : Out :=
  s.predOp d a b fun x y => x != y

/-- PANDN (R215): the predicate operation. -/
def execPandn (d a b : BitVec 7) (s : State) : Out :=
  s.predOp d a b fun x y => x && !y

/-- PNOT (R215): the complement. -/
def execPnot (d a : BitVec 7) (s : State) : Out :=
  s.predOp d a a fun x _ => !x

end Sys2Proof.Machine
end

