-- ==== Sys2Proof/Machine/Convert.lean ====
section
/-!
DEFINITION. VCVT in its three forms (R85 to R89, R210 to R213).
-/
namespace Sys2Proof.Machine

/-- A converted value as a code, with its flags. -/
abbrev Conv := Nat × FpFlags

/-- The wide type codes 0 to 2 as formats (R210). -/
def wideFmt (t : Nat) : Fmt := match t with
  | 0 => .f32
  | 1 => .f16
  | _ => .bf16

/-- The range of an integer type code 3 to 6 (R66, R210). -/
def intLo (t : Nat) : Int := match t with
  | 3 => -(2 ^ 31)
  | 5 => -(2 ^ 63)
  | _ => 0
def intHi (t : Nat) : Int := match t with
  | 3 => 2 ^ 31 - 1
  | 4 => 2 ^ 32 - 1
  | 5 => 2 ^ 63 - 1
  | _ => 2 ^ 64 - 1

/-- The width of an integer type. -/
def intBits (t : Nat) : Nat := if t ≤ 4 then 32 else 64

/-- An integer as a code of `n` bits. -/
def intCode (n : Nat) (x : Int) : Nat := (x % 2 ^ n).toNat

/-- A floating-point value to an integer type (R88). -/
def toInteger (t : Nat) (rm : Rm) (v : Val) : Conv :=
  match v with
  | .nan _ => (0, fNV)
  | .inf n => (intCode (intBits t) (if n then intLo t else intHi t), fNV)
  | .fin neg m e =>
    let r := roundUnits rm neg m e 0
    let x : Int := if neg then -(r.1 : Int) else r.1
    if x < intLo t then (intCode (intBits t) (intLo t), fNV)
    else if intHi t < x then (intCode (intBits t) (intHi t), fNV)
    else (intCode (intBits t) x, if r.2 then fNX else 0)

/-- The value of an integer code (R66). -/
def ofInteger (t : Nat) (c : Nat) : Int := if t = 3 ∨ t = 5 then sextN (intBits t) c else (c % 2 ^ intBits t : Nat)

/-- An integer as an exact value. -/
def intVal (x : Int) : Val := .fin (decide (x < 0)) x.natAbs 0

/-- One wide conversion (R211). -/
def convWide (env : FpEnv) (t src : Nat) (c : Nat) : Conv :=
  if src ≤ 2 then
    let v := (wideFmt src).decodeFtz env.ftz c
    if t ≤ 2 then let r := (wideFmt t).finish env (v, snanFlag [v]); (r.code, r.flags)
    else toInteger t env.rm v
  else
    let x := ofInteger src c
    if t ≤ 2 then let r := (wideFmt t).finish env (intVal x, 0); (r.code, r.flags)
    else (intCode (intBits t) (if env.sat then max (intLo t) (min (intHi t) x) else x), 0)

/-- The narrow format of a 7-bit code (R175). -/
def fmtOfCode (f : Nat) : Fmt :=
  .narrow (match f / 32 with
    | 1 => 8
    | 2 => 6
    | _ => 4) (f % 8) (decide (f / 16 % 2 = 1)) (decide (f / 8 % 2 = 1))

/-- A value to a narrow format: infinities and negative values by R87, finite overflow by R86. -/
def toNarrow (f : Fmt) (env : FpEnv) (v : Val) : Conv :=
  match v with
  | .nan s => (f.nan, if s then fNV else 0)
  | .inf true => if f.sign = 0 then (if env.sat then (0, 0) else (f.nan, fNV)) else infTo true
  | .inf false => infTo false
  | .fin neg m e =>
    if f.sign = 0 ∧ neg = true ∧ m ≠ 0 then (if env.sat then (0, fNX) else (f.nan, fNV))
    else let r := f.finish env (.fin neg m e, 0); (r.code, r.flags)
where
  infTo (neg : Bool) : Conv :=
    match f.inf with
    | some i => (f.withSign neg (if env.sat then f.maxc else i), 0)
    | none => if env.sat then (f.withSign neg f.maxc, 0) else (f.nan, fNV)

/-- The bits of element i of a lane for a narrow width (R212). -/
def narrowElem (k i : Nat) (x : Word) : Nat := x.toNat / 2 ^ (k * i) % 2 ^ k

/-- Element i of a lane replaced; for 6-bit elements bits [31:24] become zero (R213). -/
def putNarrow (k i c : Nat) (x : Word) : Word :=
  let y := if k = 6 then x.toNat % 2 ^ 24 else x.toNat
  BitVec.ofNat 32 (y - narrowElem k i x * 2 ^ (k * i) + c * 2 ^ (k * i))

/-- The source code of a wide conversion in lane l (R210). -/
def Wave.wideSource (w : Wave) (a : Nat) (src : Nat) (half : BitVec 1) (l : Nat) : Nat :=
  if src = 1 ∨ src = 2 then (w.v a l).toNat / 2 ^ (16 * half.toNat) % 2 ^ 16
  else if src ≤ 4 then (w.v a l).toNat else (w.pair a l).toNat

/-- The destination of a wide conversion written in the lanes of a list (R211). -/
def Wave.wideWrite (w : Wave) (d t : Nat) (half : BitVec 1) (c : Nat → Nat) (ls : List Nat) : Wave :=
  if 5 ≤ t then w.writePairs d (fun l => BitVec.ofNat 64 (c l)) ls
  else if t = 1 ∨ t = 2 then
    w.writeLanes d (fun l =>
      let x := (w.v d l).toNat
      BitVec.ofNat 32 (if half = 0 then x / 2 ^ 16 * 2 ^ 16 + c l else x % 2 ^ 16 + c l * 2 ^ 16)) ls
  else w.writeLanes d (fun l => BitVec.ofNat 32 (c l)) ls

/-- VCVT_WIDE (R210, R211): `t` and `src` are the destination and source codes, `h` and `g` the halves. -/
def execVcvtWide (d a : BitVec 7) (t : BitVec 3) (h g : BitVec 1) (src : BitVec 3) (s : State) : Out :=
  s.group (.fp [d.toNat + (if 5 ≤ t.toNat then 1 else 0), a.toNat + (if 5 ≤ src.toNat then 1 else 0)] []) fun hs =>
    let w := s.wave
    let r := fun l => convWide (w.fpEnv hs) t.toNat src.toNat (w.wideSource a.toNat src.toNat h l)
    s.fpEnd (fun l => (r l).2) fun w ls => w.wideWrite d.toNat t.toNat g (fun l => (r l).1) ls

/-- VCVT_NARROW_TO_F32 (R212): element `i`, widened exactly; FTZ never changes the result. -/
def execVcvtNarrowToF32 (d a f : BitVec 7) (i : BitVec 3) (s : State) : Out :=
  s.group (.fp [d.toNat, a.toNat] []) fun h =>
    let fmt := fmtOfCode f.toNat
    s.fpLanes d.toNat fun l =>
      let r := Fmt.f32.finish { s.wave.fpEnv h with ftz := false }
        (fmt.decode (narrowElem fmt.width i.toNat (s.wave.v a.toNat l)), 0)
      ⟨BitVec.ofNat 32 r.code, r.flags⟩

/-- VCVT_F32_TO_NARROW (R213): element `i` of the destination lane replaced. -/
def execVcvtF32ToNarrow (d a f : BitVec 7) (i : BitVec 3) (s : State) : Out :=
  s.group (.fp [d.toNat, a.toNat] []) fun h =>
    let fmt := fmtOfCode f.toNat
    let env := s.wave.fpEnv h
    s.fpLanes d.toNat fun l =>
      let r := toNarrow fmt env (Fmt.f32.decodeFtz env.ftz (s.wave.v a.toNat l).toNat)
      ⟨putNarrow fmt.width i.toNat r.1 (s.wave.v d.toNat l), r.2⟩

end Sys2Proof.Machine
end

