-- ==== Sys2Proof/Machine/CrossLane.lean ====
section
/-!
DEFINITION. The cross-lane instructions of 0x18 (R93, R94, R216 to R219).
-/
namespace Sys2Proof.Machine

/-- The lanes of va chosen by `src` written in the active lanes (R216). -/
def State.shuffle (s : State) (d a : BitVec 7) (vs ss : List Nat) (src : Nat → Nat) : Out :=
  s.group { vs := d.toNat :: a.toNat :: vs, ss := ss } fun _ => s.vecLanes d.toNat fun l => s.wave.v a.toNat (src l)

/-- A node of the tree: absent, or a value, with the flags of the operations below it (R93, R217). -/
abbrev TreeNode := Option Word × FpFlags

/-- Two children combined by one operation; an absent child changes nothing (R93). -/
def joinNodes (op : Word → Word → LaneRes) (x y : TreeNode) : TreeNode :=
  match x.1, y.1 with
  | some a, some b => let r := op a b; (some r.out, x.2 ||| y.2 ||| r.flags)
  | some a, none => (some a, x.2)
  | none, b => (b, y.2)

/-- A lane's value as a node of level 0: a NaN counts as read by an arithmetic operation (R65), which makes it canonical and raises NV
for a signalling one (log entry 49). -/
def leafNode : Option Word → TreeNode
  | none => (none, 0)
  | some x => (some (if (Fmt.f32.decode x.toNat).isNan then 0x7FC00000 else x), snanFlag [Fmt.f32.decode x.toNat])

/-- The node of level `n` that starts at lane `i` (R93). -/
def treeNode (leaf : Nat → Option Word) (op : Word → Word → LaneRes) : Nat → Nat → TreeNode
  | 0, i => leafNode (leaf i)
  | n + 1, i => joinNodes op (treeNode leaf op n i) (treeNode leaf op n (i + 2 ^ n))

/-- A lane's value as the floating-point trees read it: flushed under FTZ (R217). -/
def flushed (ftz : Bool) (x : Word) : Word :=
  if ftz && Fmt.f32.subnormal x.toNat then x &&& 0x80000000 else x

/-- The leaves: the active lanes' values. -/
def Wave.leaf (w : Wave) (a : Nat) (ftz : Bool) (l : Nat) : Option Word :=
  if bitOf w.exm l then some (flushed ftz (w.v a l)) else none

/-- A floating-point reduction: the root over 64 lane positions, its flags, the identity for no lane; an enabled flag traps
the wave and sd keeps its value (R217). -/
def State.redFp (s : State) (d a : BitVec 7) (rounds : Bool) (g : ElemOp) (ident : Word) : Out :=
  s.group { vs := [a.toNat], ss := [d.toNat], rm := rounds, sat := rounds } fun h =>
    let w := s.wave
    let env := w.fpEnv h
    let r := treeNode (w.leaf a.toNat env.ftz) (fun x y => lane32 env g [x, y]) 6 0
    if r.2 &&& fpcTrapEn w.arch.fpc ≠ 0 then s.trap (w.wholeTrap (fpCause r.2) none)
    else ({ s with wave := (w.setS d.toNat ((r.1.getD ident).setWidth 64)).raise r.2 } : State).done

/-- An exact reduction of the active lanes (R217). -/
def State.redInt (s : State) (d a : BitVec 7) (ident : DWord) (g : DWord → Word → DWord) : Out :=
  s.group { vs := [a.toNat], ss := [d.toNat] } fun _ =>
    s.scalarResult d.toNat (s.wave.active.foldl (fun x l => g x (s.wave.v a.toNat l)) ident)

/-- The aligned blocks of a prefix of `n` lanes, largest first (R94): levels and starts. -/
def prefixBlocks (n : Nat) : Nat → Nat → List (Nat × Nat)
  | 0, _ => []
  | k + 1, start => if n / 2 ^ k % 2 = 1 then (k, start) :: prefixBlocks n k (start + 2 ^ k) else prefixBlocks n k start

/-- The scan value of a prefix of `n` lanes: block nodes added from left to right (R94). -/
def scanPrefix (leaf : Nat → Option Word) (op : Word → Word → LaneRes) (n : Nat) : TreeNode :=
  (prefixBlocks n 7 0).foldl (fun x b => joinNodes op x (treeNode leaf op b.1 b.2)) (none, 0)

/-- VSCAN and VSCANX on binary32 (R94, R218). -/
def State.scanFp (s : State) (d a : BitVec 7) (incl : Nat) : Out :=
  s.group (.fp [d.toNat, a.toNat] []) fun h =>
    let w := s.wave
    let env := w.fpEnv h
    s.fpLanes d.toNat fun l =>
      let r := scanPrefix (w.leaf a.toNat env.ftz) (fun x y => lane32 env opAdd [x, y]) (l + incl)
      ⟨r.1.getD 0, r.2⟩

/-- VSCAN and VSCANX on 32-bit integers (R218). -/
def State.scanInt (s : State) (d a : BitVec 7) (incl : Nat) : Out :=
  s.group { vs := [d.toNat, a.toNat] } fun _ =>
    s.vecLanes d.toNat fun l => (s.wave.active.filter (· < l + incl)).foldl (fun x m => x + s.wave.v a.toNat m) 0

/-- VSHFL (R216): lane bits [5:0] of vb. -/
def execVshfl (d a b : BitVec 7) (s : State) : Out :=
  s.shuffle d a [b.toNat] [] fun l => (s.wave.v b.toNat l).toNat % 64 % s.wave.env.wavew

/-- VPRM_XOR (R216): lane l exclusive or the scalar. -/
def execVprmXor (d a b : BitVec 7) (s : State) : Out :=
  s.shuffle d a [] [b.toNat] fun l => l ^^^ ((s.wave.s b.toNat).toNat % 64 % s.wave.env.wavew)

/-- VPRM_ROT (R216): lane l plus the scalar. -/
def execVprmRot (d a b : BitVec 7) (s : State) : Out :=
  s.shuffle d a [] [b.toNat] fun l => (l + (s.wave.s b.toNat).toNat % 64) % s.wave.env.wavew

/-- VBCST (R216): the lane that the scalar names. -/
def execVbcst (d a b : BitVec 7) (s : State) : Out :=
  s.shuffle d a [] [b.toNat] fun _ => (s.wave.s b.toNat).toNat % 64 % s.wave.env.wavew

/-- VRED_F32 (R217): the sum over the tree. -/
def execVredF32 (d a : BitVec 7) (s : State) : Out :=
  s.redFp d a true opAdd 0

/-- VRED_I32 (R217): the sum modulo 2^32, sign-extended. -/
def execVredI32 (d a : BitVec 7) (s : State) : Out :=
  s.redInt d a 0 fun x y => (x.setWidth 32 + y).signExtend 64

/-- VREDMIN_F32 (R217): the minimum (R202). -/
def execVredminF32 (d a : BitVec 7) (s : State) : Out :=
  s.redFp d a false opMin 0x7F800000

/-- VREDMAX_F32 (R217): the maximum (R202). -/
def execVredmaxF32 (d a : BitVec 7) (s : State) : Out :=
  s.redFp d a false opMax 0xFF800000

/-- VREDMIN_I32 (R217): the signed minimum. -/
def execVredminI32 (d a : BitVec 7) (s : State) : Out :=
  s.redInt d a 0x7FFFFFFF fun x y => if x.toInt ≤ y.toInt then x else y.signExtend 64

/-- VREDMAX_I32 (R217): the signed maximum. -/
def execVredmaxI32 (d a : BitVec 7) (s : State) : Out :=
  s.redInt d a 0xFFFFFFFF80000000 fun x y => if y.toInt ≤ x.toInt then x else y.signExtend 64

/-- VREDAND_B32 (R217): the bitwise and. -/
def execVredandB32 (d a : BitVec 7) (s : State) : Out :=
  s.redInt d a 0xFFFFFFFF fun x y => x &&& y.setWidth 64

/-- VREDOR_B32 (R217): the bitwise or. -/
def execVredorB32 (d a : BitVec 7) (s : State) : Out :=
  s.redInt d a 0 fun x y => x ||| y.setWidth 64

/-- VSCAN_F32 (R218): the inclusive scan. -/
def execVscanF32 (d a : BitVec 7) (s : State) : Out :=
  s.scanFp d a 1

/-- VSCAN_I32 (R218): the inclusive scan. -/
def execVscanI32 (d a : BitVec 7) (s : State) : Out :=
  s.scanInt d a 1

/-- VSCANX_F32 (R218): the exclusive scan. -/
def execVscanxF32 (d a : BitVec 7) (s : State) : Out :=
  s.scanFp d a 0

/-- VSCANX_I32 (R218): the exclusive scan. -/
def execVscanxI32 (d a : BitVec 7) (s : State) : Out :=
  s.scanInt d a 0

/-- VMATCH (R219): the mask of active lanes with equal values. -/
def execVmatch (d a : BitVec 7) (s : State) : Out :=
  s.group { vs := [d.toNat + 1, a.toNat] } fun _ =>
    s.pairLanes d.toNat fun l => maskOf (s.wave.active.filter fun m => s.wave.v a.toNat m == s.wave.v a.toNat l)

end Sys2Proof.Machine
end

