-- ==== Sys2Proof/Machine/MatrixMath.lean ====
section
/-!
DEFINITION. The numbers of the matrix engine: tile configurations and elements (R328, R329), accumulator rectangles (R332,
R348), the classes of R340, and the sums of MMA, MMAS and MMAX (R84, R90 to R92, R342 to R344).
-/
namespace Sys2Proof.Machine

/-! ## Tile configurations (R328, R329) -/

def tcFmt (x : DWord) : Nat := bitsN x.toNat 7 0
def tcRows (x : DWord) : Nat := bitsN x.toNat 14 8 + 1
def tcCols (x : DWord) : Nat := bitsN x.toNat 22 16 + 1
def tcBits (x : DWord) : Nat := (fmtBits (tcFmt x)).getD 8
def tcNarrow (x : DWord) : Bool := decide (0 < tcFmt x / 64)

/-- The pitch q of a tile (R329). -/
def tcPitch (x : DWord) : Nat := (packedBytes (tcBits x) (tcCols x) + 15) / 16 * 16

/-- The byte length of a tile image. -/
def tcBytes (x : DWord) : Nat := tcRows x * tcPitch x

/-- Whether a scalar is a configuration (R328, R329). -/
def tcLegal (x : DWord) : Bool :=
  decide (x.toNat / 2 ^ 23 = 0 ∧ bitsN x.toNat 15 15 = 0) && (tcNarrow x || decide (tcFmt x ≤ 2)) &&
    (fmtBits (tcFmt x)).isSome && decide (tcBytes x ≤ 8192)

/-- The format of a `TCFMT` code. -/
def tcFormat (x : DWord) : Fmt :=
  let c := tcFmt x
  if c = 0 then .f32
  else if c = 1 then .f16
  else if c = 2 then .bf16
  else .narrow (tcBits x) (c % 8) (decide (c / 32 % 2 = 1)) (decide (c / 16 % 2 = 1))

/-- The key of byte b of tile t. -/
def tileKey (t b : Nat) : Nat := 8192 * t + b

/-- Bytes [lo, lo + n) of tile t. -/
def MatrixData.tileBytes (m : MatrixData) (t lo n : Nat) : List Byte := Cells.readList m.tiles (tileKey t lo) n

/-- The code of element (r, c) of a tile with configuration x (R73, R329). -/
def MatrixData.element (m : MatrixData) (t : Nat) (x : DWord) (r c : Nat) : Nat :=
  let o := c * tcBits x
  let n := numOf (m.tileBytes t (r * tcPitch x + o / 8) ((o % 8 + tcBits x + 7) / 8))
  n / 2 ^ (o % 8) % 2 ^ tcBits x

/-- Accumulator element (i, j) (R331). -/
def MatrixData.acc (m : MatrixData) (i j : Nat) : Word := Cells.read m.accum (128 * i + j)
def MatrixData.setAcc (m : MatrixData) (i j : Nat) (x : Word) : MatrixData :=
  { m with accum := Cells.write m.accum (128 * i + j) x }

/-- A tile written from its first byte on. -/
def MatrixData.setTile (m : MatrixData) (t : Nat) (bs : List Byte) : MatrixData :=
  { m with tiles := Cells.writeList m.tiles (tileKey t 0) bs }

def MatrixData.tc (m : MatrixData) (t : Nat) : DWord := Cells.read m.tcs t

/-- The image of a tile with its slack as zero (R73, R347): `old` is the image that is loaded. -/
def cleanImage (x : DWord) (old : List Byte) : List Byte :=
  (List.range 8192).map fun b =>
    if b < tcBytes x then
      let o := b % tcPitch x
      let used := tcCols x * tcBits x - min (8 * o) (tcCols x * tcBits x)
      (old.getD b 0) &&& BitVec.ofNat 8 (2 ^ min 8 used - 1)
    else 0

/-! ## Rectangles of the accumulator memory (R332, R348) -/

/-- A rectangle: first row, rows, first column, columns. -/
structure Rect where
  row0 : Nat
  rows : Nat
  col0 : Nat
  cols : Nat
  deriving DecidableEq, Repr

def Rect.overlaps (a b : Rect) : Bool :=
  decide (a.row0 < b.row0 + b.rows ∧ b.row0 < a.row0 + a.rows ∧ a.col0 < b.col0 + b.cols ∧ b.col0 < a.col0 + a.cols)

/-- The rectangle that a scalar of AMCP or AMZERO names (R348). -/
def rectOf (x : DWord) : Rect :=
  { row0 := bitsN x.toNat 31 22, rows := bitsN x.toNat 39 32 + 1, col0 := bitsN x.toNat 46 40,
    cols := bitsN x.toNat 54 48 + 1 }

/-- Whether such a scalar keeps R348, the local offset aside. -/
def rectLegal (x : DWord) : Bool :=
  let r := rectOf x
  decide (bitsN x.toNat 63 55 = 0 ∧ bitsN x.toNat 47 47 = 0 ∧ r.row0 + r.rows ≤ 1024 ∧ r.col0 + r.cols ≤ 128)

/-- The local pitch of a rectangle, and the length of its image (R348). -/
def Rect.pitch (r : Rect) : Nat := (4 * r.cols + 15) / 16 * 16
def Rect.span (r : Rect) : Nat := (r.rows - 1) * r.pitch + 4 * r.cols

/-- The elements of a rectangle, row by row: accumulator row, column and local offset from the image's start. -/
def Rect.elements (r : Rect) : List (Nat × Nat × Nat) :=
  (List.range r.rows).flatMap fun i => (List.range r.cols).map fun j => (r.row0 + i, r.col0 + j, i * r.pitch + 4 * j)

/-! ## Classes (R340) -/

/-- A class: its group size (0 for binary32), greatest contraction extent, and pipe cycles. -/
structure MmaClass where
  g : Nat
  kmax : Nat
  cycles : Nat
  deriving DecidableEq, Repr

def mmaClass (x y : DWord) : Option MmaClass :=
  if tcNarrow x ∧ tcNarrow y then
    if tcBits x = 4 ∧ tcBits y = 4 then some ⟨32, 128, 128⟩ else some ⟨32, 64, 128⟩
  else if tcNarrow x ∨ tcNarrow y then none
  else if tcFmt x = 0 ∧ tcFmt y = 0 then some ⟨0, 16, 256⟩
  else if tcFmt x ≠ 0 ∧ tcFmt y ≠ 0 then some ⟨16, 32, 128⟩
  else none

/-! ## Scales (R343) -/

/-- Whether a scale scalar keeps its layout. -/
def scaleLegal (x : DWord) : Bool := decide (x.toNat / 2 ^ 56 = 0)
def scaleOn (x : DWord) : Bool := x.getLsbD 55
def scaleBlock (x : DWord) : Nat := if x.getLsbD 54 then 32 else 16
def scaleOff (x : DWord) : Nat := bitsN x.toNat 53 32

/-- The exponents of a row of k elements. -/
def scaleRow (x : DWord) (k : Nat) : Nat := (k + scaleBlock x - 1) / scaleBlock x

/-- The global scale of an input: 1.0 when it is not scaled. A NaN scale raises nothing (R75). -/
def globalScale (x : DWord) : Val :=
  if scaleOn x then
    match Fmt.f32.decode (x.toNat % 2 ^ 32) with
    | .nan _ => .nan false
    | v => v
  else .fin false 1 0

/-- An element times the power of two of its block's exponent byte (R74). -/
def scaled (v : Val) (e : Byte) : Val :=
  if e = 0xFF then .nan false
  else
    match v with
    | .fin n m x => .fin n m (x + (e.toNat : Int) - 127)
    | v => v

/-! ## The sums (R90 to R92) -/

/-- One group of R90 on an accumulator code: the products' exact sum, scaled and added. -/
def groupUpdate (s : Val) (ab : List (Val × Val)) (acc : Nat) : FpRes :=
  if ab.isEmpty then ⟨acc, 0⟩
  else
    let ps := ab.map fun p => mulExact p.1 p.2
    let x := sumExact .rne (ps.map (·.1))
    let y := Fmt.f32.finish .plain (mulExact x.1 s)
    let r := Fmt.f32.finish .plain (sumExact .rne [Fmt.f32.decode acc, Fmt.f32.decode y.code])
    ⟨r.code, ps.foldl (fun f p => f ||| p.2) 0 ||| x.2 ||| y.flags ||| r.flags⟩

/-- One step of R91. -/
def fmaUpdate (a b : Val) (acc : Nat) : FpRes :=
  Fmt.f32.finish .plain (fmaExact .rne false false a b (Fmt.f32.decode acc))

/-- The pairs of elements of one accumulator element, each with its contraction index, applied in order (R90, R91). -/
def accUpdate (g : Nat) (s : Val) (ks : List (Nat × Val × Val)) (extent acc : Nat) : FpRes :=
  if g = 0 then ks.foldl (fun r k => let x := fmaUpdate k.2.1 k.2.2 r.code; ⟨x.code, r.flags ||| x.flags⟩) ⟨acc, 0⟩
  else
    (List.range ((extent + g - 1) / g)).foldl (fun r q =>
      let x := groupUpdate s ((ks.filter fun k => k.1 / g == q).map (·.2)) r.code
      ⟨x.code, r.flags ||| x.flags⟩) ⟨acc, 0⟩

/-- The positions of a row of a sparse A: contraction index and stored element (R344). -/
def sparsePositions (row : List Byte) (k : Nat) : List (Nat × Nat) :=
  (List.range (k / 4)).flatMap fun g =>
    let u := (row.getD (g / 2) 0).toNat / 2 ^ (4 * (g % 2)) % 16
    let i0 := u % 4
    let i1 := u / 4
    if i0 = i1 then [(4 * g + i0, 2 * g)]
    else if i0 < i1 then [(4 * g + i0, 2 * g), (4 * g + i1, 2 * g + 1)]
    else [(4 * g + i1, 2 * g + 1), (4 * g + i0, 2 * g)]

/-- What one operation of the MMA family computes: tiles, configurations, block, contraction extent, and the positions used
in a row of A. -/
structure MmaTask where
  ta : Nat
  tb : Nat
  tca : DWord
  tcb : DWord
  zero : Bool
  trans : Bool
  sparse : Option Nat
  row0 : Nat
  col0 : Nat
  sx : DWord
  sy : DWord
  ea : Nat → Byte
  eb : Nat → Byte

namespace MmaTask

def m (t : MmaTask) : Nat := tcRows t.tca
def n (t : MmaTask) : Nat := if t.trans then tcRows t.tcb else tcCols t.tcb

/-- The contraction extent (R341). -/
def k (t : MmaTask) : Nat := if t.sparse.isSome then 2 * tcCols t.tca else tcCols t.tca

def rect (t : MmaTask) : Rect := { row0 := t.row0, rows := t.m, col0 := t.col0, cols := t.n }

/-- Element (i, c) of A as stored, with its block exponent. -/
def a (t : MmaTask) (d : MatrixData) (i c : Nat) : Val :=
  let v := (tcFormat t.tca).decode (d.element t.ta t.tca i c)
  if scaleOn t.sx then scaled v (t.ea (i * scaleRow t.sx t.k + c / scaleBlock t.sx)) else v

/-- B at (kk, j): tb holds the first half of the extent and tb + 1 the rest when A is sparse (R344). -/
def b (t : MmaTask) (d : MatrixData) (kk j : Nat) : Val :=
  let half := t.k / 2
  let r := if t.sparse.isSome then (t.tb + kk / half, kk % half) else (t.tb, kk)
  let v := (tcFormat t.tcb).decode (if t.trans then d.element r.1 t.tcb j r.2 else d.element r.1 t.tcb r.2 j)
  if scaleOn t.sy then scaled v (t.eb (j * scaleRow t.sy t.k + kk / scaleBlock t.sy)) else v

/-- The positions of row i that are used, with the stored element of A at each. -/
def positions (t : MmaTask) (d : MatrixData) (i : Nat) : List (Nat × Nat) :=
  match t.sparse with
  | some tm => sparsePositions (d.tileBytes tm (32 * i) 32) t.k
  | none => (List.range t.k).map fun kk => (kk, kk)

/-- The product of the global scales, rounded once (R90). -/
def scale (t : MmaTask) : FpRes := Fmt.f32.finish .plain (mulExact (globalScale t.sx) (globalScale t.sy))

/-- The whole operation on the matrix data, with the flags that it raises (R342). -/
def run (t : MmaTask) (d : MatrixData) : MatrixData × FpFlags :=
  let g := ((mmaClass t.tca t.tcb).map (·.g)).getD 0
  let s := Fmt.f32.decode t.scale.code
  let sf := if (List.range t.m).any fun i => !(t.positions d i).isEmpty then t.scale.flags else 0
  (List.range t.m).foldl (fun r i =>
    let ps := t.positions d i
    (List.range t.n).foldl (fun r j =>
      let ks := ps.map fun p => (p.1, t.a d i p.2, t.b d p.1 j)
      let old := if t.zero then 0 else (d.acc (t.row0 + i) (t.col0 + j)).toNat
      let x := accUpdate g s ks t.k old
      (r.1.setAcc (t.row0 + i) (t.col0 + j) (BitVec.ofNat 32 x.code), r.2 ||| x.flags)) r) (d, if g = 0 then 0 else sf)

end MmaTask

end Sys2Proof.Machine
end

