-- ==== Sys2Proof/Machine/Matrix.lean ====
section
/-!
DEFINITION. The matrix set as the waves feed it (R330, R333 to R351): claiming it, the checks at issue, the queue, conflicts,
batches, and what each operation does. The effects of an operation take place when it completes.
-/
namespace Sys2Proof.Machine

/-! ## Batches (R336, R337) -/

/-- Every complete batch at the head of the order is counted off and gives its flags to `FLAGS`, also in the entries at which
the wave may restart: a completed batch stays complete (R337, R464). -/
def Wave.settleBatches (w : Wave) : Wave :=
  let gone := w.batches.takeWhile (·.left.isEmpty)
  let f := gone.foldl (fun f b => f ||| b.flags) (0 : BitVec 5)
  let up := fun a : Arch => { a with fpc := a.fpc ||| f.setWidth 64 }
  { w with ocm := w.ocm - gone.length, batches := w.batches.drop gone.length, arch := up w.arch,
           entries := w.entries.map fun e => { e with arch := up e.arch } }

/-- The open operations become a batch (R336). -/
def Wave.closeBatch (w : Wave) (now : Nat) : Wave :=
  ({ w with ocm := w.ocm + 1, batches := w.batches ++ [{ w.openBatch with closedAt := now }],
            openBatch := .empty } : Wave).settleBatches

/-- MCLOSE (R336). -/
def execMclose (s : State) : Out :=
  s.group { lookout := false } fun _ =>
    if 63 ≤ s.wave.ocm then s.wait else ({ s with wave := s.wave.closeBatch s.now } : State).doneEnd

/-- Whether a batch holds an operation. -/
def Batch.has (b : Batch) (id : Nat) : Bool := b.left.contains id

/-- An operation of a batch completes with its flags. -/
def Batch.finish (b : Batch) (id : Nat) (f : BitVec 5) : Batch :=
  if b.has id then { b with left := b.left.filter (· != id), flags := b.flags ||| f } else b

def Wave.hasMatrixOp (w : Wave) (id : Nat) : Bool := w.openBatch.has id || w.batches.any (·.has id)

/-- An operation completes for its wave. -/
def Wave.finishMatrixOp (w : Wave) (id : Nat) (f : BitVec 5) : Wave :=
  ({ w with openBatch := w.openBatch.finish id f, batches := w.batches.map (·.finish id f) } : Wave).settleBatches

/-! ## Local ranges (R49, R50, R132) -/

/-- A local range as runs of bytes of core stores, cut at each KiB: allocations are whole KiB. The error is the first offset
that cannot be reached. -/
def Env.localRuns (e : Env) (o n : Nat) : Except Nat (List (Nat × Nat × Nat)) :=
  if n = 0 then .ok []
  else
    (List.range ((o + n - 1) / 1024 - o / 1024 + 1)).foldr (fun i r =>
      let lo := max o ((o / 1024 + i) * 1024)
      let hi := min (o + n) ((o / 1024 + i + 1) * 1024)
      match e.localPlace lo, r with
      | .ok (.store c x), .ok rs => .ok ((c, x, hi - lo) :: rs)
      | .ok (.store _ _), .error x => .error x
      | _, _ => .error lo) (.ok [])

def Env.runs (e : Env) (o n : Nat) : List (Nat × Nat × Nat) :=
  match e.localRuns o n with
  | .ok rs => rs
  | .error _ => []

def runsMeet (a b : List (Nat × Nat × Nat)) : Bool :=
  a.any fun x => b.any fun y => x.1 == y.1 && decide (x.2.1 < y.2.1 + y.2.2 ∧ y.2.1 < x.2.1 + x.2.2)

/-! ## Operations, their time and their conflicts -/

namespace MatrixOp

/-- The local offset at which an operation's image begins. -/
def offset (o : MatrixOp) : Nat :=
  match o.kind with
  | .tld a => a.toNat % 2 ^ 22
  | .tst a => a.toNat % 2 ^ 22
  | .amcpOut s => s.toNat % 2 ^ 22
  | .amcpIn s => s.toNat % 2 ^ 22
  | _ => 0

/-- The MMA that an operation of the family performs. -/
def task (o : MatrixOp) : Option MmaTask :=
  let t := fun zero trans sparse sx sy =>
    some { ta := o.ta, tb := o.tb, tca := o.tca, tcb := o.tcb, zero := zero, trans := trans, sparse := sparse,
           row0 := bitsN o.origin.toNat 9 0, col0 := bitsN o.origin.toNat 22 16, sx := sx, sy := sy,
           ea := fun _ => 127, eb := fun _ => 127 : MmaTask }
  match o.kind with
  | .mma z b => t z b none 0 0
  | .mmas z b sx sy => t z b none sx sy
  | .mmax z b tm => t z b (some tm) 0 0
  | _ => none

/-- The scale ranges of an MMAS: offset and length. -/
def scaleRanges (o : MatrixOp) : List (Nat × Nat) :=
  match o.kind, o.task with
  | .mmas _ _ sx sy, some t =>
    (if scaleOn sx then [(scaleOff sx, t.m * scaleRow sx t.k)] else []) ++
      (if scaleOn sy then [(scaleOff sy, t.n * scaleRow sy t.k)] else [])
  | _, _ => []

/-- The local ranges that an operation reads, and those that it writes. -/
def reads (o : MatrixOp) : List (Nat × Nat) :=
  match o.kind with
  | .tld _ => [(o.offset, tcBytes o.tca)]
  | .amcpIn s => [(o.offset, (rectOf s).span)]
  | _ => o.scaleRanges

def writes (o : MatrixOp) : List (Nat × Nat) :=
  match o.kind with
  | .tst _ => [(o.offset, tcBytes o.tca)]
  | .amcpOut s => [(o.offset, (rectOf s).span)]
  | _ => []

def readRuns (o : MatrixOp) : List (Nat × Nat × Nat) := o.reads.flatMap fun r => o.env.runs r.1 r.2
def writeRuns (o : MatrixOp) : List (Nat × Nat × Nat) := o.writes.flatMap fun r => o.env.runs r.1 r.2

/-- The tiles that an operation reads, and those that it writes (R334). -/
def tilesRead (o : MatrixOp) : List Nat :=
  match o.kind with
  | .mma _ _ => [o.ta, o.tb]
  | .mmas _ _ _ _ => [o.ta, o.tb]
  | .mmax _ _ tm => [o.ta, o.tb, o.tb + 1, tm]
  | .tst _ => [o.ta]
  | .txfer _ => [o.ta]
  | _ => []

def tilesWritten (o : MatrixOp) : List Nat :=
  match o.kind with
  | .tld _ => [o.ta]
  | .tzero => [o.ta]
  | .trecv _ => [o.ta]
  | _ => []

/-- The accumulator rectangle of an operation, with whether it is written; a written block that starts from zero is not
read, which changes no conflict. -/
def rect (o : MatrixOp) : Option (Rect × Bool) :=
  match o.kind with
  | .amcpOut s => some (rectOf s, false)
  | .amcpIn s => some (rectOf s, true)
  | .amzero s => some (rectOf s, true)
  | _ => o.task.map fun t => (t.rect, true)

def isMma (o : MatrixOp) : Bool := o.task.isSome

def tileConflict (a b : MatrixOp) : Bool :=
  (a.tilesWritten.any fun t => (b.tilesRead ++ b.tilesWritten).contains t) || (b.tilesWritten.any fun t => a.tilesRead.contains t)

def rectConflict (a b : MatrixOp) : Bool :=
  match a.rect, b.rect with
  | some x, some y => (x.2 || y.2) && x.1.overlaps y.1
  | _, _ => false

def localConflict (a b : MatrixOp) : Bool :=
  runsMeet a.writeRuns (b.readRuns ++ b.writeRuns) || runsMeet b.writeRuns a.readRuns

def portConflict (a b : MatrixOp) : Bool :=
  match a.kind, b.kind with
  | .txfer p, .txfer q => p == q
  | .trecv p, .trecv q => p == q
  | _, _ => false

/-- Whether two operations of one set conflict (R334). -/
def conflicts (a b : MatrixOp) : Bool := tileConflict a b || rectConflict a b || localConflict a b || portConflict a b

/-- Whether the only conflict of two MMAs is their shared block (R352). -/
def onlyBlock (a b : MatrixOp) : Bool := a.isMma && b.isMma && !tileConflict a b && !localConflict a b

/-- The units of an operation that pre-emption can divide: the bytes of its image, or its rows, with how many move in a cycle and at
which multiples it stops (R352, R353). -/
def units (o : MatrixOp) : Option (Nat × Nat × Nat) :=
  match o.kind with
  | .tld _ => some (tcBytes o.tca, 128, 4096)
  | .tst _ => some (tcBytes o.tca, 128, 4096)
  | .amcpOut s => some ((rectOf s).rows * (rectOf s).pitch, 128, 4096)
  | .amcpIn s => some ((rectOf s).rows * (rectOf s).pitch, 128, 4096)
  | .amzero s => some ((rectOf s).rows, 1, 8)
  | _ => none

/-- The cycles that the remainder of a divisible operation takes. -/
def unitCycles (o : MatrixOp) : Nat :=
  match o.units with
  | some (n, rate, _) => (n - o.done + rate - 1) / rate
  | none => 0

/-- The cycles for which an operation holds its resource, and those from its last cycle to its completion (R352). -/
def cycles (o : MatrixOp) : Nat × Nat :=
  match o.kind with
  | .tld _ => (o.unitCycles, 8)
  | .tst _ => (o.unitCycles, 8)
  | .amcpOut _ => (o.unitCycles, 8)
  | .amcpIn _ => (o.unitCycles, 8)
  | .tzero => (8, 0)
  | .amzero _ => (o.unitCycles, 0)
  | .txfer _ => (64, 8)
  | .trecv _ => (64, 8)
  | _ => (((mmaClass o.tca o.tcb).map (·.cycles)).getD 128, 16)

/-- The resource that an operation needs: the MMA pipe, the local-store port, or none that another operation holds. -/
def resource (o : MatrixOp) : Nat :=
  match o.kind with
  | .tld _ => 2
  | .tst _ => 2
  | .amcpOut _ => 2
  | .amcpIn _ => 2
  | _ => if o.isMma then 1 else 0

/-- Whether an operation that has begun still holds its resource in a cycle. -/
def holding (o : MatrixOp) (now : Nat) : Bool :=
  match o.begunAt with
  | some t => decide (now < t + o.cycles.1)
  | none => false

end MatrixOp

/-! ## Claiming the set and queueing (R133, R134, R333) -/

/-- The set after the team's claim; none when another team holds it: a holder whose work is done no longer does (R115, R477). -/
def State.claim (s : State) : Option State :=
  let m := s.core.matrix
  let me := (s.wave.env.grid, s.wave.env.team)
  let free := match m.holder with
    | none => true
    | some h => decide (h ≠ me) && s.teamIdle h.1 h.2
  if m.holder = some me then some s
  else if free then
    some { s with core := { s.core with matrix :=
      { m with holder := some me, rillGrid := some me.1,
               data := { MatrixData.zero with rill := if m.rillGrid = some me.1 then m.data.rill else [] } } } }
  else none

/-- The checks of a matrix word: convergence before everything (R243), then the group (R164). -/
def State.matrixGroup (s : State) (f : Form) (k : Hints → Out) : Out :=
  if s.wave.full = false then s.trapCode 0x03 else s.group { f with lookout := false } k

/-- A new operation as it would enter the queue. -/
def State.newMatrixOp (s : State) (kind : MatrixKind) (ta tb : Nat) (origin : DWord) : MatrixOp :=
  { id := s.ids, slot := s.wave.slot, env := s.wave.env, kind := kind, ta := ta, tb := tb,
    tca := s.core.matrix.data.tc ta, tcb := s.core.matrix.data.tc tb, origin := origin, issuedAt := s.now,
    notBefore := s.now + 1, begunAt := none, issueSlot := s.wave.issueSlot }

/-- A queue with a new operation: behind those there, but before one that a higher issue slot has entered in the same cycle (R333). -/
def enterQueue (o : MatrixOp) : List MatrixOp → List MatrixOp
  | [] => [o]
  | x :: xs => if x.issuedAt = o.issuedAt ∧ o.issueSlot < x.issueSlot then o :: x :: xs else x :: enterQueue o xs

/-- An operation enters the queue (R333, R336): the wave holds at a full queue, and a wave with 64 open operations first closes
a batch. -/
def State.enqueue (s : State) (o : MatrixOp) : Out :=
  if 16 ≤ s.core.matrix.queue.length then s.wait
  else if 64 ≤ s.wave.openBatch.size ∧ 63 ≤ s.wave.ocm then s.wait
  else
    let w := if 64 ≤ s.wave.openBatch.size then s.wave.closeBatch s.now else s.wave
    let b := { w.openBatch with left := w.openBatch.left ++ [o.id], size := w.openBatch.size + 1 }
    let m := s.core.matrix
    ({ s with ids := s.ids + 1, wave := { w with openBatch := b },
              core := { s.core with matrix := { m with queue := enterQueue o m.queue } } } : State).doneEnd

/-- The local-space address of a local offset. -/
def localAddr (o : Nat) : DWord := 0x2000000000000000 + BitVec.ofNat 64 o

/-- The first offset of an operation's ranges that cannot be reached. -/
def MatrixOp.unreachable (o : MatrixOp) : Option Nat :=
  (o.reads ++ o.writes).findSome? fun r =>
    match o.env.localRuns r.1 r.2 with
    | .error x => some x
    | .ok _ => none

/-! ## The MMA family (R339 to R344) -/

/-- Rows 4 to 6 of R341: whether an operation of the family is illegal under the captured configurations. -/
def MatrixOp.mmaIllegal (o : MatrixOp) (tcb1 : DWord) : Bool :=
  match o.task, mmaClass o.tca o.tcb with
  | some t, some c =>
    let sparse := t.sparse.isSome
    let stored := tcCols o.tca
    let bk := if t.trans then tcCols o.tcb else tcRows o.tcb
    let scaledOp := match o.kind with
      | .mmas _ _ _ _ => true
      | _ => false
    (scaledOp && c.g != 32) || decide (bk ≠ stored ∨ c.kmax < stored) ||
      (sparse && (decide (t.k % 4 ≠ 0) || decide (o.tcb ≠ tcb1))) ||
      decide (o.origin.toNat / 2 ^ 23 ≠ 0 ∨ bitsN o.origin.toNat 15 10 ≠ 0 ∨ 128 < t.col0 + t.n ∨ 1024 < t.row0 + t.m)
  | _, _ => true

/-- An operation of the family: claimed, checked in the order of R341, queued. -/
def State.mmaIssue (s : State) (kind : MatrixKind) (a b sreg : Nat) (scales : List DWord) : Out :=
  match s.claim with
  | none => s.wait
  | some s1 =>
    let o := s1.newMatrixOp kind a b (s.wave.s sreg)
    if o.mmaIllegal (s1.core.matrix.data.tc (b + 1)) ∨ scales.all scaleLegal = false then s.trapCode 0x01
    else
      match o.unreachable with
      | some x => s.trapAddr causePermission .read (localAddr x)
      | none => s1.enqueue o

/-- MMA (R339, R341, R342). -/
def execMma (a b : BitVec 4) (sr : BitVec 7) (z t : BitVec 1) (s : State) : Out :=
  s.matrixGroup { ss := [sr.toNat] } fun _ => s.mmaIssue (.mma (z == 1) (t == 1)) a.toNat b.toNat sr.toNat []

/-- MMAS (R339, R341 to R343): the scale scalars come by HSRC. -/
def execMmas (a b : BitVec 4) (sr : BitVec 7) (z t : BitVec 1) (s : State) : Out :=
  s.matrixGroup { counts := [2], extra := .scalar, ss := [sr.toNat] } fun h =>
    let sx := s.wave.s (h.extra.headD 0)
    let sy := s.wave.s (h.extra.getD 1 0)
    s.mmaIssue (.mmas (z == 1) (t == 1) sx sy) a.toNat b.toNat sr.toNat [sx, sy]

/-- MMAX (R339, R341, R342, R344). -/
def execMmax (a b : BitVec 4) (sr : BitVec 7) (z t : BitVec 1) (m : BitVec 4) (s : State) : Out :=
  s.matrixGroup { ss := [sr.toNat] } fun _ =>
    if b.toNat % 2 = 1 ∨ m = a ∨ m = b ∨ m.toNat = b.toNat + 1 then s.trapCode 0x01
    else s.mmaIssue (.mmax (z == 1) (t == 1) m.toNat) a.toNat b.toNat sr.toNat []

/-! ## Moving tiles and accumulator rows (R330, R345 to R350) -/

/-- TCFG (R330): not queued; the next word sees the configuration. -/
def execTcfg (a : BitVec 4) (sr : BitVec 7) (s : State) : Out :=
  s.matrixGroup { ss := [sr.toNat] } fun _ =>
    match s.claim with
    | none => s.wait
    | some s1 =>
      let x := s.wave.s sr.toNat
      if tcLegal x = false then s.trapCode 0x01
      else
        let m := s1.core.matrix
        let d := { m.data with tcs := Cells.write m.data.tcs a.toNat x }
        ({ s1 with core := { s1.core with matrix := { m with data := d } } } : State).done

/-- A tile image at a local address: alignment, space, reach (R346). -/
def State.tileMove (s : State) (acc : Access) (kind : MatrixKind) (ta : Nat) (addr : DWord) : Out :=
  match s.claim with
  | none => s.wait
  | some s1 =>
    let o := s1.newMatrixOp kind ta 0 0
    if addr.toNat % 16 ≠ 0 then s.trapAddr causeMisaligned acc addr
    else if spaceOf addr ≠ 1 ∨ bitsN addr.toNat 60 22 ≠ 0 then s.trapAddr causeTranslation acc addr
    else
      match o.unreachable with
      | some x => s.trapAddr causePermission acc (localAddr x)
      | none => s1.enqueue o

/-- TLD (R346, R347). -/
def execTld (a : BitVec 4) (sr : BitVec 7) (s : State) : Out :=
  s.matrixGroup { ss := [sr.toNat] } fun _ => s.tileMove .read (.tld (s.wave.s sr.toNat)) a.toNat (s.wave.s sr.toNat)

/-- TST (R346, R347). -/
def execTst (a : BitVec 4) (sr : BitVec 7) (s : State) : Out :=
  s.matrixGroup { ss := [sr.toNat] } fun _ => s.tileMove .write (.tst (s.wave.s sr.toNat)) a.toNat (s.wave.s sr.toNat)

/-- TZERO (R347). -/
def execTzero (a : BitVec 4) (s : State) : Out :=
  s.matrixGroup {} fun _ =>
    match s.claim with
    | none => s.wait
    | some s1 => s1.enqueue (s1.newMatrixOp .tzero a.toNat 0 0)

/-- The neighbour of a core on a port: 0 north, 1 east, 2 south, 3 west (R128, R349). -/
def rillNeighbour (core port : Nat) : Option Nat :=
  let k := core % 4
  let c := core / 4 % 16
  let sec := core / 64 % 4
  let col := 2 * (c % 8) + k % 2
  let row := 4 * sec + 2 * (c / 8) + k / 2
  let at_ := fun row col => 256 * (core / 256) + 64 * (row / 4) + 4 * (col / 2 + 8 * (row % 4 / 2)) + col % 2 + 2 * (row % 2)
  match port with
  | 0 => if row = 0 then none else some (at_ (row - 1) col)
  | 1 => if col = 15 then none else some (at_ row (col + 1))
  | 2 => if row = 11 then none else some (at_ (row + 1) col)
  | _ => if col = 0 then none else some (at_ row (col - 1))

/-- The port that faces a port. -/
def facing (port : Nat) : Nat := (port + 2) % 4

/-- The neighbour on a port when it holds a team of the grid (R349, R350). -/
def State.rillPeer (s : State) (core port grid : Nat) : Option Core :=
  match rillNeighbour core port with
  | none => none
  | some n =>
    let c := s.coreAt n
    if c.residents.any (·.grid == grid) then some c else none

/-- TXFER (R346, R350). -/
def execTxfer (a : BitVec 4) (p : BitVec 2) (s : State) : Out :=
  s.matrixGroup {} fun _ =>
    match s.claim with
    | none => s.wait
    | some s1 =>
      if (s.rillPeer s.wave.core p.toNat s.wave.env.grid).isNone then
        s.trap (s.wave.wholeTrap (causeWord causePermission .read) none)
      else s1.enqueue (s1.newMatrixOp (.txfer p.toNat) a.toNat 0 0)

/-- TRECV (R346, R350). -/
def execTrecv (a : BitVec 4) (p : BitVec 2) (s : State) : Out :=
  s.matrixGroup {} fun _ =>
    match s.claim with
    | none => s.wait
    | some s1 => s1.enqueue (s1.newMatrixOp (.trecv p.toNat) a.toNat 0 0)

/-- A rectangle moved between the accumulator memory and a local image (R346, R348). -/
def State.rectMove (s : State) (acc : Access) (kind : MatrixKind) (x : DWord) : Out :=
  match s.claim with
  | none => s.wait
  | some s1 =>
    let o := s1.newMatrixOp kind 0 0 0
    if rectLegal x = false then s.trapCode 0x01
    else if bitsN x.toNat 21 0 % 16 ≠ 0 then s.trapAddr causeMisaligned acc (localAddr (bitsN x.toNat 21 0))
    else
      match o.unreachable with
      | some y => s.trapAddr causePermission acc (localAddr y)
      | none => s1.enqueue o

/-- AMCP.OUT (R346, R348). -/
def execAmcpOut (sr : BitVec 7) (s : State) : Out :=
  s.matrixGroup { ss := [sr.toNat] } fun _ => s.rectMove .write (.amcpOut (s.wave.s sr.toNat)) (s.wave.s sr.toNat)

/-- AMCP.IN (R346, R348). -/
def execAmcpIn (sr : BitVec 7) (s : State) : Out :=
  s.matrixGroup { ss := [sr.toNat] } fun _ => s.rectMove .read (.amcpIn (s.wave.s sr.toNat)) (s.wave.s sr.toNat)

/-- AMZERO (R346, R348). -/
def execAmzero (sr : BitVec 7) (s : State) : Out :=
  s.matrixGroup { ss := [sr.toNat] } fun _ =>
    match s.claim with
    | none => s.wait
    | some s1 =>
      let x := s.wave.s sr.toNat
      if rectLegal x = false ∨ bitsN x.toNat 21 0 ≠ 0 then s.trapCode 0x01
      else s1.enqueue (s1.newMatrixOp (.amzero x) 0 0 0)

/-! ## Performing an operation -/

/-- The places of a local range. -/
def Env.localBytes (e : Env) (o n : Nat) : List Place :=
  (e.runs o n).flatMap fun r => (List.range r.2.2).map fun i => Place.store r.1 (r.2.1 + i)

/-- The byte that the accesses made on a core see at a local place (R456, R463). -/
def State.coreByte (s : State) (c : Core) (p : Place) : Byte := (c.heldByte 64 p).getD (s.released p)

/-- The bytes of a local range as the set reads them. -/
def State.localImage (s : State) (c : Core) (o : MatrixOp) (off n : Nat) : List Byte :=
  (o.env.localBytes off n).map (s.coreByte c)

/-- What an operation does: the matrix data after it, the local bytes that it writes, access by access, and its flags. -/
structure MatrixEffect where
  data : MatrixData
  stores : List (Nat × List Byte)
  flags : FpFlags

/-- The effect of an operation on the data of its set (R342, R347, R348, R350); `got` is the tile that a TRECV takes. -/
def State.matrixEffect (s : State) (c : Core) (o : MatrixOp) (got : List Byte) : MatrixEffect :=
  let d := c.matrix.data
  let image := s.localImage c o
  match o.kind with
  | .tld _ => ⟨d.setTile o.ta (cleanImage o.tca (image o.offset (tcBytes o.tca))), [], 0⟩
  | .tst _ =>
    ⟨d, (List.range (tcBytes o.tca / 16)).map fun i => (o.offset + 16 * i, d.tileBytes o.ta (16 * i) 16), 0⟩
  | .tzero => ⟨d.setTile o.ta (List.replicate 8192 0), [], 0⟩
  | .txfer _ => ⟨d, [], 0⟩
  | .trecv _ => ⟨d.setTile o.ta got, [], 0⟩
  | .amcpOut x => ⟨d, (rectOf x).elements.map fun e => (o.offset + e.2.2, bytesOf 4 (d.acc e.1 e.2.1).toNat), 0⟩
  | .amcpIn x =>
    let bs := image o.offset (rectOf x).span
    ⟨(rectOf x).elements.foldl (fun d e => d.setAcc e.1 e.2.1 (BitVec.ofNat 32 (fieldAt bs e.2.2 4))) d, [], 0⟩
  | .amzero x => ⟨(rectOf x).elements.foldl (fun d e => d.setAcc e.1 e.2.1 0) d, [], 0⟩
  | .mma _ _ =>
    match o.task with
    | some t => let r := t.run d; ⟨r.1, [], r.2⟩
    | none => ⟨d, [], 0⟩
  | .mmas _ _ sx sy =>
    match o.task with
    | some t =>
      let xs := image (scaleOff sx) (t.m * scaleRow sx t.k)
      let ys := image (scaleOff sy) (t.n * scaleRow sy t.k)
      let r := ({ t with ea := fun i => xs.getD i 0, eb := fun i => ys.getD i 0 } : MmaTask).run d
      ⟨r.1, [], r.2⟩
    | none => ⟨d, [], 0⟩
  | .mmax _ _ _ =>
    match o.task with
    | some t => let r := t.run d; ⟨r.1, [], r.2⟩
    | none => ⟨d, [], 0⟩

/-- The effect of the part of an operation from what has been done of it up to a unit (R353). -/
def State.matrixPart (s : State) (c : Core) (o : MatrixOp) (got : List Byte) (upTo : Nat) : MatrixEffect :=
  let e := s.matrixEffect c o got
  let d := c.matrix.data
  let total := (o.units.map (·.1)).getD 0
  let inside (x : Nat) : Bool := decide (o.done ≤ x ∧ x < upTo)
  if o.done = 0 ∧ total ≤ upTo then e
  else
    match o.kind with
    | .tld _ =>
      let old := d.tileBytes o.ta 0 8192
      let new := e.data.tileBytes o.ta 0 8192
      let hi := if total ≤ upTo then 8192 else upTo
      { e with data := d.setTile o.ta (old.take o.done ++ (new.drop o.done).take (hi - o.done) ++ old.drop hi) }
    | .tst _ => { e with stores := e.stores.filter fun w => inside (w.1 - o.offset) }
    | .amcpOut _ => { e with stores := e.stores.filter fun w => inside (w.1 - o.offset) }
    | .amcpIn x =>
      let bs := s.localImage c o o.offset (rectOf x).span
      let put (d : MatrixData) (y : Nat × Nat × Nat) : MatrixData := d.setAcc y.1 y.2.1 (BitVec.ofNat 32 (fieldAt bs y.2.2 4))
      { e with data := ((rectOf x).elements.filter fun y => inside y.2.2).foldl put d }
    | .amzero x =>
      let put (d : MatrixData) (y : Nat × Nat × Nat) : MatrixData := d.setAcc y.1 y.2.1 0
      { e with data := ((rectOf x).elements.filter fun y => inside (y.1 - (rectOf x).row0)).foldl put d }
    | _ => e

/-- The local writes of an operation, held from now on (R463). -/
def MatrixOp.heldWrites (o : MatrixOp) (now : Nat) (ws : List (Nat × List Byte)) : List Held :=
  ws.filterMap fun w =>
    match o.env.localPlace w.1 with
    | .ok p => some { slot := o.slot, at_ := now, kind := .write p w.2 }
    | .error _ => none

/-- The effect up to a unit put into the core: data, held writes, and what a report would undo (R463, R464). -/
def State.applyMatrix (s : State) (c : Core) (o : MatrixOp) (got : List Byte) (upTo : Nat) : Core × FpFlags :=
  let e := s.matrixPart c o got upTo
  let now := s.coreTime c.id
  let u : MatrixUndo := { op := o, at_ := now, before := c.matrix.data, took := got, upTo := upTo }
  let undo := (c.matrix.undo.filter fun x => decide (now < x.at_ + Config.quarantine)) ++ [u]
  ({ c with matrix := { c.matrix with data := e.data, undo := undo }, held := c.held ++ o.heldWrites now e.stores }, e.flags)

/-! ## Beginning and completing (R350, R352, R353) -/

/-- An operation leaves the queue; what conflicts with it may begin from the next cycle on (R352). -/
def MatrixSet.leave (m : MatrixSet) (o : MatrixOp) (now : Nat) : MatrixSet :=
  { m with queue := (m.queue.filter fun x => x.id != o.id).map fun x =>
      if o.conflicts x then { x with notBefore := max x.notBefore (now + 1) } else x }

/-- The operation completes for its wave, with a status (R337, R338). -/
def State.endMatrixOp (s : State) (core : Nat) (o : MatrixOp) (f : FpFlags) (st : OpStatus) : State :=
  let owned := s.allWaves.any fun w => w.core == core && w.hasMatrixOp o.id
  let s := s.mapWaves fun w => if w.core = core ∧ w.hasMatrixOp o.id = true then w.finishMatrixOp o.id f else w
  if st = .success then s
  else
    let r := s.openValue
    r.2.reportFailure core o.slot o.env.grid (!owned) st (some 1) (bitsN r.1.toNat 1 0)

/-- Whether a VI's engines may begin work: it is active and not being pre-empted (R32, R353). -/
def State.matrixRuns (s : State) (vi : Nat) : Bool :=
  match s.viAt vi with
  | some v => decide (v.phase = .active) && v.preempt.isNone
  | none => false

/-- Whether an operation of a queue may begin, its buffer aside (R334, R352). -/
def MatrixSet.mayBegin (m : MatrixSet) (o : MatrixOp) (now : Nat) : Bool :=
  let earlier := m.queue.takeWhile fun x => x.id != o.id
  let clear := earlier.all fun x =>
    !x.conflicts o || (x.onlyBlock o && x.begunAt.isSome && !x.holding now)
  let free := m.queue.all fun x => x.id == o.id || o.resource == 0 || x.resource != o.resource || !x.holding now
  o.begunAt.isNone && decide (o.notBefore ≤ now) && clear && free

/-- MATRIX_OP_BEGIN (R350, R352). -/
def execMatrixOpBegin (core op : Nat) (s : State) : Out :=
  let c := s.coreAt core
  let now := s.coreTime core
  match c.matrix.queue.find? (·.id == op) with
  | none => s.skip
  | some o =>
    let queue := c.matrix.queue.map fun x => if x.id = op then { x with begunAt := some now } else x
    let begin_ := s.setCore { c with matrix := { c.matrix with queue := queue } }
    if c.matrix.mayBegin o now = false ∨ s.matrixRuns o.env.vi = false then s.skip
    else
      match o.kind with
      | .txfer p =>
        match s.rillPeer core p o.env.grid with
        | none => .next ((s.setCore { c with matrix := c.matrix.leave o now }).endMatrixOp core o 0 .rillAbsent)
        | some n => if n.matrix.data.rill.any (·.1 == facing p) then s.skip else .next begin_
      | .trecv p => if c.matrix.data.rill.any (·.1 == p) then .next begin_ else s.skip
      | _ => .next begin_

/-- Whether an operation has run its time (R352). -/
def MatrixOp.due (o : MatrixOp) (now : Nat) : Bool :=
  match o.begunAt with
  | some t => decide (t + o.cycles.1 - 1 + o.cycles.2 ≤ now)
  | none => false

/-- MATRIX_OP_COMPLETE (R334, R337, R350, R352): the operation's effect, then it leaves the queue. Poison that it reads is
consumed (R467). -/
def execMatrixOpComplete (core op : Nat) (s : State) : Out :=
  let c := s.coreAt core
  let now := s.coreTime core
  match c.matrix.queue.find? (·.id == op) with
  | none => s.skip
  | some o =>
    let earlier := c.matrix.queue.takeWhile fun x => x.id != o.id
    if o.due now = false ∨ (earlier.any fun x => x.conflicts o) = true then s.skip
    else
      let got := match o.kind with
        | .trecv p => ((c.matrix.data.rill.find? (·.1 == p)).map (·.2)).getD []
        | _ => []
      let r := s.applyMatrix c o got (2 ^ 32)
      let m := r.1.matrix.leave o now
      let m := match o.kind with
        | .trecv p => { m with data := { m.data with rill := m.data.rill.filter (·.1 != p) } }
        | _ => m
      let s1 := s.setCore { r.1 with matrix := m }
      let s2 := match o.kind with
        | .txfer p =>
          match rillNeighbour core p with
          | some i =>
            let n := s1.coreAt i
            let rill := n.matrix.data.rill ++ [(facing p, c.matrix.data.tileBytes o.ta 0 8192)]
            s1.setCore { n with matrix := { n.matrix with data := { n.matrix.data with rill := rill }, rillGrid := some o.env.grid } }
          | none => s1
        | _ => s1
      let bad := (o.reads.flatMap fun r => o.env.localBytes r.1 r.2).any s.poisoned
      let s3 := if bad then s2.soon (.op (.poisonConsumed o.env.grid o.env.reach)) else s2
      .next (s3.endMatrixOp core o r.2 .success)

end Sys2Proof.Machine
end

