-- ==== Sys2Proof/Machine/Placing.lean ====
section
/-!
DEFINITION. The range matcher (R104), dispatch (R109 to R111), placement (R128 to R138, R245), the start of a reach and of a
ferry-mode grid (R136, R139, R246), and spawn bins (R117 to R119, R260).
-/
namespace Sys2Proof.Machine

/-! ## The range matcher (R104) -/

/-- Whether two tasks conflict. -/
def conflicting (a b : LaunchRecord) : Bool :=
  a.declared.any fun x => b.declared.any fun y =>
    (x.2.2 || y.2.2) && rangesMeet x.1.toNat x.2.1 y.1.toNat y.2.1

/-- Whether a task is ready: no earlier task in flight of its VI and domain conflicts with it, its ancestors apart. -/
def State.ready (s : State) (g : Grid) : Bool :=
  s.grids.all fun u => !(u.vi == g.vi && decide (u.order < g.order) && u.record.domain == g.record.domain &&
    !g.ancestors.contains u.id && conflicting g.record u.record)

/-! ## Candidates (R109, R110, R111) -/

/-- The next reach of a grid that is not dispatched. -/
def Grid.nextReach (g : Grid) : Option Reach := g.reaches.find? fun r => decide (r.phase = .waiting)

/-- The key of a grid's queue (R110). -/
def Grid.key (g : Grid) : Nat := g.vi * 32 + g.q

/-- Whether a VI's queues dispatch (R32, R448). -/
def State.dispatches (s : State) (vi : Nat) : Bool :=
  match s.viAt vi with
  | some v => decide (v.phase = .active) && v.preempt.isNone
  | none => false

/-- The tasks that may be dispatched at all. -/
def State.eligible (s : State) : List Grid :=
  s.grids.filter fun g => s.dispatches g.vi && g.nextReach.isSome && s.ready g

/-- The candidates: of each queue the oldest eligible task. -/
def State.candidates (s : State) : List Grid :=
  let es := s.eligible
  es.filter fun g => es.all fun u => !(u.key == g.key && decide (u.order < g.order))

/-- The place of a candidate in its level's round robin. -/
def State.turn (s : State) (g : Grid) : Nat := (g.key + 2048 - s.launch.pointers.getD g.record.prio 0) % 2048

/-- Whether a candidate is visited before another: level, then round robin. -/
def State.before (s : State) (a b : Grid) : Bool :=
  decide (b.record.prio < a.record.prio) || (a.record.prio == b.record.prio && decide (s.turn a < s.turn b))

/-- The uncore cycle from which a candidate has been reserved (R111), whether or not its event has taken place. -/
def State.reservedSince (s : State) (g : Grid) : Option Nat :=
  g.reservedAt.or (g.passedSince.bind fun t => if t + Config.reserveWait ≤ s.uncore then some (t + Config.reserveWait) else none)

/-- The reserved candidate that goes first (R111): highest level, then earliest reserved; of two reserved in the same cycle, the task
accepted earlier (log entry 111). -/
def State.firstReserved (s : State) (cs : List Grid) : Option Grid :=
  cs.foldl (fun r g =>
    match r, s.reservedSince g with
    | r, none => r
    | none, some _ => some g
    | some x, some t =>
      if x.record.prio < g.record.prio ∨ (x.record.prio = g.record.prio ∧ t < (s.reservedSince x).getD t) then some g else some x) none

/-- Whether the dispatcher may place a reach of a candidate (R111): of the reserved ones the first; of the others those that come before
every reserved one. -/
def State.allowed (s : State) (cs : List Grid) (g : Grid) : Bool :=
  if (s.reservedSince g).isSome then (s.firstReserved cs).map (·.id) == some g.id
  else cs.all fun x => (s.reservedSince x).isNone || s.before g x

/-! ## What a core has free (R129 to R131, R137) -/

/-- Whether a resident's grid takes its core whole: a pair team, or a ferry core. -/
def State.takesWhole (s : State) (r : Resident) : Bool :=
  match s.gridAt r.grid with
  | some g => g.record.pair || g.record.ferry
  | none => false

/-- Whether a resident's reach has started. -/
def State.started (s : State) (r : Resident) : Bool :=
  match s.gridAt r.grid with
  | some g => g.reaches.any fun x => decide (x.phase = .running) && x.teams.any (·.team == r.team)
  | none => false

/-- Whether a resident has given up all that it takes on its core: its waves have exited, and its operations completed (R115); not
while its VI stands still (R32). -/
def State.released_ (s : State) (r : Resident) : Bool :=
  let ferry := match s.gridAt r.grid with
    | some g => g.record.ferry
    | none => false
  let runs := match s.gridAt r.grid with
    | some g => s.dispatches g.vi
    | none => false
  !ferry && runs && s.started r && s.teamIdle r.grid r.team

/-- What is left on a core after R115: the places of teams that have given them up are free, and so is a matrix set that one of them
holds (R133, R477). -/
def State.purge (s : State) (c : Core) : Core :=
  let gone := c.residents.filter s.released_
  let m := if gone.any fun r => c.matrix.holder == some (r.grid, r.team) then
      { c.matrix with holder := none, data := { MatrixData.zero with rill := c.matrix.data.rill } } else c.matrix
  if gone.isEmpty then c else { c with residents := c.residents.filter fun r => !s.released_ r, matrix := m }

/-- Every core gives up what teams have left on it. -/
def State.freeCores (s : State) : State := s.mapCores s.purge

/-- The wave slots that teams occupy. -/
def Core.slotsUsed (c : Core) : List Nat := (c.residents.filter fun r => !r.regsFreed).flatMap (·.slots)

/-- The vector-register bytes that teams occupy. -/
def Core.vectorUsed (c : Core) : Nat := (c.residents.filter fun r => !r.regsFreed).foldl (fun n r => n + r.vbytes) 0

/-- The free slots that a team takes on a core: the lowest (log entry 110). -/
def Core.lowSlots (c : Core) (n : Nat) : List Nat := ((List.range 32).filter fun i => !c.slotsUsed.contains i).take n

/-- The lowest start of a free run of the store, in units of 4 KiB (R130). -/
def Core.storeRun (c : Core) (bytes : Nat) : Option Nat :=
  if bytes = 0 then some 0
  else
    ((List.range 128).map (4096 * ·)).find? fun b =>
      decide (b + bytes ≤ 524288) && c.residents.all fun r => !rangesMeet b bytes r.lbase r.lsize

/-- The store that a team takes: `LLOCAL` rounded up to 4 KiB (R130). -/
def LaunchRecord.storeBytes (r : LaunchRecord) : Nat := (r.llocal + 3) / 4 * 4096

/-- Whether a core is in the VI's set, and empty or with teams of the VI (R129, R137). -/
def Core.isOf (c : Core) (v : Vi) : Bool := v.coreSet.contains c.id && (c.residents.isEmpty || c.vi == some v.vi)

/-- Whether a core may take a single-core team: no pair team and no ferry core holds it whole (R131, R245). -/
def State.coreOpen (s : State) (c : Core) : Bool := c.residents.all fun r => !s.takesWhole r

/-- Whether a core has room for a team (R130). -/
def Core.hasRoom (c : Core) (r : LaunchRecord) : Bool :=
  decide (c.slotsUsed.length + r.waves ≤ 32 ∧ c.vectorUsed + r.vectorBytes ≤ 2 ^ 20) && (c.storeRun r.storeBytes).isSome

/-! ## Choosing cores (R138, R245) -/

/-- The first of a list with the least weight. -/
def leastBy {α : Type} (f : α → Nat) : List α → Option α
  | [] => none
  | x :: xs =>
    match leastBy f xs with
    | none => some x
    | some y => some (if f x ≤ f y then x else y)

/-- The `n` members of least weight, ties by their order; the rest dropped. -/
def leastN {α : Type} [DecidableEq α] (f : α → Nat) (xs : List α) : Nat → List α
  | 0 => []
  | n + 1 =>
    match leastBy f xs with
    | none => []
    | some x => x :: leastN f (xs.erase x) n

/-- The four cores of a cluster, as they stand. -/
def State.clusterCores (s : State) (cl : Nat) : List Core := (List.range 4).map fun k => s.purge (s.coreAt (4 * cl + k))

/-- The clusters of the package in physical order. -/
def clusters : List Nat := (List.range 128).filter fun c => c / 16 % 4 < 3

/-- The cores that a reach of `n` teams takes in a cluster, one list for each team (R137, R138). -/
def State.fitCluster (s : State) (v : Vi) (r : LaunchRecord) (n cl : Nat) : Option (List (List Nat)) :=
  let cs := s.clusterCores cl
  if cs.all (·.isOf v) = false then none
  else if r.pair then
    let pairs := [0, 2].filter fun k => (cs.getD k (.empty 0)).residents.isEmpty && (cs.getD (k + 1) (.empty 0)).residents.isEmpty
    if pairs.length < n then none else some ((pairs.take n).map fun k => [4 * cl + k, 4 * cl + k + 1])
  else
    let fit := (cs.filter fun c => s.coreOpen c && c.hasRoom r).map (·.id)
    if fit.length < n then none
    else
      let load := fun c : Nat => ((cs.getD (c % 4) (.empty 0)).slotsUsed).length
      let best := leastN load fit n
      some (((List.range 4).map (4 * cl + ·)).filter best.contains |>.map fun c => [c])

/-- The occupied wave slots of a cluster. -/
def State.clusterLoad (s : State) (cl : Nat) : Nat := (s.clusterCores cl).foldl (fun n c => n + c.slotsUsed.length) 0

/-- Where placement puts a reach: one list of cores for each of its teams; none when it fits nowhere (R137, R138, R245). -/
def State.choose (s : State) (g : Grid) (x : Reach) : Option (List (List Nat)) :=
  match s.viAt g.vi with
  | none => none
  | some v =>
    let n := x.teams.length
    if g.record.ferry then
      let free := coreIds.filter fun c => v.coreSet.contains c && (s.purge (s.coreAt c)).residents.isEmpty
      if free.length < n then none else some ((free.take n).map fun c => [c])
    else
      match leastBy s.clusterLoad (clusters.filter fun cl => (s.fitCluster v g.record n cl).isSome) with
      | none => none
      | some cl => s.fitCluster v g.record n cl

/-! ## Taking the resources (R130, R131, R135) -/

/-- A core that takes a team of a VI: first what earlier teams have left goes; a core that comes from another VI is cleared, one
that held no team clears its tags (R135), and receive buffers of a grid that has no team there are emptied (R349). -/
def Core.take (c : Core) (vi : Nat) (x : Resident) (whole : Bool) : Core :=
  let c := if c.residents.isEmpty then (if c.vi = some vi then { c with tagmap := 0 } else c.cleared) else c
  let old := c.matrix.rillGrid
  let keeps := old = some x.grid ∨ (c.residents.any fun r => old == some r.grid) = true
  let m := if keeps then c.matrix else { c.matrix with rillGrid := none, data := { c.matrix.data with rill := [] } }
  let m := if whole then { m with holder := some (x.grid, x.team), data := { MatrixData.zero with rill := m.data.rill } } else m
  { c with vi := some vi, residents := c.residents ++ [x], matrix := m }

/-- What a team takes on a core. -/
def Core.residentFor (c : Core) (g : Grid) (team : Nat) : Resident :=
  let r := g.record
  if r.pair then
    { grid := g.id, team := team, slots := List.range 32, vbytes := 2 ^ 20, lbase := 0, lsize := 524288, regsFreed := false }
  else
    { grid := g.id, team := team, slots := c.lowSlots r.waves, vbytes := r.vectorBytes, lbase := (c.storeRun r.storeBytes).getD 0,
      lsize := r.storeBytes, regsFreed := false }

/-- A team put on its cores. -/
def State.placeTeam (s : State) (g : Grid) (team : Nat) (cores : List Nat) : State :=
  cores.foldl (fun s c =>
    let d := s.purge (s.coreAt c)
    s.setCore (d.take g.vi (d.residentFor g team) g.record.pair)) s

/-- The reach is placed (R138): its teams get their cores, in order. -/
def State.placeReach (s : State) (g : Grid) (x : Reach) (where_ : List (List Nat)) : State :=
  let ts := x.teams.zip where_
  let s1 := ts.foldl (fun s t => s.placeTeam g t.1.team t.2) s
  let base (c team : Nat) : Nat := (((s1.coreAt c).residents.find? fun r => r.grid == g.id && r.team == team).map (·.lbase)).getD 0
  let x' := { x with phase := .placed, teams := ts.map fun t =>
    { t.1 with cores := t.2, lbase := base (t.2.headD 0) t.1.team, ended := false, entry := none } }
  s1.setGrid { g with reaches := g.reaches.map fun y => if y.index = x.index then x' else y }

/-! ## The events of dispatch -/

/-- The candidate that the dispatcher places next (R110, R111). -/
def State.chosen (s : State) : Option (Grid × Reach × List (List Nat)) :=
  let cs := s.candidates
  let fits := (cs.filter (s.allowed cs)).filterMap fun g =>
    match g.nextReach with
    | none => none
    | some x => (s.choose g x).map fun w => (g, x, w)
  fits.find? fun a => fits.all fun b => a.1.id == b.1.id || s.before a.1 b.1

/-- The waiting of the other candidates begins at the first placement that passes them over (R111). -/
def State.passOver (s : State) (cs : List Grid) (placed : Nat) : State :=
  { s with grids := s.grids.map fun g =>
      if g.id = placed then { g with passedSince := none, reservedAt := none }
      else if cs.any (·.id == g.id) then { g with passedSince := g.passedSince.or (some s.uncore) }
      else g }

/-- DISPATCH (R109, R110, R137, R138). -/
def execDispatch (s : State) : Out :=
  match s.chosen with
  | none => s.skip
  | some (g, x, w) =>
    let t := (s.placeReach g x w).passOver s.candidates g.id
    .next { t with launch := { t.launch with pointers := t.launch.pointers.set g.record.prio ((g.key + 1) % 2048) } }

/-- CANDIDATE_RESERVED (R111). -/
def execCandidateReserved (n : Nat) (s : State) : Out :=
  match s.candidates.find? (·.id == n) with
  | none => s.skip
  | some g =>
    match g.passedSince with
    | some t =>
      if t + Config.reserveWait ≤ s.uncore ∧ g.reservedAt.isNone = true then
        .next (s.setGrid { g with reservedAt := some (t + Config.reserveWait) })
      else s.skip
    | none => s.skip

/-! ## Starting waves (R119, R127, R132, R136) -/

/-- The runs of a placed team, one for each of its cores (R132). -/
def Grid.runs (g : Grid) (t : TeamState) : List StoreRun :=
  let n := g.record.llocal * 1024
  match t.cores with
  | [a, b] =>
    [{ team := t.team, pos := a % 4, core := a, base := 0, limit := min n 524288 },
     { team := t.team, pos := b % 4, core := b, base := 0, limit := n - 524288 }]
  | [a] => [{ team := t.team, pos := a % 4, core := a, base := t.lbase, limit := n }]
  | _ => []

/-- The core of a wave of a team (R131). -/
def TeamState.coreOf (t : TeamState) (wave : Nat) : Nat := t.cores.getD (wave % t.cores.length) 0

/-- What a launch fixes for a wave (R61, R62, R126, R127, R132). Its window shows the stores of the teams of its reach in its cluster
(R49); a ferry-mode grid is one reach (R245, log entry 112). -/
def State.envFor (s : State) (g : Grid) (x : Reach) (t : TeamState) (wave : Nat) : Env :=
  let r := g.record
  let core := t.coreOf wave
  let runs := g.runs t
  { vi := g.vi, asid := ((s.viAt g.vi).map (·.desc.asidBase)).getD 0, grid := g.id, team := t.team, reach := x.index, depth := g.depth,
    wavew := r.width, wavesPerTeam := r.waves, waveid := wave, gx := r.gx, gy := r.gy, gz := r.gz, nV := r.nV, nS := r.nS,
    privLane := r.privLane, privWave := r.privWave, privBase := r.privBase.toNat, privSize := r.privSize, image := r.image,
    entry := r.entry, sections := g.sections, ferry := r.ferry, det := r.det, lookouts := r.lookouts,
    own := (runs.find? (·.core == core)).getD (.none core), partner := runs.find? (·.core != core),
    window := (x.teams.flatMap g.runs).filter fun y => y.core / 4 == core / 4, ttBase := r.ttBase, ttCount := r.ttCount,
    ovfBase := r.ovfBase.toNat, ovfSize := r.ovfSize, teams := r.teams, args := r.args }

/-- The address of the supervisor section's first byte (R422). -/
def Env.supervisorBase (e : Env) : DWord :=
  match e.sections.find? Section.isSupervisor with
  | some x => e.image + BitVec.ofNat 64 x.off
  | none => e.image

/-- The registers with which every wave starts (R119, R136). -/
def Env.startArch (e : Env) (exm : DWord) : Arch := Arch.start exm e.supervisorBase (Cells.writeList [] 0 e.args)

/-- The slot of a team's wave on its core. -/
def Core.slotOf (c : Core) (g : Grid) (t : TeamState) (wave : Nat) : Nat :=
  match c.residents.find? fun r => r.grid == g.id && r.team == t.team with
  | some r => r.slots.getD (wave / t.cores.length) 0
  | none => 0

/-- The opaque blocks of a slot are free for the wave that starts there (R433). -/
def State.freeBlocks (s : State) (slotNo : Nat) : State :=
  { s with hub := { s.hub with blocks := s.hub.blocks.filter (·.home != slotNo) } }

/-- A wave put into its slot at its start: older than the waves that start from bins in the same core cycle, the waves of a team by
their numbers (R141). -/
def State.startWave (s : State) (g : Grid) (x : Reach) (t : TeamState) (wave : Nat) (st : WaveStatus) : State :=
  let e := s.envFor g x t wave
  let c := s.coreAt (t.coreOf wave)
  let n := (c.residents.findIdx? fun r => r.grid == g.id && r.team == t.team).getD 0
  let a := c.ageNow (s.coreTime c.id) (64 * n + wave)
  let w := Wave.start c.id (c.slotOf g t wave) e (e.startArch (lowMask e.wavew)) (e.image + BitVec.ofNat 64 e.entry) st a.2
    (s.coreTime c.id)
  ((s.setCore a.1).freeBlocks w.slotNo).putWave w

/-- The waves of a team start. -/
def State.startTeam (s : State) (g : Grid) (x : Reach) (t : TeamState) (st : WaveStatus) : State :=
  (List.range g.record.waves).foldl (fun s w => s.startWave g x t w st) s

/-- A team finds its local store zero (R134). -/
def State.zeroStore (s : State) (g : Grid) (t : TeamState) : State :=
  t.cores.foldl (fun s c =>
    let d := s.coreAt c
    match d.residents.find? fun r => r.grid == g.id && r.team == t.team with
    | none => s
    | some r =>
      let inside := fun o : Nat => decide (r.lbase ≤ o ∧ o < r.lbase + r.lsize)
      { s.setCore { d with store := d.store.filter fun x => !inside x.1 } with
        storePoison := s.storePoison.filter fun p => !(p.1 == c && inside (32 * p.2)) }) s

/-- The reach of a grid with a number. -/
def Grid.reachAt (g : Grid) (n : Nat) : Option Reach := g.reaches.find? (·.index == n)
def Grid.setReach (g : Grid) (x : Reach) : Grid := { g with reaches := g.reaches.map fun y => if y.index = x.index then x else y }

/-- REACH_START (R134, R136, R139): every team of a placed reach starts. -/
def execReachStart (grid n : Nat) (s : State) : Out :=
  match (s.gridAt grid).bind fun g => (g.reachAt n).map fun x => (g, x) with
  | none => s.skip
  | some (g, x) =>
    if x.phase ≠ .placed ∨ g.record.ferry = true ∨ s.dispatches g.vi = false then s.skip
    else
      let s := x.teams.foldl (fun s t => s.zeroStore g t) (s.setGrid (g.setReach { x with phase := .running }))
      .next (x.teams.foldl (fun s t => s.startTeam g x t .ready) s)

/-! ## Ferry-mode grids (R245, R246) -/

/-- The segment that a team loads before the grid starts, if the map names it for one. -/
def SegmentMap.segmentFor (m : SegmentMap) (team : Nat) : Option Nat := (m.segs.find? fun x => x.holders.contains team).map (·.seg)

/-- The bytes of a segment section, as far as they can be read. -/
def State.segmentBytes (s : State) (v : Vi) (g : Grid) (seg : Nat) : Got (List Byte) :=
  match g.sections.find? fun x => x.isSegment && x.seg == seg with
  | none => .ok []
  | some x =>
    match s.fetchBytes v (g.record.image + BitVec.ofNat 64 x.off) x.size with
    | .ok bs => .ok bs
    | .error (.wait ps) => .error (.wait ps)
    | .error _ => .ok []

/-- A core with a segment in its instruction store (R147). -/
def Core.loadSegment (c : Core) (seg : Nat) (bs : List Byte) : Core :=
  { c with segment := some seg, segText := bs, loading := false }

/-- The segments of the teams loaded; an error names what the loads wait for. -/
def State.loadSegments (s : State) (v : Vi) (g : Grid) (m : SegmentMap) : List TeamState → Got State
  | [] => .ok s
  | t :: ts =>
    match m.segmentFor t.team with
    | none => s.loadSegments v g m ts
    | some seg => do
      let bs ← s.segmentBytes v g seg
      (s.setCore ((s.coreAt (t.coreOf 0)).loadSegment seg bs)).loadSegments v g m ts

/-- FERRY_GRID_START (R246, R262): the segments are loaded, the overflow headers are zeroed, the primary of segment 0 starts its
waves, every other team's slots hold exited waves. -/
def execFerryGridStart (grid : Nat) (s : State) : Out :=
  match (s.gridAt grid).bind fun g => g.map.bind fun m => (g.reachAt 0).bind fun x => (s.viAt g.vi).map fun v => (g, m, x, v) with
  | none => s.skip
  | some (g, m, x, v) =>
    if x.phase ≠ .placed ∨ s.dispatches g.vi = false then s.skip
    else
      match s.loadSegments v g m x.teams with
      | .error (.wait ps) => .next (s.askPlaces false ps)
      | .error _ => s.skip
      | .ok s =>
        let first := (m.entry 0).map (·.primary)
        let s := x.teams.foldl (fun s t => s.zeroStore g t) (s.setGrid (g.setReach { x with phase := .running }))
        let zero (s : State) (t : TeamState) : State :=
          (s.hubWrite v.hubEnv (g.record.ovfBase + BitVec.ofNat 64 (t.team * g.record.ovfSize)) (List.replicate 64 0)).getD s
        let s := x.teams.foldl zero s
        .next (x.teams.foldl (fun s t => s.startTeam g x t (if some t.team = first then .ready else .exited)) s)

/-! ## Spawn bins (R118, R119, R260) -/

/-- SPAWN_BIN_TIMEOUT (R118): the timer of a bin reaches zero. -/
def execSpawnBinTimeout (core n : Nat) (s : State) : Out :=
  let c := s.coreAt core
  match c.bins.find? (·.index == n) with
  | none => s.skip
  | some b =>
    if b.left = some 1 then .next (s.setCore (c.setBin { b with left := some 0 })) else s.skip

/-- The exited waves of a team, whose slots a bin may take. -/
def State.exitedWaves (s : State) (grid team : Nat) : List Wave :=
  s.allWaves.filter fun w => w.ofTeam grid team && decide (w.status = .exited)

/-- The vector registers of a wave from a bin (R119, R260). -/
def binVectors (lanes : List BinLane) : Cells 32 :=
  (lanes.zipIdx).foldl (fun c x => x.1.regs.foldl (fun c r => Cells.write c (vkey r.1 x.2) r.2) c) []

/-- The predicates of a wave from a bin (R119, R260). -/
def binPreds (lanes : List BinLane) : Cells 64 :=
  (List.range 12).foldl (fun c p =>
    Cells.write c p (maskOf ((lanes.zipIdx.filter fun x => x.1.preds.getLsbD p).map (·.2)))) []

/-- A lookout of the core gives way to the slot that is taken (R146). -/
def Wave.fromBin (w : Wave) (b : Bin) (age now : Nat) : Wave :=
  let arch := w.env.startArch (lowMask b.lanes.length)
  Wave.start w.core w.slot w.env { arch with vregs := binVectors b.lanes, preds := binPreds b.lanes }
    (w.env.image + BitVec.ofNat 64 b.entry) .ready age now

/-- BIN_WAVE_START (R118, R119, R260): a ready bin, all of whose lanes are released, starts a wave in the exited wave's slot. -/
def execBinWaveStart (core n : Nat) (s : State) : Out :=
  let c := s.coreAt core
  match c.bins.find? (·.index == n) with
  | none => s.skip
  | some b =>
    match leastBy (·.env.waveid) (s.exitedWaves b.grid b.team) with
    | none => s.skip
    | some w =>
      if b.lanes.isEmpty ∨ b.ready w.env.wavew = false ∨ (b.lanes.any (·.held)) = true ∨ s.viRuns w.env.vi = false then
        s.skip
      else
        let d := s.coreAt w.core
        let a := d.ageNow (s.coreTime d.id) (4096 + b.index)
        let s1 := ((s.setCore a.1).freeBlocks w.slotNo).putWave (w.fromBin b a.2 (s.coreTime d.id))
        let c1 := s1.coreAt core
        .next (s1.setCore (if b.sticky then c1.setBin { b with lanes := [], left := none, markedReady := false } else c1.dropBin n))

end Sys2Proof.Machine
end

