-- ==== Sys2Proof/Machine/Sync.lean ====
section
/-!
DEFINITION. FENCE and FENCE.TC (R391 to R393), barriers (R402 to R405).
-/
namespace Sys2Proof.Machine

/-! ## Fences -/

/-- The core cycle in which the fence at which the wave stands issued. -/
def State.fenceTime (s : State) : Nat := s.wave.fenceAt.getD s.now

/-- Whether a fence waits for a held item (R392, R394): a write or an atomic of the wave, or a local-store write that another wave of
the core had made when the fence issued, which a load of the wave may have returned (cumulativity). -/
def State.fenceWaits (s : State) (h : Held) : Bool :=
  match h.kind with
  | .write (.mem _) _ => h.slot == s.wave.slot
  | .write (.store _ _) _ => h.slot == s.wave.slot || decide (h.at_ ≤ s.fenceTime)
  | .atomic _ _ _ _ _ _ _ => h.slot == s.wave.slot
  | _ => false

/-- Whether a fence of the wave waits for something held by the quarantine. -/
def State.writesHeld (s : State) : Bool := s.core.held.any s.fenceWaits

/-- The wave stalls at a fence; the cycle of its issue is kept. -/
def State.stallFence (s : State) : Out := ({ s with wave := { s.wave with fenceAt := some s.fenceTime } } : State).stall

/-- FENCE (R391, R392). Loads have read when they issued (log entry 15), so that the earlier accesses are performed once nothing for
which the fence waits is held. -/
def execFence (m : BitVec 5) (s : State) : Out :=
  s.group { terminal := true, lookout := false } fun _ =>
    if m = 0 then s.trapCode 0x01 else if s.writesHeld then s.stallFence else s.done

/-- Whether FENCE.TC waits for an operation (R393). -/
def AsyncOp.fenced (o : AsyncOp) : Bool :=
  match o.kind with
  | .amsg _ _ _ => spaceOf o.dst == 3
  | _ => true

/-- FENCE.TC (R391, R393). -/
def execFenceTc (s : State) : Out :=
  s.group { terminal := true, lookout := false } fun _ =>
    let open_ := s.ops.any fun o =>
      o.core == s.wave.core && o.slot == s.wave.slot && !o.orphan && !o.ended && o.fenced
    if s.writesHeld || open_ then s.stallFence else s.done

/-! ## Barriers -/

/-- A region entry at the group after the one that issues, whose instruction has not completed (R457). -/
def State.enterAfter (s : State) : State :=
  let t := ({ s with wave := s.wave.retire } : State).enter
  { s with wave := { s.wave with entries := t.wave.entries } }

/-- A wave reaches a barrier (R403, R455): its arrival is held, and it stalls; one that has arrived completes when the barrier
has completed without it (R405). -/
def State.arrive (s : State) (reach : Bool) (b : Nat) : Out :=
  if s.wave.env.ferry then s.trapCode 0x01
  else
    let new := ({ s.hold .arrive with wave :=
      { s.wave with arrival := some { reachLevel := reach, number := b, released := false, complete := false } } } : State)
    match s.wave.arrival with
    | none => new.enterAfter.stall
    | some a =>
      if a.reachLevel = reach ∧ a.number = b then
        if a.complete then ({ s with wave := { s.wave with arrival := none } } : State).done else s.stall
      else new.enterAfter.stall

/-- BAR (R402, R403). -/
def execBar (b : BitVec 4) (s : State) : Out :=
  s.group { terminal := true, lookout := false } fun _ => s.arrive false b.toNat

/-- RBAR (R402, R403). -/
def execRbar (b : BitVec 4) (s : State) : Out :=
  s.group { terminal := true, lookout := false } fun _ => s.arrive true b.toNat

/-- A change made while another wave is looked at. -/
def State.during (s : State) (r : WaveRef) (f : State → State) : State :=
  match s.focus r with
  | none => s
  | some t =>
    let u := f t
    (u.focus ⟨s.wave.core, s.wave.slot⟩).getD u

/-- Whether a wave is live (R403): started, and its end not yet in effect. -/
def Wave.live (w : Wave) : Bool := w.lookoutOf.isNone && decide (w.status ≠ .absent ∧ w.status ≠ .exited)

/-- Whether a barrier counts a wave. -/
def barrierCounts (b : BarrierRef) (w : Wave) : Bool :=
  w.live && w.env.grid == b.grid && (if b.reachLevel then w.env.reach == b.group else w.env.team == b.group)

/-- Whether a wave has arrived at a barrier; a halted or pre-empted wave has not (R405). -/
def barrierArrived (b : BarrierRef) (w : Wave) : Bool :=
  w.stop.isNone &&
    match w.arrival with
    | some a => a.reachLevel == b.reachLevel && a.number == b.number && a.released && !a.complete
    | none => false

/-- A wave released from a barrier (R404): it is ready some cycles later; in a watchdog handler, it finds the barrier complete
when it returns (R405). -/
def State.leaveBarrier (s : State) (delay : Nat) : State :=
  let w := s.wave
  if w.status = .stalled then
    ({ s with wave := { w.retire with arrival := none, readySince := s.coreTime w.core + delay } } : State).aged
  else { s with wave := { w with arrival := w.arrival.map fun a => { a with complete := true } } }

/-- BARRIER_COMPLETE (R403, R404). -/
def execBarrierComplete (b : BarrierRef) (s : State) : Out :=
  let ws := s.allWaves.filter (barrierCounts b)
  if ws.isEmpty ∨ ws.all (barrierArrived b) = false then s.skip
  else .next (ws.foldl (fun s w => s.during ⟨w.core, w.slot⟩ fun t => t.leaveBarrier (if b.reachLevel then 12 else 4)) s)

end Sys2Proof.Machine
end

