-- ==== Sys2Proof/Machine/Waves.lean ====
section
/-!
DEFINITION. What happens to waves between instructions: the issue of clauses (R140 to R152, R490), lookouts (R144 to R146),
completions (R154, R156), traps at their boundaries (R310, R428, R430, R439, R442), and the end of a wave (R241, R455).
-/
namespace Sys2Proof.Machine

/-! ## Fetching the next clause (R147 to R150) -/

/-- Whether the next clause waits for a fill. -/
def State.needsFill (s : State) : Bool := s.cachedAt s.wave.pos.pc && (s.heldClause s.wave.pos.pc).isNone

/-- The places in memory of `n` bytes of the clause at an address, as far as a fetch reaches them. -/
def State.fetchPlaces (s : State) (a : DWord) (n : Nat) : List Place :=
  match s.places s.wave.env s.wave.arch.mode .fetch 0 a n with
  | .ok ps => ps
  | .error _ => []

/-- The places of the header, and once that can be read of the whole clause. -/
def State.clausePlaces (s : State) (a : DWord) : List Place :=
  let h := s.fetchPlaces a 4
  if h.any fun p => !s.available false p then h
  else
    match s.codeWord a with
    | .ok w => s.fetchPlaces a (4 * (hdrLen w + 2))
    | .error _ => h

/-- A fetch that fails (R150). -/
def State.fetchFault (s : State) (x : Nat × DWord) : Out := s.trapAddr x.1 .fetch x.2

/-- Whether the wave's VI lets it run. -/
def State.running (s : State) : Bool :=
  match s.viAt s.wave.env.vi with
  | some v => decide (v.phase = .active) || decide (s.wave.arch.mode = .hypervisor)
  | none => false

/-- Bytes of one wave's vector block (R130). -/
def Env.vectorBlock (e : Env) : Nat := (e.wavew * e.nV * 4 + 1023) / 1024 * 1024

/-- Whether a wave stands between clauses and nothing else holds it. -/
def Wave.between (w : Wave) : Bool :=
  decide (w.status = .ready) && w.stop.isNone && w.pending.isNone && w.waitInv.isNone

/-- FETCH_FILL_COMPLETE (R44, R149, R150): the clause is in the store, as one snapshot. Poison that it holds is consumed (R467). -/
def execFetchFillComplete (r : WaveRef) (s : State) : Out :=
  s.onWave r fun s =>
    let a := s.wave.pos.pc
    if s.wave.between = false ∨ s.needsFill = false ∨ s.wave.fellX = true then s.skip
    else
      let ps := s.clausePlaces a
      if ps.any fun p => !s.available false p then .next (s.askAll ps)
      else
        match s.readClause a with
        | .error x => s.fetchFault x
        | .ok (h, ws) =>
          let c : StoredClause := { vi := s.wave.env.vi, grid := s.wave.env.grid, addr := a, header := h, words := ws }
          let t := { s with core := { s.core with istore := s.core.istore ++ [c] } }
          .next (if ps.any s.poisoned then t.soon (.op (.poisonConsumed s.wave.env.grid s.wave.env.reach)) else t)

/-! ## Starting a clause (R140, R141, R151, R152, R490) -/

/-- Whether a boundary trap of the wave is due, to be taken before its next clause (R430). -/
def Wave.boundaryDue (w : Wave) : Bool :=
  (!w.failures.isEmpty && decide (w.arch.mode ≠ .hypervisor)) || ((w.expiryDue || w.stepDue) && decide (w.arch.mode = .user))

/-- The flags that a clause waits for (R152). -/
def Wave.waits (w : Wave) (h : Word) : Bool := (List.range 12).any fun n => bitsN (hdrWait h) n n == 1 && w.flag n

/-- Whether a departure takes the place of the fetch (R150, R251). -/
def State.leaves (s : State) : Bool :=
  s.wave.env.ferry && decide (s.wave.arch.mode ≠ .hypervisor) && !s.wave.env.inSupervisor s.wave.pos.pc && !s.pinned s.wave.pos.pc

/-- Whether the wave looked at is ready for an issue slot (R140). -/
def State.mayStart (s : State) : Bool :=
  let w := s.wave
  w.between && !w.boundaryDue && decide (w.readySince ≤ s.now) && (w.fellX || !s.needsFill) &&
    s.running &&
    if w.fellX then true
    else if s.leaves then w.finishAll.ll.isEmpty
    else
      match s.clauseAt w.pos.pc with
      | .ok (h, _) => w.pos.mid || !w.waits h
      | .error _ => true

/-- Whether a wave of the core is ready for an issue slot. -/
def State.readyWave (s : State) (w : Wave) : Bool :=
  match s.focus ⟨w.core, w.slot⟩ with
  | some t => t.mayStart
  | none => false

/-- Whether wave a ranks before wave b for a slot (R141). -/
def Wave.ranks (a b : Wave) : Bool :=
  match a.boostedAt, b.boostedAt with
  | some x, some y => decide (x < y)
  | some _, none => true
  | none, some _ => false
  | none, none =>
    if a.lookoutOf.isSome ≠ b.lookoutOf.isSome then a.lookoutOf.isNone
    else decide (b.prio < a.prio) || (a.prio == b.prio && decide (a.age < b.age))

/-- Whether the core of the wave looked at has a free issue slot, and no ready wave ranks before it (R140, R141). -/
def State.chosenNext (s : State) : Bool :=
  let others := s.waves.filter fun x => x.core == s.wave.core
  decide ((others.filter fun x => decide (x.status = .inClause)).length < 2) &&
    !(others.any fun x => x.ranks s.wave && s.readyWave x)

/-- The bytes of vector registers of a core that its teams and its lookouts take. -/
def State.registersTaken (s : State) (core : Nat) : Nat :=
  (s.allWaves.filter fun x => x.core == core && x.lookoutOf.isSome).foldl (fun n x => n + x.env.vectorBlock) (s.coreAt core).vectorUsed

/-- Whether something has happened for which a lookout is to end at its next clause boundary (R146). -/
def State.endsLookout (s : State) (x : Wave) (p : Nat) : Bool :=
  decide (x.lookoutStart + 65536 ≤ s.coreTime x.core) ||
    match s.waveAt ⟨x.core, p⟩ with
    | none => true
    | some w =>
      let o := w.pos.pc.toNat
      !w.live || w.stop.isSome || w.pending.isSome || decide (w.arch.mode ≠ .user) ||
        !(decide (x.lookoutRange.1 ≤ o ∧ o < x.lookoutRange.2)) ||
        ((s.viAt w.env.vi).bind (·.preempt)).isSome || (s.coreAt x.core).slotsUsed.contains x.slot ||
        decide (2 ^ 20 < s.registersTaken x.core)

/-- The lookouts for which such a thing has happened are marked. -/
def State.markLookouts (s : State) : State :=
  s.mapWaves fun x =>
    match x.lookoutOf with
    | some p => if s.endsLookout x p then { x with lookoutOver := true } else x
    | none => x

/-- The lower of the issue slots of the core that no other wave holds (R140, R141). -/
def State.freeIssueSlot (s : State) : Nat :=
  if s.waves.any fun x => x.core == s.wave.core && decide (x.status = .inClause) && x.issueSlot == 0 then 1 else 0

/-- The clause read, its header good: it starts at the word where the wave stands (R151, R152, R490). An index that names no word
traps after the return has completed: no group is replayed (R490, log entry 35). -/
def State.startClause (s : State) (h : Word) (ws : List Word) : Out :=
  let p := s.wave.pos
  match s.wave.badResume with
  | some x =>
    if ws.length ≤ resumeIdx x ∨ (resumeMid x = false ∧ resumeIdx x ≠ 0) then
      ({ s with wave := { s.wave.setExm (s.wave.replay.getD s.wave.exm) with replay := none } } : State).trapCode 0x01
    else
      let r := s.resumeAt x p.skip
      .next { s with wave := { s.wave with pos := r.1, fellX := r.2, badResume := none } }
  | none =>
    if hdrLegal h = false then s.trapCode 0x02
    else
      .next { s with wave :=
        { s.wave with pos := { p with header := h, words := ws }, status := .inClause, hints := [], yielded := false, boostedAt := none,
                      issued := false, issueSlot := s.freeIssueSlot, entryDue := s.wave.entryDue || (hdrW h && !p.mid) } }

/-- CLAUSE_START (R140, R141, R150 to R152): the wave gets a slot for its next clause, departs, or traps. -/
def execClauseStart (r : WaveRef) (s : State) : Out :=
  s.onWave r fun s =>
    if s.wave.between = true ∧ s.wave.lookoutOver = true then .next { s with wave := s.wave.endLookout }
    else if s.mayStart = false ∨ s.chosenNext = false then s.skip
    else if s.wave.fellX then s.fetchFault (causeTranslation, s.wave.pos.pc)
    else if s.leaves then s.depart s.wave.pos.pc s.wave.group
    else
      match s.clauseAt s.wave.pos.pc with
      | .error x => s.fetchFault x
      | .ok (h, ws) => s.startClause h ws

/-- Since when a wave has been ready without a slot, as it stands now (R142). -/
def State.unservedNow (s : State) (w : Wave) : Option Nat :=
  match s.focus ⟨w.core, w.slot⟩ with
  | some t => if w.between ∧ t.mayStart = true then w.unserved.or (some t.now) else none
  | none => none

/-- Every wave that is ready counts on, every other stops counting (R142). -/
def State.countUnserved (s : State) : State := s.mapWaves fun w => { w with unserved := s.unservedNow w }

/-- WAVE_BOOST (R142): ready for 4,096 consecutive core cycles without a slot. -/
def execWaveBoost (r : WaveRef) (s : State) : Out :=
  s.onWave r fun s =>
    if s.mayStart = true ∧ s.wave.lookoutOf.isNone = true ∧ s.wave.boostedAt.isNone = true ∧
        (s.wave.unserved.any fun t => decide (t + 4096 ≤ s.now)) = true then
      .next { s with wave := { s.wave with boostedAt := some s.now } }
    else s.skip

/-! ## Lookouts (R144 to R146) -/

/-- The slice table of an image, as it can be read: entry n is four words (R42). -/
def State.sliceEntries (s : State) (e : Env) (x : Section) : Nat → Nat → List (Nat × Nat × Nat)
  | _, 0 => []
  | n, fuel + 1 =>
    if x.size < 16 * (n + 1) then []
    else
      match s.hubRead e (e.image + BitVec.ofNat 64 (x.off + 16 * n)) 16 with
      | none => []
      | some b => if b = 0 then [] else (b % 2 ^ 32, b / 2 ^ 32 % 2 ^ 32, b / 2 ^ 64 % 2 ^ 32) :: s.sliceEntries e x (n + 1) fuel

/-- The valid entries: not empty, and overlapping no earlier one; an empty range overlaps none (R42). -/
def validSlices : List (Nat × Nat × Nat) → List (Nat × Nat × Nat) → List (Nat × Nat × Nat)
  | _, [] => []
  | seen, x :: xs =>
    if x.1 < x.2.1 then
      if seen.any fun y => decide (x.1 < y.2.1 ∧ y.1 < x.2.1) then validSlices (x :: seen) xs else x :: validSlices (x :: seen) xs
    else validSlices seen xs

/-- The slice clause and the covered range, as addresses, for a program counter (R42, R144). -/
def State.sliceFor (s : State) (e : Env) (pc : DWord) : Option (DWord × Nat × Nat) :=
  match e.sections.find? Section.isLookout, e.sections.find? (·.kind == 1) with
  | some x, some c =>
    let base := e.image.toNat + c.off
    ((validSlices [] (s.sliceEntries e x 0 64)).find? fun y => decide (base + y.1 ≤ pc.toNat ∧ pc.toNat < base + y.2.1)).map
      fun y => (e.image + BitVec.ofNat 64 (x.off + y.2.2), base + y.1, base + y.2.1)
  | _, _ => none

/-- The lookouts that run on the core of the wave looked at. -/
def State.lookoutsHere (s : State) : List Wave := s.waves.filter fun x => x.core == s.wave.core && x.lookoutOf.isSome

/-- The slot that a lookout of the wave looked at would take, when there is room for it (R144): the lowest (log entry 110). -/
def State.lookoutSlot (s : State) : Option Nat :=
  let ls := s.lookoutsHere
  let bytes := ls.foldl (fun n x => n + x.env.vectorBlock) (s.core.vectorUsed + s.wave.env.vectorBlock)
  if 4 ≤ ls.length ∨ 2 ^ 20 < bytes then none
  else (List.range 32).find? fun i => !s.core.slotsUsed.contains i && !(ls.any (·.slot == i))

/-- LOOKOUT_START (R144): the wave has started a clause, none of whose words has issued. Lookouts rank among themselves by their
waves' ages (log entry 122). -/
def execLookoutStart (r : WaveRef) (s : State) : Out :=
  s.onWave r fun s =>
    let w := s.wave
    let fresh := decide (w.status = .inClause) && !w.pos.mid && w.pos.ridx == 0 && w.hints.isEmpty && !w.issued
    if fresh = false ∨ w.env.lookouts = false ∨ w.env.ferry = true ∨ w.lookoutOf.isSome = true ∨ w.arch.mode ≠ .user ∨
        (s.lookoutsHere.any (·.lookoutOf == some w.slot)) = true ∨ s.dispatches w.env.vi = false then s.skip
    else
      match s.sliceFor w.env w.pos.pc, s.lookoutSlot with
      | some (pc, lo, hi), some slot =>
        let a := { w.env.startArch w.arch.exm with vregs := w.arch.vregs, sregs := w.arch.sregs, preds := w.arch.preds, fpc := w.arch.fpc }
        let x := { Wave.start w.core slot w.env a pc .ready w.age s.now with
          lookoutOf := some w.slot, lookoutStart := s.now, lookoutRange := (lo, hi) }
        .next (s.putWave x)
      | _, _ => s.skip

/-- LOOKOUT_TIMEOUT (R146): a lookout that has run 65,536 core cycles ends at its next clause boundary. -/
def execLookoutTimeout (r : WaveRef) (s : State) : Out :=
  s.onWave r fun s =>
    if s.wave.lookoutOf.isSome = true ∧ s.wave.status = .ready ∧ s.wave.lookoutStart + 65536 ≤ s.now then
      .next { s with wave := s.wave.endLookout }
    else s.skip

/-! ## Completions (R154, R156) -/

/-- LONG_LATENCY_COMPLETE (R154): the instruction writes its last element. -/
def execLongLatencyComplete (r : WaveRef) (op : Nat) (s : State) : Out :=
  match s.waveAt r with
  | none => s.skip
  | some w =>
    if w.ll.any fun o => o.id == op && o.left == 0 then .next (s.putWave (w.finishLong op)) else s.skip

/-- Transfers, which stall only to depart (R252). -/
def State.retryTransfer (x : Word) (s : State) : Out :=
  match bitsN x.toNat 31 26 with
  | 2 =>
    match bitsN x.toNat 25 21 with
    | 0 => execBr (x.field 0 21) s
    | 1 => execCall (x.field 0 21) s
    | 2 => execRet (x.field 14 7) s
    | _ => execJmpr (x.field 14 7) s
  | 3 => if bitsN x.toNat 20 19 = 0 then execBrsNz (x.field 21 5) (x.field 0 19) s else execBrsZ (x.field 21 5) (x.field 0 19) s
  | 4 =>
    match bitsN x.toNat 20 19 with
    | 0 => execBrpAny (x.field 21 5) (x.field 0 19) s
    | 1 => execBrpAll (x.field 21 5) (x.field 0 19) s
    | _ => execBrpNone (x.field 21 5) (x.field 0 19) s
  | 5 => execBexz (x.field 5 21) s
  | _ => execFerry (x.field 12 7) s

/-- The terminal instruction at which a wave is stalled, executed again (R156). Only the words that can stall are named here. -/
def State.retry (x : Word) (s : State) : Out :=
  match bitsN x.toNat 31 26, bitsN x.toNat 25 21 with
  | 6, _ => execRett (x.field 0 1) s
  | 0x23, 0 => execWaitc (x.field 19 2) (x.field 0 6) s
  | 0x23, 1 => execTagwany (x.field 7 7) s
  | 0x23, 2 => execTagwall (x.field 7 7) s
  | 0x23, 3 => execTagffr (x.field 14 7) (x.field 7 7) s
  | 0x24, 0 => execFence (x.field 0 5) s
  | 0x24, 1 => execFenceTc s
  | 0x24, 2 => execBar (x.field 0 4) s
  | 0x24, 3 => execRbar (x.field 0 4) s
  | 0x25, _ => execRecv (x.field 19 7) (x.field 6 2) (x.field 0 6) s
  | 0x26, _ => execLwait (x.field 19 7) (x.field 12 7) s
  | _, _ => s.retryTransfer x

/-- TERMINAL_INSTRUCTION_COMPLETE (R32, R156): the condition holds, and the stalled instruction completes, while its VI runs. -/
def execTerminalInstructionComplete (r : WaveRef) (s : State) : Out :=
  s.onWave r fun s =>
    let w := s.wave
    if w.status ≠ .stalled ∨ w.stop.isSome = true ∨ w.pending.isSome = true then s.skip
    else if s.running = false then s.skip
    else
      match s.retry (w.pos.words.getD w.pos.ridx 0) with
      | .next t => if t.wave.status = .stalled ∧ t.wave.pos = w.pos ∧ t.wave.pending.isNone = true then s.skip else .next t
      | z => z

/-! ## Traps (R310, R428, R430, R439, R442) -/

/-- TRAP_ENTRY (R428, R489): the trap that a wave has met is entered, once its long-latency instructions have completed and its VI
runs. -/
def execTrapEntry (r : WaveRef) (s : State) : Out :=
  s.onWave r fun s =>
    let w := s.wave.finishAll
    match w.pending with
    | none => s.skip
    | some t =>
      if w.ll.isEmpty = false ∨ s.running = false then s.skip
      else .next (({ s with wave := { w with pending := none } } : State).enterTrap t)

/-- Whether a boundary trap may be taken now: at a clause boundary, a stalled terminal instruction included, with every long-latency
instruction complete and nothing that comes first under R430. -/
def State.atBoundary (s : State) : Bool :=
  let w := s.wave
  decide (w.status = .ready ∨ w.status = .stalled) && w.stop.isNone && w.pending.isNone && w.waitInv.isNone && w.lookoutOf.isNone &&
    w.finishAll.ll.isEmpty && !w.pos.skip && s.running

/-- A boundary trap is taken (R428, R430): its resume word names the point not yet reached. -/
def State.boundaryTrap (s : State) (code : Word) (w : Wave) : State :=
  ({ s with wave := w } : State).enterTrap { w.wholeTrap code none with boundary := true }

/-- The cause word of an engine failure (R425 code 0x12); an operation that is not counted gives an open counter. -/
def EngineFailure.cause (f : EngineFailure) (open_ : DWord) : Word :=
  BitVec.ofNat 32 (0x12 + statusCode f.status * 2 ^ 8 + (f.counter.getD (bitsN open_.toNat 1 0)) * 2 ^ 16 + f.stream * 2 ^ 18)

/-- ENGINE_FAILURE_TRAP (R310, R430). -/
def execEngineFailureTrap (r : WaveRef) (s : State) : Out :=
  s.onWave r fun s =>
    match s.wave.failures with
    | [] => s.skip
    | f :: fs =>
      if s.atBoundary = false ∨ s.wave.arch.mode = .hypervisor then s.skip
      else
        let o := s.openValue
        let w := s.wave.finishAll
        let es := w.entries.map fun e => { e with taken := e.taken ++ [f] }
        .next (o.2.boundaryTrap (f.cause o.1) { w with failures := fs, entries := es })

/-- Whether the watchdog of a wave counts (R32, R439). -/
def State.watched (s : State) (w : Wave) : Bool :=
  decide (w.arch.wdog ≠ 0 ∧ w.arch.mode = .user) && w.live && w.stop.isNone &&
    match s.viAt w.env.vi with
    | some v => decide (v.phase = .active)
    | none => false

/-- The count reaches zero (R439). -/
def Wave.expire (w : Wave) : Wave := { w with expiryDue := true, arch := { w.arch with wdog := 0 } }

/-- WATCHDOG_EXPIRY (R439): the last cycle of the count. -/
def execWatchdogExpiry (r : WaveRef) (s : State) : Out :=
  match s.waveAt r with
  | none => s.skip
  | some w => if w.arch.wdog = 1 ∧ s.watched w = true then .next (s.putWave w.expire) else s.skip

/-- The count of a watchdog handler begins; a budget of zero freezes the VI at the entry (R440). -/
def State.startBudget (s : State) : State :=
  match s.wave.svStart, s.viAt s.wave.env.vi with
  | some _, some v => if v.desc.svBudget = 0 then ({ s with wave := { s.wave with svStart := none } } : State).freeze v.vi 3 else s
  | _, _ => s

/-- WATCHDOG_TRAP (R430, R439, R440). -/
def execWatchdogTrap (r : WaveRef) (s : State) : Out :=
  s.onWave r fun s =>
    if s.wave.expiryDue = false ∨ s.atBoundary = false ∨ s.wave.arch.mode ≠ .user ∨ s.wave.failures.isEmpty = false then
      s.skip
    else .next (s.boundaryTrap 0x28 { s.wave.finishAll with expiryDue := false }).startBudget

/-- Whether a single-step trap may be taken now: after a group, within a clause or at its end. -/
def State.atGroup (s : State) : Bool :=
  let w := s.wave
  if w.status = .inClause then
    w.hints.isEmpty && !w.issued && w.stop.isNone && w.pending.isNone && w.waitInv.isNone && w.finishAll.ll.isEmpty && s.running
  else s.atBoundary && w.failures.isEmpty && !w.expiryDue

/-- SINGLE_STEP_TRAP (R430, R442). -/
def execSingleStepTrap (r : WaveRef) (s : State) : Out :=
  s.onWave r fun s =>
    if s.wave.stepDue = false ∨ s.atGroup = false ∨ s.wave.arch.mode ≠ .user ∨ s.wave.lookoutOf.isSome = true then
      s.skip
    else .next (s.boundaryTrap 0x39 { s.wave.finishAll with stepDue := false })

/-- ILLEGAL_INSTRUCTION (R160, R171, R243): a word that is assigned to nothing. A matrix opcode first meets the check of convergence. -/
def execIllegalInstruction (x : Word) (s : State) : Out :=
  if (bitsN x.toNat 31 26 = 0x27 ∨ bitsN x.toNat 31 26 = 0x28) ∧ s.wave.full = false then s.trapCode 0x03 else s.trapCode 0x01

/-! ## The end of a wave (R241, R310, R455) -/

/-- Waves of a team that have all exited, with no lane left in its bins, free their slots and registers (R115, R477). -/
def State.freeRegisters (s : State) (grid team : Nat) : State :=
  let done := (s.allWaves.all fun w => !w.ofTeam grid team || decide (w.status = .exited ∨ w.status = .absent)) &&
    (s.core :: s.cores).all fun c => c.bins.all fun b => !(b.grid == grid && b.team == team) || b.lanes.isEmpty
  let ferry := match s.gridAt grid with
    | some g => g.record.ferry
    | none => false
  if done && !ferry then
    s.mapCores fun c => { c with residents := c.residents.map fun r =>
      if r.grid = grid ∧ r.team = team then { r with regsFreed := true } else r }
  else s

/-- The wave in a slot ends: its operations run on without it, failures that it has not been told are its team's (R241, R310). -/
def State.endNow (s : State) (r : WaveRef) : State :=
  match s.waveAt r with
  | none => s
  | some w =>
    let mine (o : AsyncOp) : Bool := o.core == r.core && o.slot == r.slot && !o.orphan
    let ops := (s.ops.filter fun o => !(mine o && o.ended)).map fun o => if mine o then { o with orphan := true } else o
    let x := { w with status := .exited, ll := [], hints := [], entries := [], arrival := none, failures := [], batches := [],
                      openBatch := .empty, expiryDue := false, stepDue := false, svStart := none }
    let s := w.failures.foldl (fun s f => s.chargeGrid w.env.grid (statusCode f.status)) (({ s with ops := ops } : State).putWave x)
    s.freeRegisters w.env.grid w.env.team

/-- The held exit of a slot. -/
def Held.isExit (h : Held) (slot : Nat) : Bool := h.slot == slot && decide (h.kind = .exit)

/-- EXIT_TAKES_EFFECT (R455): 64 core cycles after it issued, with nothing held before it (R456). -/
def execExitTakesEffect (r : WaveRef) (s : State) : Out :=
  let c := s.coreAt r.core
  match c.held.head? with
  | none => s.skip
  | some h =>
    if h.isExit r.slot = true ∧ c.ripe (s.coreTime r.core) h.at_ = true then
      .next ((s.setCore { c with held := c.held.filter fun x => !x.isExit r.slot }).endNow r)
    else s.skip

end Sys2Proof.Machine
end

