-- ==== Sys2Proof/Machine/Ferry.lean ====
section
/-!
DEFINITION. Travellers between cores (R256 to R263), landing queues (R259), and hot-segment replication (R266).
-/
namespace Sys2Proof.Machine

/-! ## Flits (R256, R262) -/

/-- The two flits of a traveller as an overflow slot holds them. -/
def Traveller.flits (t : Traveller) : List Byte :=
  let regs := (t.regs.map (·.2)).flatMap fun x => bytesOf 4 x.toNat
  let n := if t.regs.length ≤ 12 then 1 else 2
  let head := bytesOf 4 t.entry ++ bytesOf 2 t.lmask.toNat ++ bytesOf 1 (t.lbase + if t.spawn then 128 else 0) ++ bytesOf 1 t.seg ++
    bytesOf 2 t.preds.toNat ++ bytesOf 2 t.src ++ bytesOf 2 t.team ++ bytesOf 1 n ++ bytesOf 1 0
  (head ++ regs ++ List.replicate 128 0).take 128

/-- The traveller that an overflow slot holds, for a grid. -/
def travellerOf (grid : Nat) (bs : List Byte) : Traveller :=
  let mask := fieldAt bs 4 2
  let base := fieldAt bs 6 1 % 128
  { grid := grid, slot := 0, entry := fieldAt bs 0 4, lmask := BitVec.ofNat 16 mask, lbase := base, spawn := decide (128 ≤ fieldAt bs 6 1),
    seg := fieldAt bs 7 1, preds := BitVec.ofNat 12 (fieldAt bs 8 2), src := fieldAt bs 10 2 % 512, team := fieldAt bs 12 2,
    regs := (liveRegs base mask).zipIdx.map fun r => (r.1, BitVec.ofNat 32 (fieldAt bs (16 + 4 * r.2) 4)), offerAt := 0, departAt := 0 }

/-- The Env under which the ferry network reaches a grid's overflow areas. -/
def State.ferryEnv (s : State) (g : Grid) : Env :=
  let v := (s.viAt g.vi).map Vi.hubEnv
  { v.getD .idle with grid := g.id, ovfBase := g.record.ovfBase.toNat, ovfSize := g.record.ovfSize, teams := g.record.teams }

/-- A traveller written to the overflow area of its team, at the slot that `OWRITE` names (R262). -/
def State.writeOverflow (s : State) (e : Env) (t : Traveller) : State :=
  let a := e.overflowArea t.team
  match s.hubRead e a 8 with
  | none => s
  | some n =>
    match s.hubWrite e (a + BitVec.ofNat 64 (64 + 128 * (n % e.overflowRoom))) t.flits with
    | none => s
    | some s => (s.hubWrite e a (bytesOf 8 (n + 1))).getD s

/-! ## Leaving (R257, R258, R261) -/

/-- Whether an earlier traveller of a buffer is bound for the same landing queue. -/
def queuedBefore (ts : List Traveller) (grid team : Nat) : Bool := ts.any fun x => x.grid == grid && x.team == team && x.offerAt != 0

/-- The core cycle in which a traveller's departure, or the SPAWN that made it, issued. -/
def Traveller.made (t : Traveller) : Nat := t.departAt - Config.quarantine

/-- Whether a traveller has left the quarantine, and everything that its core made no later than it has been released (R124, R254, R255). -/
def Core.lets (c : Core) (now : Nat) (t : Traveller) : Bool :=
  c.ripe now t.made && c.held.all fun h => decide (t.made < h.at_)

/-- The ring message that carries a traveller between sectors (R256, R257, R415): header and its one or two flits. -/
def Traveller.msg (t : Traveller) (vi dst : Nat) : RingMsg :=
  let n := if t.regs.length ≤ 12 then 1 else 2
  { cls := 5, hi := false, escape := false, flits := n, dst := chanStop dst, ccw := ringCcw 0 (chanStop t.src) (chanStop dst),
    org := chanStop t.src, vi := vi, dep := chanEp dst, sep := chanEp t.src, dch := 0, sch := 0, seq := t.tag,
    payload := t.flits.take (64 * n) }

/-- A traveller enters the network: the sector's crossbar, or the ring (R257). -/
def State.launchTraveller (s : State) (t : Traveller) (vi dst : Nat) : State :=
  let t := { t with tag := s.ids }
  let u : State := { s with ids := s.ids + 1, net := s.net ++ [t] }
  if chanStop dst = chanStop t.src then u else u.toRing (t.msg vi dst)

/-- The team to which a traveller would go now (R258), and the core of that team, unless an earlier traveller that was rejected waits for the
same queue (R261). -/
def State.sendTo (s : State) (c : Core) (n : Nat) (t : Traveller) : Option (Grid × Nat × Nat) :=
  (s.gridAt t.grid).bind fun g => (s.landingTeam g t.seg).bind fun j => (g.coreOf j).bind fun k =>
    if queuedBefore (c.departure.take n) t.grid j = true ∨ s.viRuns g.vi = false then none else some (g, j, k)

/-- Traveller `n` of a core's departure buffer goes onto the network, to the team now chosen (R258); one a core cycle (R257). -/
def State.sendTraveller (s : State) (c : Core) (n : Nat) (t : Traveller) : Out :=
  match s.sendTo c n t with
  | none => s.skip
  | some (g, j, k) =>
    if s.coreTime c.id < c.leftAt then s.skip
    else
      let d := { c with departure := c.departure.eraseIdx n, leftAt := s.coreTime c.id + 1 }
      .next ((s.setCore d).launchTraveller { t with team := j, offerAt := 0 } g.vi k)

/-- TRAVELLER_DEPART (R255, R257, R261): the first traveller of the buffer that has not been rejected and is held back by none that has. -/
def execTravellerDepart (core : Nat) (s : State) : Out :=
  let c := s.coreAt core
  match c.departure.zipIdx.find? fun x => x.1.offerAt == 0 && (s.sendTo c x.2 x.1).isSome with
  | none => s.skip
  | some (t, n) => if c.lets (s.coreTime core) t then s.sendTraveller c n t else s.skip

/-- TRAVELLER_REOFFER (R261): 64 uncore cycles after its rejection. -/
def execTravellerReoffer (core n : Nat) (s : State) : Out :=
  let c := s.coreAt core
  match c.departure[n]? with
  | none => s.skip
  | some t => if t.offerAt ≠ 0 ∧ t.offerAt ≤ s.uncore then s.sendTraveller c n t else s.skip

/-! ## Landing (R259) -/

/-- Whether the overflow area of a team is empty. -/
def State.overflowEmpty (s : State) (g : Grid) (team : Nat) : Bool :=
  match s.overflowCount (s.ferryEnv g) team with
  | some n => n == 0
  | none => true

/-- Whether a traveller on the network has reached the core `dst`: across the crossbar of its sector, or off the ring (R257). -/
def State.landed (s : State) (t : Traveller) (dst : Nat) : Bool :=
  chanStop dst == chanStop t.src || s.ring.ejected.any fun m => m.cls == 5 && m.seq == t.tag

/-- TRAVELLER_ARRIVAL (R257, R259, R261): accepted, or back in its buffer. -/
def execTravellerArrival (n : Nat) (s : State) : Out :=
  match s.net[n]? with
  | none => s.skip
  | some t =>
    match (s.gridAt t.grid).bind fun g => (g.coreOf t.team).map fun c => (g, c) with
    | none => s.skip
    | some (g, k) =>
      if s.landed t k = false ∨ ((s.net.take n).any fun x => x.src == t.src && x.grid == t.grid && x.team == t.team) = true then s.skip
      else
        let s1 : State := { s with net := s.net.eraseIdx n, ring := s.ring.without (· == t.tag) }
        let c := s1.coreAt k
        if c.landing.length < 2048 ∧ s.overflowEmpty g t.team = true then .next (s1.setCore { c with landing := c.landing ++ [t] })
        else
          let d := s1.coreAt t.src
          .next (s1.setCore { d with departure := { t with offerAt := s.uncore + 64 } :: d.departure })

/-- The ferry-mode grid whose team a core holds, with the team. -/
def State.ferryTeam (s : State) (c : Core) : Option (Grid × Nat) :=
  c.residents.findSome? fun r =>
    match s.gridAt r.grid with
    | some g => if g.record.ferry then some (g, r.team) else none
    | none => none

/-- OVERFLOW_TAKE (R259, R262): the next traveller of the area, in the order in which they were written. -/
def execOverflowTake (core : Nat) (s : State) : Out :=
  let c := s.coreAt core
  match s.ferryTeam c with
  | none => s.skip
  | some (g, team) =>
    let e := s.ferryEnv g
    let a := e.overflowArea team
    match s.hubRead e a 8, s.hubRead e (a + 8) 8 with
    | some w, some r =>
      if w = r ∨ 2048 ≤ c.landing.length ∨ s.viRuns g.vi = false then s.skip
      else
        match s.hubRead e (a + BitVec.ofNat 64 (64 + 128 * (r % e.overflowRoom))) 128, s.hubWrite e (a + 8) (bytesOf 8 (r + 1)) with
        | some x, some s => .next (s.setCore { c with landing := c.landing ++ [travellerOf g.id (bytesOf 128 x)] })
        | _, _ => s.skip
    | _, _ => s.skip

/-- LANDING_QUEUE_ADVANCE (R117, R259): the head of the queue enters its bin. -/
def execLandingQueueAdvance (core : Nat) (s : State) : Out :=
  let c := s.coreAt core
  match c.landing with
  | [] => s.skip
  | t :: ts =>
    match s.gridAt t.grid with
    | none => s.skip
    | some g =>
      match c.enterBin t.grid t.team t.entry g.record.width { regs := t.regs, preds := t.preds, held := false } with
      | some (d, _) => if s.viRuns g.vi then .next (s.setCore { d with landing := ts }) else s.skip
      | none => s.skip

/-- LANDING_OCCUPANCY_SAMPLE (R258). -/
def execLandingOccupancySample (core : Nat) (s : State) : Out :=
  let c := s.coreAt core
  .next (s.setCore { c with occSample := c.landing.length, occAt := s.uncore })

/-! ## Replication (R266) -/

/-- Whether every holder of a segment has at least the threshold of travellers in its landing queue. -/
def State.hot (s : State) (g : Grid) (m : SegmentMap) (x : SegmentEntry) : Bool :=
  decide (m.high ≠ 0) && x.holders.all fun t =>
    match g.coreOf t with
    | some c => decide (m.high ≤ (s.coreAt c).landing.length)
    | none => false

/-- The segments of the ferry-mode grids watched: since when each has been hot. -/
def State.watchSegments (s : State) : State :=
  { s with grids := s.grids.map fun g =>
      match g.map with
      | none => g
      | some m =>
        let mark (x : SegmentEntry) : SegmentEntry :=
          { x with hotSince := if s.hot g m x then x.hotSince.or (some (s.coreTime ((g.coreOf x.primary).getD 0))) else none }
        { g with map := some { m with segs := m.segs.map mark } } }

/-- The map and a segment's entry of a grid. -/
def State.segment (s : State) (grid seg : Nat) : Option (Grid × SegmentMap × SegmentEntry) :=
  (s.gridAt grid).bind fun g => g.map.bind fun m => (m.entry seg).map fun x => (g, m, x)

/-- An entry of a segment put back in the live copy. -/
def State.setSegment (s : State) (g : Grid) (m : SegmentMap) (x : SegmentEntry) : State :=
  s.setGrid { g with map := some { m with segs := m.segs.map fun y => if y.seg = x.seg then x else y } }

/-- SEGMENT_REPLICATION (R266): the first unused spare begins to load the segment. -/
def execSegmentReplication (grid seg : Nat) (s : State) : Out :=
  match s.segment grid seg with
  | none => s.skip
  | some (g, m, x) =>
    match m.spare, x.hotSince with
    | t :: ts, some since =>
      if s.hot g m x = true ∧ since + m.dwell * 1024 ≤ s.coreTime ((g.coreOf x.primary).getD 0) ∧ x.replicas.length < 3 ∧ x.loading.isNone = true ∧
          s.viRuns g.vi = true then
        .next (s.setSegment g { m with spare := ts } { x with loading := some t })
      else s.skip
    | _, _ => s.skip

/-- A core entered as the next free replica of a segment (R266). -/
def SegmentEntry.addReplica (x : SegmentEntry) (t : Nat) : SegmentEntry :=
  let k := ([1, 2, 3].find? fun k => !x.spots.contains k).getD 4
  let n := (x.spots.filter (· < k)).length
  { x with replicas := x.replicas.take n ++ t :: x.replicas.drop n, spots := x.spots.take n ++ k :: x.spots.drop n }

/-- REPLICA_LOAD_COMPLETE (R266): the spare holds the segment and receives landings from now on. -/
def execReplicaLoadComplete (grid seg : Nat) (s : State) : Out :=
  match s.segment grid seg with
  | none => s.skip
  | some (g, m, x) =>
    match x.loading, s.viAt g.vi with
    | some t, some v =>
      if s.viRuns g.vi = false then s.skip
      else
      match s.segmentBytes v g seg, g.coreOf t with
      | .ok bs, some c =>
        .next ((s.setCore ((s.coreAt c).loadSegment seg bs)).setSegment g m
          { x.addReplica t with loading := none, hotSince := none })
      | .error (.wait ps), _ => .next (s.askPlaces false ps)
      | _, _ => s.skip
    | _, _ => s.skip

end Sys2Proof.Machine
end

