-- ==== Sys2Proof/Machine/RiscV.lean ====
section
/-!
DEFINITION. The RV32IMC instructions that a keeper runs besides its own (R287): decoding of 32-bit and compressed words, and
the arithmetic. Taken from the RISC-V standard that R287 names (log entry 27).
-/
namespace Sys2Proof.Machine

/-- The arithmetic of RV32I and M. -/
inductive RvAlu where
  | add | sub | sll | slt | sltu | xor | srl | sra | or | and
  | mul | mulh | mulhsu | mulhu | div | divu | rem | remu
  deriving DecidableEq, Repr

/-- Branch conditions. -/
inductive RvCond where
  | eq | ne | lt | ge | ltu | geu
  deriving DecidableEq, Repr

/-- A base instruction with its operands; offsets are signed byte distances. -/
inductive RvInstr where
  | lui (rd : Nat) (x : Word)
  | auipc (rd : Nat) (x : Word)
  | jal (rd : Nat) (o : Int)
  | jalr (rd rs1 : Nat) (o : Int)
  | branch (c : RvCond) (rs1 rs2 : Nat) (o : Int)
  | load (size : Nat) (signed : Bool) (rd rs1 : Nat) (o : Int)
  | store (size : Nat) (rs1 rs2 : Nat) (o : Int)
  | aluImm (f : RvAlu) (rd rs1 : Nat) (x : Word)
  | alu (f : RvAlu) (rd rs1 rs2 : Nat)
  | fence
  deriving DecidableEq, Repr

/-- The arithmetic on two words; division by zero and overflow as the standard gives them. -/
def RvAlu.eval (f : RvAlu) (a b : Word) : Word :=
  match f with
  | .add => a + b
  | .sub => a - b
  | .sll => a <<< (b.toNat % 32)
  | .slt => if a.toInt < b.toInt then 1 else 0
  | .sltu => if a.toNat < b.toNat then 1 else 0
  | .xor => a ^^^ b
  | .srl => a >>> (b.toNat % 32)
  | .sra => a.sshiftRight (b.toNat % 32)
  | .or => a ||| b
  | .and => a &&& b
  | .mul => a * b
  | .mulh => BitVec.ofInt 32 (a.toInt * b.toInt / 2 ^ 32)
  | .mulhsu => BitVec.ofInt 32 (a.toInt * (b.toNat : Int) / 2 ^ 32)
  | .mulhu => BitVec.ofNat 32 (a.toNat * b.toNat / 2 ^ 32)
  | .div => if b = 0 then 0xFFFFFFFF else BitVec.ofInt 32 (a.toInt.tdiv b.toInt)
  | .divu => if b = 0 then 0xFFFFFFFF else BitVec.ofNat 32 (a.toNat / b.toNat)
  | .rem => if b = 0 then a else BitVec.ofInt 32 (a.toInt.tmod b.toInt)
  | .remu => if b = 0 then a else BitVec.ofNat 32 (a.toNat % b.toNat)

def RvCond.holds (c : RvCond) (a b : Word) : Bool :=
  match c with
  | .eq => a == b
  | .ne => a != b
  | .lt => decide (a.toInt < b.toInt)
  | .ge => decide (b.toInt ≤ a.toInt)
  | .ltu => decide (a.toNat < b.toNat)
  | .geu => decide (b.toNat ≤ a.toNat)

/-- The operation of funct3 and of bit 30 for register and immediate forms. -/
def rvAlu (f3 : Nat) (alt : Bool) : RvAlu :=
  match f3 with
  | 0 => if alt then .sub else .add
  | 1 => .sll
  | 2 => .slt
  | 3 => .sltu
  | 4 => .xor
  | 5 => if alt then .sra else .srl
  | 6 => .or
  | _ => .and

/-- The M operation of funct3. -/
def rvMul (f3 : Nat) : RvAlu :=
  match f3 with
  | 0 => .mul
  | 1 => .mulh
  | 2 => .mulhsu
  | 3 => .mulhu
  | 4 => .div
  | 5 => .divu
  | 6 => .rem
  | _ => .remu

def rvCond (f3 : Nat) : Option RvCond :=
  match f3 with
  | 0 => some .eq
  | 1 => some .ne
  | 4 => some .lt
  | 5 => some .ge
  | 6 => some .ltu
  | 7 => some .geu
  | _ => none

/-- A sign-extended immediate as a word. -/
def rvImm (n x : Nat) : Word := BitVec.ofInt 32 (sextN n x)

/-- A 32-bit base instruction. ECALL, EBREAK and every other SYSTEM encoding have no environment here: none. -/
def rvDecode32 (w : Nat) : Option RvInstr :=
  let rd := bitsN w 11 7
  let f3 := bitsN w 14 12
  let rs1 := bitsN w 19 15
  let rs2 := bitsN w 24 20
  let f7 := bitsN w 31 25
  match w % 128 with
  | 0x37 => some (.lui rd (BitVec.ofNat 32 (w / 4096 * 4096)))
  | 0x17 => some (.auipc rd (BitVec.ofNat 32 (w / 4096 * 4096)))
  | 0x6F =>
    some (.jal rd (sextN 21 (bitsN w 31 31 * 2 ^ 20 + bitsN w 19 12 * 2 ^ 12 + bitsN w 20 20 * 2 ^ 11 + bitsN w 30 21 * 2)))
  | 0x67 => if f3 = 0 then some (.jalr rd rs1 (sextN 12 (bitsN w 31 20))) else none
  | 0x63 =>
    (rvCond f3).map fun c =>
      .branch c rs1 rs2 (sextN 13 (bitsN w 31 31 * 2 ^ 12 + bitsN w 7 7 * 2 ^ 11 + bitsN w 30 25 * 2 ^ 5 + bitsN w 11 8 * 2))
  | 0x03 =>
    let o := sextN 12 (bitsN w 31 20)
    match f3 with
    | 0 => some (.load 1 true rd rs1 o)
    | 1 => some (.load 2 true rd rs1 o)
    | 2 => some (.load 4 true rd rs1 o)
    | 4 => some (.load 1 false rd rs1 o)
    | 5 => some (.load 2 false rd rs1 o)
    | _ => none
  | 0x23 => if f3 ≤ 2 then some (.store (2 ^ f3) rs1 rs2 (sextN 12 (f7 * 32 + rd))) else none
  | 0x13 =>
    match f3 with
    | 1 => if f7 = 0 then some (.aluImm .sll rd rs1 (BitVec.ofNat 32 rs2)) else none
    | 5 =>
      if f7 = 0 then some (.aluImm .srl rd rs1 (BitVec.ofNat 32 rs2))
      else if f7 = 32 then some (.aluImm .sra rd rs1 (BitVec.ofNat 32 rs2))
      else none
    | _ => some (.aluImm (rvAlu f3 false) rd rs1 (rvImm 12 (bitsN w 31 20)))
  | 0x33 =>
    if f7 = 0 then some (.alu (rvAlu f3 false) rd rs1 rs2)
    else if f7 = 32 ∧ (f3 = 0 ∨ f3 = 5) then some (.alu (rvAlu f3 true) rd rs1 rs2)
    else if f7 = 1 then some (.alu (rvMul f3) rd rs1 rs2)
    else none
  | 0x0F => if f3 = 0 then some .fence else none
  | _ => none

/-- Quadrant 0 of the compressed instructions. -/
def rvDecodeC0 (w : Nat) : Option RvInstr :=
  let rs1 := 8 + bitsN w 9 7
  let rd := 8 + bitsN w 4 2
  let o : Int := ((bitsN w 12 10 * 8 + bitsN w 6 6 * 4 + bitsN w 5 5 * 64 : Nat) : Int)
  match bitsN w 15 13 with
  | 0 =>
    let x := bitsN w 12 11 * 16 + bitsN w 10 7 * 64 + bitsN w 6 6 * 4 + bitsN w 5 5 * 8
    if x = 0 then none else some (.aluImm .add rd 2 (BitVec.ofNat 32 x))
  | 2 => some (.load 4 true rd rs1 o)
  | 6 => some (.store 4 rs1 rd o)
  | _ => none

/-- The jump distance of C.J and C.JAL, and that of C.BEQZ and C.BNEZ. -/
def rvJumpC (w : Nat) : Int :=
  sextN 12 (bitsN w 12 12 * 2 ^ 11 + bitsN w 11 11 * 16 + bitsN w 10 9 * 256 + bitsN w 8 8 * 1024 + bitsN w 7 7 * 64 +
    bitsN w 6 6 * 128 + bitsN w 5 3 * 2 + bitsN w 2 2 * 32)
def rvBranchC (w : Nat) : Int :=
  sextN 9 (bitsN w 12 12 * 256 + bitsN w 11 10 * 8 + bitsN w 6 5 * 64 + bitsN w 4 3 * 2 + bitsN w 2 2 * 32)

/-- Quadrant 1. -/
def rvDecodeC1 (w : Nat) : Option RvInstr :=
  let rd := bitsN w 11 7
  let rc := 8 + bitsN w 9 7
  let r2 := 8 + bitsN w 4 2
  let i6 := bitsN w 12 12 * 32 + bitsN w 6 2
  match bitsN w 15 13 with
  | 0 => some (.aluImm .add rd rd (rvImm 6 i6))
  | 1 => some (.jal 1 (rvJumpC w))
  | 2 => some (.aluImm .add rd 0 (rvImm 6 i6))
  | 3 =>
    if rd = 2 then
      let x := bitsN w 12 12 * 512 + bitsN w 6 6 * 16 + bitsN w 5 5 * 64 + bitsN w 4 3 * 128 + bitsN w 2 2 * 32
      if x = 0 then none else some (.aluImm .add 2 2 (rvImm 10 x))
    else if i6 = 0 then none
    else some (.lui rd (rvImm 6 i6 <<< 12))
  | 4 =>
    match bitsN w 11 10 with
    | 0 => if bitsN w 12 12 = 0 then some (.aluImm .srl rc rc (BitVec.ofNat 32 (bitsN w 6 2))) else none
    | 1 => if bitsN w 12 12 = 0 then some (.aluImm .sra rc rc (BitVec.ofNat 32 (bitsN w 6 2))) else none
    | 2 => some (.aluImm .and rc rc (rvImm 6 i6))
    | _ =>
      if bitsN w 12 12 = 1 then none
      else
        match bitsN w 6 5 with
        | 0 => some (.alu .sub rc rc r2)
        | 1 => some (.alu .xor rc rc r2)
        | 2 => some (.alu .or rc rc r2)
        | _ => some (.alu .and rc rc r2)
  | 5 => some (.jal 0 (rvJumpC w))
  | 6 => some (.branch .eq rc 0 (rvBranchC w))
  | _ => some (.branch .ne rc 0 (rvBranchC w))

/-- Quadrant 2. -/
def rvDecodeC2 (w : Nat) : Option RvInstr :=
  let rd := bitsN w 11 7
  let r2 := bitsN w 6 2
  match bitsN w 15 13 with
  | 0 => if bitsN w 12 12 = 0 then some (.aluImm .sll rd rd (BitVec.ofNat 32 r2)) else none
  | 2 =>
    let o : Int := ((bitsN w 12 12 * 32 + bitsN w 6 4 * 4 + bitsN w 3 2 * 64 : Nat) : Int)
    if rd = 0 then none else some (.load 4 true rd 2 o)
  | 4 =>
    if bitsN w 12 12 = 0 then
      if r2 = 0 then (if rd = 0 then none else some (.jalr 0 rd 0)) else some (.alu .add rd 0 r2)
    else if r2 = 0 then (if rd = 0 then none else some (.jalr 1 rd 0))
    else some (.alu .add rd rd r2)
  | 6 =>
    let o : Int := ((bitsN w 12 9 * 4 + bitsN w 8 7 * 64 : Nat) : Int)
    some (.store 4 2 r2 o)
  | _ => none

/-- A base instruction from a word whose low half stands first, with its length in bytes. -/
def rvDecode (w : Word) : Option RvInstr :=
  let n := w.toNat
  match n % 4 with
  | 0 => rvDecodeC0 (n % 2 ^ 16)
  | 1 => rvDecodeC1 (n % 2 ^ 16)
  | 2 => rvDecodeC2 (n % 2 ^ 16)
  | _ => rvDecode32 n

/-- The length of an instruction, from its lowest bits. -/
def rvLength (w : Word) : Nat := if w.toNat % 4 = 3 then 4 else 2

end Sys2Proof.Machine
end

