-- ==== Sys2Proof/Machine/Keeper.lean ====
section
/-!
DEFINITION. Active messages and keepers (R272, R286 to R289, R325 to R327, R465).
-/
namespace Sys2Proof.Machine

/-! ## AMSG (R325) -/

/-- The target of a message: space decoding, the spaces of R292, translation (R293). -/
def State.messageTarget (s : State) (a : DWord) : Except Nat Nat :=
  if s.undecodable s.wave.env a then .error causeTranslation
  else if spaceOf a < 2 then .error causePermission
  else
    match s.reach .read 0 a 1 with
    | .error c => .error c
    | .ok ps =>
      match ps with
      | [.mem k] => .ok k
      | _ => .error causePermission

/-- AMSG (R325). -/
def execAmsg (d a : BitVec 7) (hd : BitVec 6) (s : State) : Out :=
  s.group { stream := true, vs := [d.toNat, d.toNat + 1], ss := [a.toNat], lookout := false } fun h =>
    let w := s.wave
    let target := w.s a.toNat
    if d.toNat % 2 = 1 then s.trapCode 0x01
    else
      match s.messageTarget target with
      | .error c => s.trapAddr c .read target
      | .ok key =>
        if w.counterFull (some 0) then s.wait
        else
          let payload := (List.range 16).flatMap fun l => bytesOf 4 (w.v d.toNat l).toNat
          let o := s.newOp (.amsg hd.toNat payload d.toNat) (some 0) (h.stream.getD 0) none (BitVec.ofNat 64 key) target 0
          (s.startOp { o with pages := s.rangePages target 1 }).doneEnd

/-! ## Keepers -/

def State.keeperAt (s : State) (slice : Nat) : Keeper :=
  if s.keeper.slice = slice then s.keeper else (s.keepers.find? (·.slice == slice)).getD (.idle slice)

def State.setKeeper (s : State) (k : Keeper) : State :=
  if s.keeper.slice = k.slice then { s with keeper := k }
  else if s.keepers.any (·.slice == k.slice) then
    { s with keepers := s.keepers.map fun x => if x.slice = k.slice then k else x }
  else { s with keepers := s.keepers ++ [k] }

/-- The keeper of a slice becomes the one looked at. -/
def State.focusKeeper (s : State) (slice : Nat) : State :=
  if s.keeper.slice = slice then s
  else { s with keeper := s.keeperAt slice, keepers := s.keeper :: s.keepers.filter (·.slice != slice) }

/-- The ring stop of a slice (R15, R272). -/
def sliceStop (slice : Nat) : Nat := 4 * (slice / 48) + slice / 16 % 3

/-- A keeper's message, or its reply, between two stops of the ring (R274, R415): the number of the operation tells them apart. -/
def keeperFlits (vi op src dst : Nat) (payload : List Byte) : RingMsg :=
  { cls := 3, hi := false, escape := false, flits := (payload.length + 63) / 64, dst := dst, ccw := ringCcw 0 src dst, org := src, vi := vi,
    dep := 0, sep := 0, dch := 0, sch := 0, seq := op, payload := payload }

/-- A message or reply sent on its way: within one sector it crosses the crossbar. -/
def State.carry (s : State) (vi op src dst : Nat) (payload : List Byte) : State :=
  if src = dst then s else s.toRing (keeperFlits vi op src dst payload)

/-- Whether the message or reply of an operation has reached a stop: it is on its way no longer. -/
def Ring.reached (r : Ring) (op dst : Nat) : Bool :=
  let it (m : RingMsg) : Bool := m.cls == 3 && m.seq == op && m.dst == dst
  !(r.onRing.any fun p => it p.msg) && !(r.waiting.any fun x => it x.2.2)

/-- A message or reply taken up from a stop. -/
def Ring.taken (r : Ring) (op dst : Nat) : Ring :=
  { r with ejected := r.ejected.filter fun m => !(m.cls == 3 && m.seq == op && m.dst == dst) }

/-- A message is sent to the home slice of its target when the quarantine releases it (R325, R455); a message whose home cannot
be reached completes with error kind 3 (R327). -/
def State.deliverMessage (s : State) (o : AsyncOp) (handler : Nat) (payload : List Byte) : State :=
  match (if s.lineGone o.src.toNat then none else s.homeSlice o.src.toNat) with
  | none => s.setOp { o with started := true, reply := some (3, 0, []) }
  | some sl =>
    let m : KeeperMsg :=
      { op := o.id, vi := o.env.vi, asid := o.env.asid, src := o.core, target := o.dst, handler := handler, payload := payload }
    let k := s.keeperAt sl
    ((s.setOp { o with started := true }).setKeeper { k with queue := k.queue ++ [m] }).carry o.env.vi o.id (chanStop o.core) (sliceStop sl) payload

/-- A handler ends: its writes and its reply are held (R465). -/
def Keeper.finish (k : Keeper) (m : KeeperMsg) (kind status : Nat) (reply : List Byte) (lines : List Nat)
    (writes : List (Nat × Word)) (now : Nat) : Keeper :=
  { k with run := none,
           held := k.held ++ [{ msg := m, kind := kind, status := status, reply := reply, lines := lines, writes := writes, at_ := now }] }

/-- Why a line may not be selected: it breaks the VI's allocation (R489), or another rule of R289. -/
inductive LineFault where
  | breach
  | line
  deriving DecidableEq, Repr

/-- An abort (R289): nothing is written, the sender gets an error reply. -/
def State.keeperAbort (s : State) (kind : Nat) : Out :=
  match s.keeper.run with
  | none => s.skip
  | some r => .next { s with keeper := s.keeper.finish r.msg kind 0 [] [] [] (s.sliceTime s.keeper.slice) }

/-- The line that an address selects for a message (R288, R289): its space, translation and slice; an address outside the VI's
allocation is a breach (R489). -/
def State.keeperLine (s : State) (m : KeeperMsg) (slice : Nat) (acc : Access) (a : DWord) : Except LineFault Nat :=
  let n := a.toNat % 2 ^ 61
  let here := match spaceOf a with
    | 2 => decide (n < 2 ^ 48)
    | 3 => decide (n < 2 ^ 44) && (match s.viewOf m.vi (n / 2 ^ 40) with
        | some x => x.pkg == s.pkg
        | none => false)
    | _ => false
  if here = false then .error .line
  else
    match s.translate (agentEnv m.vi m.asid (512 + s.keeper.slice)) .user acc a with
    | .error c => .error (if c = causePartition then .breach else .line)
    | .ok key => if s.homeSlice key = some slice then .ok (key / 128) else .error .line

/-- A breach of the VI's allocation freezes it (R31 cause 2, R489). -/
def State.breached (s : State) (vi : Nat) (f : LineFault) : State := if f = .breach then s.freeze vi 2 else s

/-- A line selected (R288, R289): it becomes current and is held from now on; the keeper waits for a line that another side
holds. A fifth line, or one that may not be selected, aborts. -/
def State.selectLine (s : State) (r : KeeperRun) (a : DWord) : Except (Nat × LineFault) (Option KeeperRun) :=
  match s.keeperLine r.msg s.keeper.slice .read a with
  | .error f => .error (3, f)
  | .ok l =>
    if r.lines.contains l then .ok (some { r with line := l, lineVa := a })
    else if 4 ≤ r.lines.length then .error (5, .line)
    else if s.atHand false (128 * l) = false ∨ s.keeperHolds (128 * l) = true then .ok none
    else .ok (some { r with line := l, lineVa := a, lines := r.lines ++ [l] })

/-- The handler table's entry of a message: code address and length; none for an entry that is not valid (R286). -/
def State.handlerEntry (s : State) (m : KeeperMsg) : Option (DWord × Nat) :=
  match s.viAt m.vi with
  | none => none
  | some v =>
    let f := fun o n => s.tableField v (0x11000 + 16 * m.handler + o) n
    let a := BitVec.ofNat 64 (f 0 8)
    if spaceOf a = 2 ∧ a.toNat % 2 ^ 61 < 2 ^ 48 ∧ a.toNat % 4 = 0 ∧ 4 ≤ f 8 2 ∧ f 8 2 ≤ 1024 ∧ f 10 1 = 1 ∧ f 11 5 = 0 then
      some (a, f 8 2)
    else none

/-- The places of a handler's code, which is read when it starts (log entry 28); else why they cannot be reached. -/
def State.handlerCode (s : State) (m : KeeperMsg) (a : DWord) (n : Nat) : Except LineFault (List Place) :=
  (List.range n).foldr (fun i r =>
    match s.translate (agentEnv m.vi m.asid (512 + s.keeper.slice)) .user .read (a + BitVec.ofNat 64 i), r with
    | .ok k, .ok ps => .ok (.mem k :: ps)
    | .ok _, .error f => .error f
    | .error c, _ => .error (if c = causePartition then .breach else .line)) (.ok [])

/-- A line that the handler of a message waits for is asked for on behalf of the message's sender. -/
def State.keeperAsk (s : State) (m : KeeperMsg) (write : Bool) (key : Nat) : State :=
  match s.opAt m.op with
  | some o => s.askFor o.env.grid o.env.reach write (.mem key)
  | none => s.askFor 0 0 write (.mem key)

/-- A handler's start state (R287), the current line not yet selected. -/
def KeeperRun.start (m : KeeperMsg) (a : DWord) (code : List Byte) : KeeperRun :=
  let regs := Cells.writeList (w := 32) [] 10
    [m.target.setWidth 32, (m.target >>> 32).setWidth 32, BitVec.ofNat 32 m.src]
  { msg := m, scratch := Cells.writeList [] 0 m.payload, regs := regs, pc := a.setWidth 32, codeBase := a.setWidth 32,
    code := code, lines := [], writes := [], line := 0, lineVa := m.target, count := 0 }

/-- The places of the entry of a message in the handler table. -/
def State.entryPlaces (s : State) (m : KeeperMsg) : List Place :=
  match s.viAt m.vi with
  | some v => v.tablePlaces (0x11000 + 16 * m.handler) 16
  | none => []

/-- What a message waits for before it can begin is asked for on behalf of its sender. -/
def State.keeperAskAll (s : State) (m : KeeperMsg) (ps : List Place) : State :=
  ps.foldl (fun s p => match p with
    | .mem k => s.keeperAsk m false k
    | .store _ _ => s) s

/-- The keeper looked at begins a message (R286, R287, R289), with lines that it still holds from a struck run; it waits for a line of
its table entry or of its code that another side holds (R276). A message whose home is not to be reached any more fails (R327). -/
def State.beginHandler (s : State) (m : KeeperMsg) (lines : List Nat) : Out :=
  let fail := fun k (f : LineFault) =>
    Host.Outcome.next ({ s with keeper := s.keeper.finish m k 0 [] [] [] (s.sliceTime s.keeper.slice) }.breached m.vi f)
  if (s.entryPlaces m).any fun p => !s.available false p then .next (s.keeperAskAll m (s.entryPlaces m))
  else
    match s.handlerEntry m with
    | none => fail 1 .line
    | some (a, n) =>
      match s.handlerCode m a n with
      | .error f => fail 3 f
      | .ok ps =>
        if ps.any fun p => !s.available false p then .next (s.keeperAskAll m ps)
        else
          let r := { KeeperRun.start m a (ps.map s.released) with lines := lines }
          match s.selectLine r m.target with
          | .error (k, f) => fail k f
          | .ok none => .next (match s.keeperLine m s.keeper.slice .read m.target with
              | .ok l => s.keeperAsk m false (128 * l)
              | .error _ => s)
          | .ok (some r) =>
            if s.lineGone (128 * r.line) then fail 3 .line else .next { s with keeper := { s.keeper with run := some r } }

/-- A message that could not begin yet stays at the head of the queue. -/
def State.runMessage (s : State) (m : KeeperMsg) (lines : List Nat) : Out :=
  match s.beginHandler m lines with
  | .next t =>
    .next (if t.keeper.run.isNone ∧ t.keeper.held.isEmpty then
      { t with keeper := { t.keeper with queue := m :: t.keeper.queue } } else t)
  | z => z

/-- KEEPER_MESSAGE (R287): the keeper takes the next message, once the one before has been released. A message waits while its VI
does not run, and behind earlier operations of its stream (R316). -/
def execKeeperMessage (slice : Nat) (s : State) : Out :=
  let s := s.focusKeeper slice
  let k := s.keeper
  if k.run.isSome ∨ k.held.isEmpty = false then s.skip
  else
    match k.queue with
    | [] => s.skip
    | m :: rest =>
      let waits := match s.opAt m.op with
        | some o => s.heldBack o
        | none => false
      if s.viRuns m.vi = false ∨ waits = true ∨ s.ring.reached m.op (sliceStop slice) = false then s.skip
      else
        ({ s with keeper := { k with queue := rest }, ring := s.ring.taken m.op (sliceStop slice) } : State).runMessage m []

/-- The reply of a message leaves for its sender (R326). -/
def State.replyTo (s : State) (slice : Nat) (h : KeeperHeld) : State :=
  match s.opAt h.msg.op with
  | some o =>
    (s.setOp { o with reply := some (h.kind, h.status, h.reply) }).carry h.msg.vi h.msg.op (sliceStop slice) (chanStop h.msg.src) h.reply
  | none => s

/-- The words that a handler has written take effect (R289). -/
def State.keeperWrites (s : State) (ws : List (Nat × Word)) : State :=
  ws.foldl (fun s w =>
    let ps := (List.range 4).map fun i => Place.mem (w.1 + i)
    (s.setBytes ps (bytesOf 4 w.2.toNat)).written none 0 ps) s

/-- KEEPER_RELEASE (R289, R465): the lines' writes take effect together and the reply leaves. -/
def execKeeperRelease (slice : Nat) (s : State) : Out :=
  let k := s.keeperAt slice
  match k.held with
  | [] => s.skip
  | h :: rest =>
    if s.sliceTime slice < h.at_ + 64 then s.skip
    else .next (((s.setKeeper { k with held := rest }).keeperWrites h.writes).replyTo slice h)

/-- KEEPER_STRIKE (R465): the handler runs again from its message, with the lines that it holds. -/
def execKeeperStrike (slice : Nat) (s : State) : Out :=
  let s := s.focusKeeper slice
  let k := s.keeper
  match k.run, k.held with
  | some r, _ => ({ s with keeper := { k with run := none } } : State).runMessage r.msg r.lines
  | none, h :: rest => ({ s with keeper := { k with held := rest } } : State).runMessage h.msg h.lines
  | none, [] => .next s

/-! ## Handler instructions -/

def KeeperRun.reg (r : KeeperRun) (n : Nat) : Word := Cells.read r.regs n
def KeeperRun.setReg (r : KeeperRun) (n : Nat) (x : Word) : KeeperRun :=
  if n = 0 then r else { r with regs := Cells.write r.regs n x }

/-- One instruction executed: counted, and the pc moved on. -/
def KeeperRun.past (r : KeeperRun) (n : Nat) : KeeperRun := { r with pc := r.pc + BitVec.ofNat 32 n, count := r.count + 1 }

/-- An instruction of the handler that the keeper looked at runs: the 257th aborts (R289). -/
def State.handler (s : State) (k : KeeperRun → Out) : Out :=
  match s.keeper.run with
  | none => s.skip
  | some r => if 256 ≤ r.count then s.keeperAbort 2 else k r

def State.keeperNext (s : State) (r : KeeperRun) : Out := .next { s with keeper := { s.keeper with run := some r } }

/-- KSEL (R288). -/
def execKsel (b a d : BitVec 5) (s : State) : Out :=
  s.handler fun r =>
    let addr := BitVec.ofNat 64 ((r.reg a.toNat).toNat + 2 ^ 32 * (r.reg b.toNat).toNat)
    match s.selectLine r addr with
    | .error (k, f) => (s.breached r.msg.vi f).keeperAbort k
    | .ok (some r) => s.keeperNext (r.past 4)
    | .ok none => .next (match s.keeperLine r.msg s.keeper.slice .read addr with
        | .ok l => s.keeperAsk r.msg false (128 * l)
        | .error _ => s)

/-- The key of a word of the current line, when the offset is a multiple of 4 (R288, R289). -/
def KeeperRun.wordKey (r : KeeperRun) (off : Word) : Option Nat :=
  let o := off.toNat % 128
  if o % 4 = 0 then some (128 * r.line + o) else none

/-- A word of a line as the handler sees it: its own writes over memory. -/
def State.lineWord (s : State) (r : KeeperRun) (key : Nat) : Word :=
  match r.writes.reverse.find? (·.1 == key) with
  | some w => w.2
  | none => BitVec.ofNat 32 (numOf (Cells.readList (w := 8) s.mem key 4))

/-- A word read by a handler uses its slice (R271); poison that it reads is consumed by the reach of the sender (R467). -/
def State.keeperReads (s : State) (r : KeeperRun) (key : Nat) : State :=
  let s := s.homeReads 0 [.mem key]
  match s.opAt r.msg.op with
  | some o => if s.poisoned (.mem key) then s.soon (.op (.poisonConsumed o.env.grid o.env.reach)) else s
  | none => s

/-- Whether the handler may write its current line: translation with write permission, and the line at hand for writing. -/
def State.keeperWrite (s : State) (r : KeeperRun) (key : Nat) (x : Word) (k : KeeperRun → State → Out) : Out :=
  match s.keeperLine r.msg s.keeper.slice .write r.lineVa with
  | .error f => (s.breached r.msg.vi f).keeperAbort 3
  | .ok _ =>
    if s.atHand true key then k { r with writes := r.writes ++ [(key, x)] } s else .next (s.keeperAsk r.msg true key)

/-- KLW (R288). -/
def execKlw (b a d : BitVec 5) (s : State) : Out :=
  s.handler fun r =>
    match r.wordKey (r.reg a.toNat) with
    | none => s.keeperAbort 3
    | some k => (s.keeperReads r k).keeperNext ((r.setReg d.toNat (s.lineWord r k)).past 4)

/-- KSW (R288). -/
def execKsw (b a d : BitVec 5) (s : State) : Out :=
  s.handler fun r =>
    match r.wordKey (r.reg a.toNat) with
    | none => s.keeperAbort 3
    | some k => s.keeperWrite r k (r.reg b.toNat) fun r s => s.keeperNext (r.past 4)

/-- KFADD (R288). -/
def execKfadd (b a d : BitVec 5) (s : State) : Out :=
  s.handler fun r =>
    match r.wordKey (r.reg a.toNat) with
    | none => s.keeperAbort 3
    | some k =>
      let old := s.lineWord r k
      let sum := Fmt.f32.finish .plain (sumExact .rne [Fmt.f32.decode old.toNat, Fmt.f32.decode (r.reg b.toNat).toNat])
      s.keeperWrite r k (BitVec.ofNat 32 sum.code) fun r s =>
        (s.keeperReads r k).keeperNext ((r.setReg d.toNat old).past 4)

/-- KEND (R288, R289). -/
def execKend (b a d : BitVec 5) (s : State) : Out :=
  s.handler fun r =>
    let reply := Cells.readList r.scratch 0x40 64
    let status := (r.reg a.toNat).toNat % 256
    .next { s with keeper := s.keeper.finish r.msg 0 status reply r.lines r.writes (s.sliceTime s.keeper.slice) }

/-- Whether an access lies in the scratch (R287). -/
def inScratch (a : Word) (n : Nat) : Bool := decide (a.toNat + n ≤ 0x4000)

/-- A base instruction on a handler's state: its next state, or none for an access outside the scratch. -/
def KeeperRun.exec (r : KeeperRun) (i : RvInstr) (len : Nat) : Option KeeperRun :=
  let x := r.reg
  let go := fun (r : KeeperRun) (pc : Word) => some { r with pc := pc, count := r.count + 1 }
  let next := r.pc + BitVec.ofNat 32 len
  match i with
  | .lui d y => go (r.setReg d y) next
  | .auipc d y => go (r.setReg d (r.pc + y)) next
  | .jal d o => go (r.setReg d next) (r.pc + BitVec.ofInt 32 o)
  | .jalr d a o => go (r.setReg d next) ((x a + BitVec.ofInt 32 o) &&& 0xFFFFFFFE)
  | .branch c a b o => go r (if c.holds (x a) (x b) then r.pc + BitVec.ofInt 32 o else next)
  | .load n sg d a o =>
    let addr := x a + BitVec.ofInt 32 o
    if inScratch addr n then
      let v := numOf (Cells.readList r.scratch addr.toNat n)
      go (r.setReg d (if sg then BitVec.ofInt 32 (sextN (8 * n) v) else BitVec.ofNat 32 v)) next
    else none
  | .store n a b o =>
    let addr := x a + BitVec.ofInt 32 o
    if inScratch addr n then go { r with scratch := Cells.writeList r.scratch addr.toNat (bytesOf n (x b).toNat) } next
    else none
  | .aluImm f d a y => go (r.setReg d (f.eval (x a) y)) next
  | .alu f d a b => go (r.setReg d (f.eval (x a) (x b))) next
  | .fence => go r next

/-- KEEPER_BASE_INSTRUCTION (R287, R289): an illegal encoding and an access outside the scratch abort. -/
def execKeeperBaseInstruction (w : Word) (s : State) : Out :=
  s.handler fun r =>
    match rvDecode w with
    | none => s.keeperAbort 4
    | some i =>
      match r.exec i (rvLength w) with
      | some r => s.keeperNext r
      | none => s.keeperAbort 4

/-! ## The reply at the sender (R326) -/

/-- The lanes that a reply writes: its bytes in lanes 0 to 15 of the odd register, the status word in lane 0 of the even one. -/
def replyWrites (reg kind status : Nat) (bytes : List Byte) : List RegWrite :=
  .vec reg 0 (BitVec.ofNat 32 (if kind = 0 then status else 2 ^ 8 + kind * 2 ^ 9)) ::
    (List.range 16).map fun l => .vec (reg + 1) l (if kind = 0 then BitVec.ofNat 32 (fieldAt bytes (4 * l) 4) else 0)

/-- Elements that an engine writes into a wave; a restart from an entry already reached keeps them (log entry 13). -/
def Wave.deliver (w : Wave) (ws : List RegWrite) : Wave :=
  { ws.foldl Wave.land w with entries := w.entries.map fun e => { e with arch := ws.foldl Arch.land e.arch } }

/-- AMSG_REPLY (R326). -/
def execAmsgReply (id : Nat) (s : State) : Out :=
  match s.opAt id with
  | none => s.skip
  | some o =>
    match o.kind, o.reply with
    | .amsg _ _ reg, some (kind, status, bytes) =>
      if s.ring.reached id (chanStop o.core) = false then s.skip
      else
      let s := { s with ring := s.ring.taken id (chanStop o.core) }
      let s1 := if o.orphan then s
        else
          match s.waveAt ⟨o.core, o.slot⟩ with
          | some w => s.putWave (w.deliver (replyWrites reg kind status bytes))
          | none => s
      .next (s1.endOp o .success)
    | _, _ => s.skip

end Sys2Proof.Machine
end

