-- ==== Sys2Proof/Machine/Retire.lean ====
section
/-!
DEFINITION. The end of teams, reaches and grids (R115, R264, R476 to R482).
-/
namespace Sys2Proof.Machine

/-- Whether a ferry-mode grid has no traveller anywhere, no team at work and no team with children (R115, R264). -/
def State.ferryStill (s : State) (g : Grid) : Bool :=
  (s.net.all (·.grid != g.id)) &&
  ((s.core :: s.cores).all fun c => (c.departure.all (·.grid != g.id)) && (c.landing.all (·.grid != g.id)) &&
    (c.bins.all fun b => b.grid != g.id || b.lanes.isEmpty)) &&
  ((g.reaches.flatMap (·.teams)).all fun t =>
    t.ended || (s.teamIdle g.id t.team && s.overflowEmpty g t.team && (s.children g.id t.team).1 == 0))

/-- What a team leaves: its place on its cores, its matrix sets, its bins, its waves (R115, R125, R477, R478). -/
def State.clearTeam (s : State) (grid team : Nat) : State :=
  let s := s.dropWaves fun w => w.env.grid == grid && w.env.team == team && decide (w.status ≠ .absent)
  s.mapCores fun c =>
    let m := if c.matrix.holder = some (grid, team) then { c.matrix with holder := none, data := { MatrixData.zero with rill := c.matrix.data.rill } }
      else c.matrix
    { c with residents := c.residents.filter fun r => !(r.grid == grid && r.team == team), matrix := m,
             bins := c.bins.filter fun b => !(b.grid == grid && b.team == team) }

/-- The reach of a team. -/
def Grid.reachOfTeam (g : Grid) (team : Nat) : Option Reach := g.reaches.find? fun x => x.teams.any (·.team == team)

/-- A team marked as ended, and its reach when it was the last (R476). -/
def Grid.endTeam (g : Grid) (team : Nat) : Grid :=
  let g := g.mapTeam team fun t => { t with ended := true, entry := none }
  { g with reaches := g.reaches.map fun x =>
      if x.teams.any (·.team == team) ∧ x.teams.all (·.ended) = true then { x with phase := .ended } else x }

/-- TEAM_COMPLETE (R115, R264, R476). -/
def execTeamComplete (grid team : Nat) (s : State) : Out :=
  match (s.gridAt grid).bind fun g => (g.reachOfTeam team).bind fun x => (g.teamAt team).map fun t => (g, x, t) with
  | none => s.skip
  | some (g, x, t) =>
    let c := s.children grid team
    if x.phase ≠ .running ∨ t.ended = true ∨ s.teamIdle grid team = false ∨ c.1 ≠ 0 ∨ s.dispatches g.vi = false ∨
        (g.record.ferry = true ∧ s.ferryStill g = false) then s.skip
    else
      let g' := { g.endTeam team with perr := min 65535 (g.perr + c.2) }
      .next (((s.freeEntry t.entry).setGrid g').clearTeam grid team)

/-- The status and detail of a grid's completion (R480). -/
def Grid.outcome (g : Grid) : Nat × Nat := if g.failed then (2, 0) else if g.cefail ≠ 0 then (3, g.firstFail) else (0, 0)

/-- GRID_RETIRE (R476, R479 to R482): the record is written, then the matcher's entry is free and the parent is told. -/
def execGridRetire (grid : Nat) (s : State) : Out :=
  match (s.gridAt grid).bind fun g => (s.viAt g.vi).map fun v => (g, v) with
  | none => s.skip
  | some (g, v) =>
    if g.reaches.any (fun x => decide (x.phase ≠ .ended)) ∨ s.ops.any (fun o => o.env.grid == grid && !o.ended) ∨
        s.dispatches g.vi = false then s.skip
    else
      let r := g.record
      match s.complete v r.compl r.lseq g.outcome.1 g.outcome.2 g.perr g.cefail g.creln with
      | .error ps => .next (s.askPlaces true ps)
      | .ok s =>
        let t : State := { s with grids := s.grids.filter (·.id != grid), ops := s.ops.filter (·.env.grid != grid) }
        .next (t.tellParent r.parent g.outcome.1)

end Sys2Proof.Machine
end

