-- ==== Sys2Proof/Machine/Recovery.lean ====
section
/-!
DEFINITION. The quarantine's releases (R455, R456), region entries (R457), strikes (R454, R460 to R464), and the consumption of
poison (R466 to R468).
-/
namespace Sys2Proof.Machine

/-! ## Releasing what is held (R455, R456) -/

/-- The Env of the wave that made a held item. -/
def State.envOf (s : State) (core slot : Nat) : Env := ((s.waveAt ⟨core, slot⟩).map (·.env)).getD .idle

/-- Whether an operation is still to come before a held atomic (R305). -/
def State.stillOpen (s : State) (id : Nat) : Bool := s.ops.any fun o => o.id == id && !o.ended

/-- The bytes of an atomic's operand. -/
def atomicPlaces (p : Place) (a : AtomicOp) : List Place := (List.range a.size).map p.add

/-- Whether an atomic is performed through the home agent: its bytes lie in control space (R366). -/
def Place.isHomed : Place → Bool
  | .mem k => decide (2 ^ 40 ≤ k) && !isHostKey k
  | .store _ _ => false

/-- Whether a launch record waits for an earlier one of its queue to be released. -/
def State.launchWaits (s : State) (vi q seq : Nat) : Bool :=
  (s.heldLaunches vi q).any fun n => decide (n ≠ seq ∧ (seq + 2 ^ 32 - n) % 2 ^ 32 < 2 ^ 31)

/-- The sequence number that a held launch record has at its release, the first after K, with its slot and its bytes: another number than
at its issue if a record before it has been discarded (R122, log entry 22). -/
def State.launchSlot (s : State) (vi q n : Nat) (addr : DWord) (bs : List Byte) : Nat × DWord × List Byte :=
  match (s.viAt vi).bind fun v => v.queueAt q with
  | some x =>
    let m := (x.k + 1) % 2 ^ 32
    if m = n ∨ x.qst ≠ 1 then (n, addr, bs) else (m, x.base + BitVec.ofNat 64 (128 * (m % 2 ^ x.log)), bytesOf 4 m ++ bs.drop 4)
  | none => (n, addr, bs)

/-- The places that a held item needs at hand before it is released. -/
def State.needed (s : State) (k : HeldKind) : List Place :=
  match k with
  | .write p bs => (List.range bs.length).map p.add
  | .atomic p a _ _ _ _ _ => if p.isHomed then [] else atomicPlaces p a
  | .launch vi q n addr bs _ =>
    let x := s.launchSlot vi q n addr bs
    match s.viAt vi with
    | some v =>
      match s.hubPlaces v.hubEnv .write x.2.1 x.2.2.length with
      | .ok ps => ps
      | .error _ => []
    | none => []
  | _ => []

/-- Whether a held item must wait although its time has come. -/
def State.heldUp (s : State) (k : HeldKind) : Bool :=
  (s.needed k).any (fun p => !s.available true p) ||
    match k with
    | .atomic _ _ _ _ _ after sent => sent.isSome || after.any s.stillOpen
    | .launch vi q n _ _ _ => s.launchWaits vi q n
    | _ => false

/-- Whether an item is only waiting for its answer, its release done. -/
def Held.away (h : Held) : Bool :=
  match h.kind with
  | .atomic _ _ _ _ _ _ (some _) => true
  | _ => false

/-- The position of the item to be released next: a core releases in issue order, so only the first of its queue can be it, once it is
due, not held up, and not away at its home (R456). -/
def State.nextRelease (s : State) (c : Core) : Option Nat :=
  match c.held with
  | [] => none
  | h :: _ => if c.ripe (s.coreTime c.id) h.at_ = true ∧ h.away = false ∧ s.heldUp h.kind = false then some 0 else none

/-- The line of a place, as one number. -/
def Place.line : Place → Nat × Nat
  | .mem k => (0, k / 128)
  | .store c o => (c + 1, o / 128)

/-- Writes of one instruction to one line, which are released in one step: an aligned access lies in one line. -/
def sameRun (h x : Held) : Bool :=
  h.at_ == x.at_ && h.slot == x.slot &&
    match h.kind, x.kind with
    | .write p _, .write q _ => p.line == q.line
    | _, _ => false

/-- The run of writes that the first held item begins. -/
def Core.writeRun (c : Core) (h : Held) : List Held := c.held.takeWhile (sameRun h)

/-- The bytes of held writes, place by place. -/
def heldBytes (hs : List Held) : List (Place × Byte) :=
  hs.flatMap fun h =>
    match h.kind with
    | .write p bs => bs.zipIdx.map fun b => (p.add b.2, b.1)
    | _ => []

/-- Whether a place lies on a line whose only homes are lost (R474). -/
def State.placeGone (s : State) : Place → Bool
  | .mem k => s.lineGone k
  | .store _ _ => false

/-- Held writes take effect (R456, R466), under the cache policy of their store (R278); on a line whose homes are lost they are consumed
poison (R474). -/
def State.releaseWrites (s : State) (core : Nat) (hs : List Held) : State :=
  let bs := heldBytes hs
  let ok := bs.filter fun b => !s.placeGone b.1
  let policy := (hs.head?.map (·.policy)).getD 0
  let t := ((s.setBytes (ok.map (·.1)) (ok.map (·.2))).clearCovered (ok.map (·.1))).written (some core) policy (ok.map (·.1))
  if ok.length = bs.length then t
  else
    match hs.head? with
    | some h => let e := s.envOf core h.slot; t.soon (.op (.poisonConsumed e.grid e.reach))
    | none => t

/-- A control atomic goes to its home, and its item waits there for the answer (R366). -/
def State.sendAtomic (s : State) (core : Nat) (h : Held) (k : Nat) (a : AtomicOp) : State :=
  match s.homeFor k with
  | none => s
  | some home =>
    let tag := s.ids
    let c := BitVec.ofNat 64 (a.op + if a.size = 8 then 16 else 0)
    let p := { s.packet home opControlAtomic with addr := k - 2 ^ 40, len := a.size, opnd := [c, a.b, a.e] }
    let mark (x : Held) : Held :=
      match x.kind with
      | .atomic q b ll dst acq after none => if x = h then { x with kind := .atomic q b ll dst acq after (some tag) } else x
      | _ => x
    let d := s.coreAt core
    let s := s.setCore { d with held := d.held.map mark }
    if home = s.pkg then ({ s with ids := s.ids + 1 } : State).deliverTo { p with tag := tag } else s.request p 0 0 0 true

/-- An atomic performed on this package (R303, R304). Poison is consumed by its reach (R467). -/
def State.releaseAtomic (s : State) (core : Nat) (h : Held) (p : Place) (a : AtomicOp) (ll : Nat) (dst : List RegWrite) : State :=
  let ps := atomicPlaces p a
  let e := s.envOf core h.slot
  let bad := ps.any s.poisoned
  let r := s.doAtomic ps a
  let t := (r.2.written (some core) h.policy ps).resolve core h.slot ll (fillOld dst r.1)
  if bad then t.soon (.op (.poisonConsumed e.grid e.reach)) else t

/-- A launch record reaches its slot, and acts as a kick (R122); one whose slot cannot be written is dropped there, and K goes on (log
entry 120). -/
def State.releaseLaunch (s : State) (vi q n : Nat) (addr : DWord) (bs : List Byte) : State :=
  match s.viAt vi with
  | none => s
  | some v =>
    let x := s.launchSlot vi q n addr bs
    let t := (s.hubWrite v.hubEnv x.2.1 x.2.2).getD s
    let t : State := { t with launch := t.launch.renumber vi q n x.1 }
    match (t.viAt vi).bind fun v => (v.queueAt q).map fun y => (v, y) with
    | some (v, y) => if y.qst = 1 then t.setVi (v.setQueue { y with k := x.1 }) else t
    | none => t

/-- An operation reaches its engine (R307, R311, R325, R379). -/
def State.beginOp (s : State) (id : Nat) : State :=
  match s.opAt id with
  | none => s
  | some o =>
    let o' := { o with started := true }
    match o.kind with
    | .amsg hd payload _ => s.deliverMessage o' hd payload
    | .collective _ _ _ =>
      match s.collOf o' with
      | some c => (s.setOp o').beginCollective o' c
      | none => s.setOp o'
    | _ => s.setOp o'

/-- The first `n` held lanes of a bin are released (R124). -/
def releaseLanes : Nat → List BinLane → List BinLane
  | 0, ls => ls
  | _, [] => []
  | n + 1, l :: ls => if l.held then { l with held := false } :: releaseLanes n ls else l :: releaseLanes (n + 1) ls

/-- A held item that is not a write takes effect; it has left the queue of its core. -/
def State.releaseItem (s : State) (core : Nat) (h : Held) : State :=
  let c := s.coreAt core
  match h.kind with
  | .write _ _ => s.releaseWrites core [h]
  | .atomic p a ll dst _ _ _ =>
    if s.placeGone p then
      let e := s.envOf core h.slot
      (s.resolve core h.slot ll []).soon (.op (.poisonConsumed e.grid e.reach))
    else s.releaseAtomic core h p a ll dst
  | .launch vi q n addr bs _ => s.releaseLaunch vi q n addr bs
  | .start id => s.beginOp id
  | .send p => s.offer core p.sch
  | .take _ _ => s
  | .tags _ => s
  | .spawn bin n => s.setCore { c with bins := c.bins.map fun b => if b.index = bin then { b with lanes := releaseLanes n b.lanes } else b }
  | .overflow t =>
    match s.gridAt t.grid with
    | some g => s.writeOverflow (s.ferryEnv g) t
    | none => s
  | .arrive =>
    match s.waveAt ⟨core, h.slot⟩ with
    | some w => s.putWave { w with arrival := w.arrival.map fun a => { a with released := true } }
    | none => s
  | .exit => s.endNow ⟨core, h.slot⟩

/-- Whether a held item is an atomic on control space, which its home performs, this package or another, in its turn among the requests
for the line (R366, R390). -/
def State.goesHome (s : State) (h : Held) : Option (Nat × AtomicOp) :=
  match h.kind with
  | .atomic (.mem k) a _ _ _ _ none => if Place.isHomed (.mem k) && !s.lineGone k then some (k, a) else none
  | _ => none

/-- What a departure or a SPAWN puts in overflow areas is released in one step, with the end of its wave (R252, R255). -/
def Core.leaveRun (c : Core) (h : Held) : List Held :=
  c.held.takeWhile fun x => x.at_ == h.at_ && x.slot == h.slot &&
    match x.kind with
    | .overflow _ => true
    | .exit => true
    | _ => false

/-- The next due item of a core is released. -/
def State.releaseNext (s : State) (core : Nat) (c : Core) (h : Held) : State :=
  match s.goesHome h with
  | some (k, a) => s.sendAtomic core h k a
  | none =>
    if sameRun h h then
      let run := c.writeRun h
      (s.setCore { c with held := c.held.drop run.length }).releaseWrites core run
    else
      match h.kind with
      | .overflow _ =>
        let run := c.leaveRun h
        run.foldl (fun s x => s.releaseItem core x) (s.setCore { c with held := c.held.drop run.length })
      | _ => (s.setCore { c with held := c.held.erase h }).releaseItem core h

/-- The first place that a due item waits for is asked for. -/
def State.askHeld (s : State) (core : Nat) (c : Core) : Option State :=
  let due := c.held.filter fun h => c.ripe (s.coreTime c.id) h.at_ && !h.away
  let want := due.filter fun h => (s.needed h.kind).any fun p => !s.available true p
  match want with
  | [] => none
  | h :: _ =>
    let e := s.envOf core h.slot
    some ((s.needed h.kind).foldl (fun s p => if s.available true p then s else s.askFor e.grid e.reach true p) s)

/-- QUARANTINE_RELEASE (R455): the next held item of a core is released, or what it waits for is asked for. -/
def execQuarantineRelease (core : Nat) (s : State) : Out :=
  let c := s.coreAt core
  match s.nextRelease c with
  | some n =>
    match c.held[n]? with
    | some h => .next (s.releaseNext core c h)
    | none => s.skip
  | none =>
    match s.askHeld core c with
    | some t => .next t
    | none => s.skip

/-! ## Region entries (R457) -/

/-- The entries after the confirmation of the first that is due: those before it are restart points no longer. -/
def confirmFirst (ripe : Nat → Bool) : List RegionEntry → Option (List RegionEntry)
  | [] => none
  | e :: es =>
    if e.confirmed = false ∧ ripe e.reachedAt = true then some ({ e with confirmed := true } :: es)
    else if e.confirmed then confirmFirst ripe es
    else none

/-- ENTRY_CONFIRM (R457): 64 core cycles after the entry was reached. -/
def execEntryConfirm (r : WaveRef) (s : State) : Out :=
  match s.waveAt r with
  | none => s.skip
  | some w =>
    match confirmFirst ((s.coreAt w.core).ripe (s.coreTime w.core)) w.entries with
    | some es => .next (s.putWave { w with entries := es })
    | none => s.skip

/-! ## Strikes (R454, R460 to R464) -/

/-- STRIKE (R454): it has no effect before it is reported. -/
def execStrike (core : Nat) (s : State) : Out :=
  if core < 512 then
    let c := s.coreAt core
    .next (s.setCore { c with struck := c.struck.or (some (s.coreTime c.id)) })
  else s.skip

/-- What the discarding of a held item undoes on its core (R124, R455, R460). -/
def Core.discard (c : Core) (h : Held) : Core :=
  match h.kind with
  | .send p =>
    { c with outgoing := c.outgoing.filter fun q => !(q.sch == p.sch && q.seq == p.seq),
             chseq := Cells.write c.chseq p.sch (BitVec.ofNat 32 p.seq) }
  | .take ch p => { c with rxq := (ch, p) :: c.rxq }
  | .tags m => { c with tagmap := c.tagmap ||| m }
  | .spawn bin _ =>
    let b := c.bins.map fun b =>
      if b.index = bin then
        let ls := b.lanes.filter fun l => !l.held
        { b with lanes := ls, left := if ls.isEmpty then none else b.left }
      else b
    { c with bins := b.filter fun b => b.index != bin || b.sticky || !b.lanes.isEmpty }
  | _ => c

/-- What the discarding of a held item undoes outside its core: a child's place in its team's count, an operation and its count. -/
def State.discard (s : State) (core : Nat) (h : Held) : State :=
  match h.kind with
  | .launch vi q n _ _ i =>
    let l := { s.launch with lineage := s.launch.lineage.filter fun x => !(x.vi == vi && x.q == q && x.seq == n) }
    match i.bind l.entryAt with
    | some e => { s with launch := l.setEntry { e with outstanding := e.outstanding - 1 } }
    | none => { s with launch := l }
  | .start id =>
    match s.opAt id with
    | none => s
    | some o =>
      let s := { s with ops := s.ops.filter (·.id != id) }
      match o.counter, s.waveAt ⟨core, h.slot⟩ with
      | some c, some w => s.putWave (w.setCounter c (w.counter c - 1))
      | _, _ => s
  | _ => s

/-- Whether a long-latency instruction of a wave can complete or is discarded with what it waits for. -/
def State.llSettled (s : State) (c : Core) (slot : Nat) (o : LongOp) : Bool :=
  o.left == 0 ||
  (c.held.any fun h => h.slot == slot && !c.ripe (s.coreTime c.id) h.at_ &&
    match h.kind with
    | .atomic _ _ ll _ _ _ none => ll == o.id
    | .start id =>
      match s.opAt id with
      | some { kind := .xratom _ _ ll, .. } => ll == o.id
      | _ => false
    | _ => false)

/-- The batches as the restart finds them: operations withdrawn, and those closed since reopened (R464). -/
def Wave.reopen (w : Wave) (gone : List Nat) (ripe : Nat → Bool) : Wave :=
  let cut (b : Batch) : Batch := { b with left := b.left.filter fun i => !gone.contains i, size := b.size - (b.left.filter gone.contains).length }
  let late (b : Batch) : Bool := !ripe b.closedAt
  let back := (w.batches.filter late).map cut
  let open_ := cut w.openBatch
  { w with batches := (w.batches.filter fun b => !late b).map cut, ocm := w.ocm - back.length,
           openBatch := { open_ with left := (back.flatMap (·.left)) ++ open_.left, size := back.foldl (fun n b => n + b.size) open_.size,
                                     flags := back.foldl (fun f b => f ||| b.flags) open_.flags } }

/-- The restart point of a wave: its latest confirmed entry, else its first (R460); an entry is confirmed once its quarantine has run
(R457). -/
def Wave.restartPoint (w : Wave) (ripe : Nat → Bool) : Option RegionEntry :=
  (w.entries.filter fun e => e.confirmed || ripe e.reachedAt).getLast?.or w.entries.head?

/-- A wave restored to its restart point (R460). One that waits at a barrier with its arrival released, or about to be (`kept`), goes on
waiting; one whose exit is no longer in the quarantine ends. -/
def Wave.restart (w : Wave) (gone : List Nat) (ripe : Nat → Bool) (kept : List Held) (now : Nat) : Wave :=
  let w := (w.finishAll).reopen gone ripe
  let arrived : Bool := kept.any fun h => h.slot == w.slot && decide (h.kind = .arrive)
  let waits : Bool := match w.arrival with
    | some a => (a.released || arrived) && decide (w.status = .stalled)
    | none => false
  if waits || kept.any (·.isExit w.slot) then w
  else
    match w.restartPoint ripe with
    | none => w
    | some e =>
      { w with arch := e.arch, replay := e.replay, expiryDue := e.expiryDue, stepDue := e.stepDue, failures := e.taken ++ w.failures,
               pos := { e.pos with mid := e.pos.mid || e.inClause }, status := .ready, hints := [], badResume := none, fellX := false,
               ll := [], pending := none, stop := none, waitInv := none, fenceAt := none, issued := false, yielded := false,
               arrival := w.arrival.filter fun a => a.released || arrived, entries := [{ e with taken := [] }], entryDue := false,
               readySince := now + 16 }

/-- The matrix set after a report (R464): operations issued in the last 64 cycles are withdrawn, the others whose writes are
discarded are performed again. -/
def State.rollBack (s : State) (c : Core) : Core :=
  let ripe := c.ripe (s.coreTime c.id)
  let late (o : MatrixOp) : Bool := !ripe o.issuedAt
  let m := c.matrix
  let us := m.undo.filter fun u => !ripe u.at_
  let queue := m.queue.filter fun o => !late o
  match us with
  | [] => { c with matrix := { m with queue := queue, undo := [] } }
  | u :: _ =>
    let back := (us.filter fun u => late u.op).filterMap fun u =>
      match u.op.kind with
      | .trecv p => some (p, u.took)
      | _ => none
    let data := { m.data with tiles := u.before.tiles, accum := u.before.accum, rill := back ++ m.data.rill }
    let again := (us.filter fun u => !late u.op).foldl (fun c u =>
        let r := (s.applyMatrix c u.op u.took u.upTo).1
        { r with matrix := { r.matrix with data := { r.matrix.data with rill := data.rill } } })
      { c with matrix := { m with data := data, queue := queue, undo := [] } }
    again

/-- The operations of a core's matrix set that a report withdraws. -/
def Core.withdrawn (c : Core) (now : Nat) : List Nat :=
  ((c.matrix.queue ++ c.matrix.undo.map (·.op)).filter fun o => !c.ripe now o.issuedAt).map (·.id)

/-- The waves of teams on a core. -/
def State.wavesOn (s : State) (core : Nat) : List Wave := s.allWaves.filter fun w => w.core == core && w.live

/-- The effect of a report on a core (R460, R463, R464). What has left its quarantine counts as released, also where it waits for a line,
a region or an answer (log entry 113). -/
def State.report (s : State) (core : Nat) : State :=
  let c := s.coreAt core
  let now := s.coreTime core
  let ripe := c.ripe now
  let kept := c.held.filter fun h => ripe h.at_
  let gone := (c.held.filter fun h => !ripe h.at_).reverse
  let s := gone.foldl (fun s h => s.discard core h) s
  let d := gone.foldl Core.discard { c with held := kept }
  let out := c.withdrawn now
  let d := s.rollBack { d with departure := d.departure.filter fun t => ripe t.made }
  let d := { d with struck := none }
  let s := s.setCore d
  let s := s.mapWaves fun w =>
    if w.core ≠ core then w
    else if w.lookoutOf.isSome then w.endLookout
    else if w.live then w.restart out ripe kept now
    else w
  { s with hub := { s.hub with strikes := Cells.write s.hub.strikes core (Cells.read s.hub.strikes core + 1) } }

/-- STRIKE_REPORT (R454, R460): acted on once the long-latency instructions of the core's waves have completed. -/
def execStrikeReport (core : Nat) (s : State) : Out :=
  let c := s.coreAt core
  if c.struck.isNone ∨ (s.wavesOn core).any (fun w => w.ll.any fun o => !s.llSettled c w.slot o) = true then s.skip
  else .next (s.report core)

/-! ## Poison (R466 to R468) -/

/-- UNCORRECTABLE_ERROR (R466): the poison bit of the sector is set, and nothing more. -/
def execUncorrectableError (p : PoisonPlace) (s : State) : Out :=
  .next (match p with
    | .mem k => s.setPoison (.mem k) true
    | .localStore c o => s.setPoison (.store c o) true)

/-- A core without the work of a reach: its held items, its packets and operations (R468). -/
def Core.dropReach (c : Core) (slots : List Nat) (grid reach : Nat) (ferry : Bool) : Core :=
  let mine (e : Env) : Bool := e.grid == grid && e.reach == reach
  let sends := c.held.filterMap fun h => match h.kind with
    | .send p => if slots.contains h.slot then some p else none
    | _ => none
  { c with held := c.held.filter fun h => !slots.contains h.slot, rxq := [], outgoing := c.outgoing.filter fun p => !sends.contains p,
           matrix := { c.matrix with queue := c.matrix.queue.filter fun o => !mine o.env, undo := c.matrix.undo.filter fun u => !mine u.op.env },
           departure := if ferry then c.departure.filter (·.grid != grid) else c.departure,
           landing := if ferry then c.landing.filter (·.grid != grid) else c.landing }

/-- The waves of a reach and all that they have under way stop at once (R116, R468). -/
def State.killReach (s : State) (g : Grid) (x : Reach) : State :=
  let mine (e : Env) : Bool := e.grid == g.id && e.reach == x.index
  let refs := (s.allWaves.filter fun w => mine w.env && decide (w.status ≠ .absent)).map fun w => (w.core, w.slot)
  let ops := (s.ops.filter fun o => mine o.env).map (·.id)
  let cores := x.teams.flatMap (·.cores)
  let s := s.mapCores fun c =>
    if cores.contains c.id then c.dropReach ((refs.filter (·.1 == c.id)).map (·.2)) g.id x.index g.record.ferry else c
  let drop (k : Keeper) : Keeper := { k with queue := k.queue.filter fun m => !ops.contains m.op }
  let s := if g.record.ferry then s.dropTravellers (·.grid == g.id) else s
  let s := { s with ops := s.ops.filter fun o => !mine o.env,
                    keeper := drop s.keeper, keepers := s.keepers.map drop,
                    fabric := { s.fabric with requests := s.fabric.requests.filter fun r => r.control || !ops.contains r.op } }
  let s := s.dropWaves fun w => mine w.env && decide (w.status ≠ .absent)
  x.teams.foldl (fun s t => (s.freeEntry t.entry).clearTeam g.id t.team) s

/-- A reach as it waits for dispatch again. -/
def Reach.afresh (x : Reach) : Reach :=
  { x with phase := .waiting, relaunches := x.relaunches + 1,
           teams := x.teams.map fun t => { t with cores := [], lbase := 0, ended := false, entry := none } }

/-- A reach that runs or is placed. -/
def Reach.atWork (x : Reach) : Bool := decide (x.phase = .running ∨ x.phase = .placed)

/-- The grid is ended (R468): its reaches that wait are dropped, those at work are killed. -/
def State.failGrid (s : State) (g : Grid) : State :=
  let s := (g.reaches.filter Reach.atWork).foldl (fun s x => s.killReach g x) s
  s.setGrid { g with failed := true, reaches := g.reaches.map fun x => { x with phase := .ended } }

/-- POISON_CONSUMED (R468): the reach charged is killed, and launched again or the grid ended. A reach that no longer runs is not
charged. -/
def execPoisonConsumed (grid n : Nat) (s : State) : Out :=
  match (s.gridAt grid).bind fun g => (g.reachAt n).map fun x => (g, x) with
  | none => .next s
  | some (g, x) =>
    if x.atWork = false then .next s
    else if g.record.relaunchable = true ∧ x.relaunches < 2 then
      let t := s.killReach g x
      .next (t.setGrid { g.setReach x.afresh with creln := min 255 (g.creln + 1) })
    else .next (s.failGrid g)

end Sys2Proof.Machine
end

