-- ==== Sys2Proof/Machine/Halting.lean ====
section
/-!
DEFINITION. Where waves stop for the partition monitor (R32, R443, R449), debug halts (R443), waves stopped in hypervisor mode
(R447), and the end of a translation invalidation (R108, R282, R313, R444).
-/
namespace Sys2Proof.Machine

/-! ## Stopping waves at clause boundaries -/

/-- Whether a wave stands at a clause boundary, a stalled terminal instruction included, where it may stop: its long-latency
instructions can complete, and no trap of an instruction comes first (R430). -/
def Wave.atStop (w : Wave) : Bool :=
  decide (w.status = .ready ∨ w.status = .stalled) && w.stop.isNone && w.pending.isNone && w.waitInv.isNone &&
    w.lookoutOf.isNone && w.finishAll.ll.isEmpty

/-- Whether a wave of a frozen VI keeps the trap that froze it (R489). -/
def Wave.keepsTrap (w : Wave) : Bool :=
  w.pending.isSome && w.stop.isNone && w.lookoutOf.isNone && w.finishAll.ll.isEmpty && decide (w.arch.mode ≠ .hypervisor)

/-- Whether the next clause of a wave has `Y` set (R449). -/
def State.nextYields (s : State) (w : Wave) : Bool :=
  match s.focus ⟨w.core, w.slot⟩ with
  | none => false
  | some t =>
    match t.clauseAt w.pos.pc with
    | .ok (h, _) => hdrY h && !w.fellX
    | .error _ => false

/-- Whether a wave of a VI under pre-emption stops at the boundary where it stands (R449). -/
def State.preemptStops (s : State) (p : Preemption) (w : Wave) : Bool :=
  p.graceOver.contains (sectorOf w.core) || w.yielded || decide (w.status = .stalled) || s.nextYields w

/-- Why a wave stops where it stands, if it does: a debug halt before a pre-emption stop (R430), then a freeze (R32). In hypervisor
mode only a debug halt stops it. -/
def State.stopReason (s : State) (w : Wave) : Option StopKind :=
  if (s.coreAt w.core).halted = true ∧ w.atStop = true then some .halted
  else
    match s.viAt w.env.vi with
    | none => none
    | some v =>
      let frozen := decide (v.phase = .frozen)
      if w.arch.mode = .hypervisor ∨ (w.atStop || (frozen && w.keepsTrap)) = false then none
      else
        match v.preempt with
        | some p => if w.atStop && s.preemptStops p w then some .preempted else if frozen then some .frozen else none
        | none => if frozen then some .frozen else none

/-- Every wave that must stop where it stands stops there. `readySince` keeps the cycle of its stop. -/
def State.settleStops (s : State) : State :=
  s.mapWaves fun w =>
    match s.stopReason w with
    | some k => { w.finishAll with stop := some k, readySince := s.coreTime w.core }
    | none => w

/-- DEBUG_HALT (R443). -/
def execDebugHalt (core : Nat) (s : State) : Out :=
  if core < 512 then .next (s.setCore { s.coreAt core with halted := true }).settleStops else s.skip

/-- DEBUG_RELEASE (R443). -/
def execDebugRelease (core : Nat) (s : State) : Out :=
  if (s.coreAt core).halted then
    let t := s.setCore { s.coreAt core with halted := false }
    .next (t.mapWaves fun w =>
      if w.core = core ∧ w.stop = some .halted then { w with stop := none, readySince := s.coreTime w.core } else w).settleStops
  else s.skip

/-! ## Waves stopped in hypervisor mode (R447) -/

/-- A scalar privileged register of a wave as the monitor writes it, whole (R422, R423). -/
def Arch.monitorSet (a : Arch) (n : Nat) (x : DWord) : Arch :=
  match n with
  | 0x000 => { a with mode := .decode (bitsN x.toNat 1 0), sdepth := bitsN x.toNat 3 2, ddepth := x.getLsbD 4, sstep := x.getLsbD 5 }
  | 0x001 => { a with estat := x }
  | 0x002 => { a with epc := x }
  | 0x004 => { a with emask := x }
  | 0x006 => { a with evec := x &&& 0xFFFFFFFFFFFFFFC0 }
  | 0x007 => { a with uhtv := x }
  | 0x008 => { a with wdog := x &&& 0xFFFFFFFFFFFF }
  | 0x009 => { a with rvsp := (x &&& 0x0FFFFFFFFFFFFFF0) ||| rvspStart }
  | 0x010 => { a with hstat := x }
  | 0x011 => { a with hepc := x }
  | _ => a

/-- A stopped wave as the monitor rewrites it. -/
def Wave.rewrite (w : Wave) (r : WaveRewrite) (now : Nat) : Wave :=
  let sregs := r.scalars.foldl (fun c x => Cells.write c x.1 x.2) w.arch.sregs
  let vregs := r.vectors.foldl (fun c x => Cells.write c x.1 x.2) w.arch.vregs
  let preds := r.preds.foldl (fun c x => Cells.write c x.1 x.2) w.arch.preds
  let arch := r.priv.foldl (fun a x => a.monitorSet x.1 x.2) { w.arch with preds := preds, fpc := r.fpc.getD w.arch.fpc }
  { w with arch := { arch with mode := .decode r.mode, exm := r.exm &&& w.lanes, sregs := sregs, vregs := vregs },
           pos := { Position.at r.pc with ridx := r.ridx, mid := r.mid }, status := .ready, hints := [], issued := false,
           fellX := false, entryDue := true, readySince := now }

/-- A wave halted for debug as the monitor rewrites it: it stays halted (R443). -/
def State.rewriteHalted (s : State) (x : WaveRef) (r : WaveRewrite) : Out :=
  match s.waveAt x with
  | none => s.skip
  | some w => if w.stop = some .halted ∧ r.mode < 3 then .next (s.putWave (w.rewrite r w.readySince)) else s.skip

/-- STOPPED_WAVE_RESTART (R447): the monitor ends the wave, or rewrites its state and restarts it. -/
def execStoppedWaveRestart (x : WaveRef) (r : Option WaveRewrite) (s : State) : Out :=
  match s.waveAt x with
  | none => s.skip
  | some w =>
    if w.status ≠ .stopped then s.skip
    else
      match r with
      | none => .next (s.endNow x)
      | some r =>
        if r.mode < 3 then .next (s.putWave (w.rewrite r (s.coreTime w.core))) else s.skip

/-! ## The end of a translation invalidation (R444) -/

/-- Whether an invalidation of value `x` covers the page of an ASID at an address (R444). -/
def invCovers (x : DWord) (asid vpage : Nat) : Bool :=
  asid == bitsN x.toNat 15 0 && (bitsN x.toNat 63 61 == 7 || vpage == x.toNat / 2 ^ 16 * 2 ^ 16)

/-- Whether an invalidation of value `x` touches the run of virtual addresses of an ASID (R444). -/
def invMeets (x : DWord) (asid base size : Nat) : Bool :=
  let a := x.toNat / 2 ^ 16 * 2 ^ 16
  asid == bitsN x.toNat 15 0 && (bitsN x.toNat 63 61 == 7 || decide (a < base + size ∧ base < a + 2 ^ 16))

/-- A VI after an invalidation: the lines pinned through the page are unpinned (R282). -/
def Vi.invalidate (v : Vi) (x : DWord) : Vi :=
  { v with pins := v.pins.map fun p => { p with lines := p.lines.filter fun l => !invCovers x p.asid l.vpage } }

/-- No extent, TLB or walker keeps a translation that an invalidation covers (R108, R290). -/
def State.dropTranslations (s : State) (vi : Nat) (x : DWord) : State :=
  { s with tlbs := s.tlbs.filter fun t => !(t.vi == vi && invMeets x t.page.asid t.page.vpage t.page.size),
           grids := s.grids.map fun g =>
             if g.vi = vi then { g with extents := g.extents.filter fun y => !invMeets x y.asid y.base y.size } else g }

/-- TLBINV_COMPLETE (R108, R282, R313, R444): no operation that uses a translation of the page is in flight any more. -/
def execTlbinvComplete (r : WaveRef) (s : State) : Out :=
  s.onWave r fun s =>
    match s.wave.waitInv, s.viAt s.wave.env.vi with
    | some (false, x), some v =>
      let freed := v.pins.flatMap fun p => p.lines.filter fun l => invCovers x p.asid l.vpage
      if s.ops.any fun o => o.env.vi == v.vi && !o.ended && o.pages.any fun p => invMeets x p.asid p.vpage p.size then
        s.skip
      else
        let t := ({ s with wave := { s.wave with waitInv := none } } : State).setVi (v.invalidate x)
        ((t.toNormal freed).dropTranslations v.vi x).done
    | _, _ => s.skip

end Sys2Proof.Machine
end

