-- ==== Sys2Proof/Machine/Hint.lean ====
section
/-!
DEFINITION. The hint words (R164 to R170). A hint lends its payload to the group it opens; what it means, and whether the
group may hold it, is decided when the group's instruction issues (`Form`).
-/
namespace Sys2Proof.Machine

/-- A hint word issues: the group holds it, unless it is the last word of its clause (R164). -/
def State.hint (s : State) (op6 pl : Nat) : Out :=
  if s.wave.lastWord then s.trapCode 0x01
  else
    .next { s with wave :=
      { s.wave with hints := s.wave.hints ++ [BitVec.ofNat 32 (op6 * 2 ^ 26 + pl)],
                    pos := { s.wave.pos with ridx := s.wave.pos.ridx + 1 }, status := .inClause } }

/-- HSRC (R167). -/
def execHsrc (c : BitVec 2) (x y z : BitVec 7) (s : State) : Out :=
  s.hint 7 (c.toNat * 2 ^ 21 + x.toNat * 2 ^ 14 + y.toNat * 2 ^ 7 + z.toNat)

/-- HMOD (R168). -/
def execHmod (a : BitVec 1) (b : BitVec 2) (c d e : BitVec 1) (f : BitVec 2) (g : BitVec 1) (h : BitVec 5) (i : BitVec 1)
    (j : BitVec 2) (s : State) : Out :=
  s.hint 7 (2 ^ 24 + a.toNat * 2 ^ 23 + b.toNat * 2 ^ 21 + c.toNat * 2 ^ 20 + d.toNat * 2 ^ 19 + e.toNat * 2 ^ 18 +
    f.toNat * 2 ^ 16 + g.toNat * 2 ^ 15 + h.toNat * 2 ^ 10 + i.toNat * 2 ^ 9 + j.toNat * 2 ^ 7)

/-- HLIVE (R169). -/
def execHlive (b : BitVec 7) (m : BitVec 16) (s : State) : Out := s.hint 7 (2 * 2 ^ 24 + b.toNat * 2 ^ 17 + m.toNat)

/-- HSCH (R170). -/
def execHsch (a : BitVec 1) (b : BitVec 2) (c d e : BitVec 1) (s : State) : Out :=
  s.hint 7 (3 * 2 ^ 24 + a.toNat * 2 ^ 23 + b.toNat * 2 ^ 21 + c.toNat * 2 ^ 20 + d.toNat * 2 ^ 19 + e.toNat * 2 ^ 18)

/-- HIMM (R166). -/
def execHimm (p : BitVec 26) (s : State) : Out := s.hint 8 p.toNat

end Sys2Proof.Machine
end

