-- ==== Sys2Proof/Machine/Preempt.lean ====
section
/-!
DEFINITION. Pre-emption (R448 to R453, R462): the request, the grace, the engines' reports to the collector, the saved context, and
its resumption.
-/
namespace Sys2Proof.Machine

/-! ## The request (R448, R449) -/

/-- Which engine performs an operation. -/
def AsyncKind.engine : AsyncKind → Option Engine
  | .copy => some .copy
  | .copyT _ _ _ _ _ _ => some .copy
  | .gather _ _ => some .gather
  | .collective _ _ _ => some .collective
  | _ => none

/-- The cores whose work is of a VI. -/
def State.coresOf (s : State) (vi : Nat) : List Core :=
  (s.core :: s.cores).filter fun c => c.vi == some vi && !c.residents.isEmpty

/-- The keepers with a message of a VI under way or queued. -/
def Keeper.serves (k : Keeper) (vi : Nat) : Bool :=
  k.queue.any (·.vi == vi) || k.held.any (·.msg.vi == vi) || k.run.any (·.msg.vi == vi)

/-- Whether a grid of a VI is in ferry mode. -/
def State.ferries (s : State) (vi : Nat) : Bool := s.grids.any fun g => g.vi == vi && g.record.ferry

/-- The engines that hold work of a VI (R450). -/
def State.enginesOf (s : State) (vi : Nat) : List Engine :=
  let cs := s.coresOf vi
  let busy (e : Engine) : List Engine :=
    if s.ops.any fun o => o.env.vi == vi && !o.ended && o.kind.engine == some e then [e] else []
  cs.map (fun c => .core c.id) ++
  (cs.filter fun c => c.matrix.queue.any (·.env.vi == vi)).map (fun c => .matrix c.id) ++
  busy .copy ++ busy .gather ++ busy .collective ++
  (if (s.keeper :: s.keepers).any (·.serves vi) then [.keepers] else []) ++
  (if s.ferries vi then [.ferry] else [])

/-! ## The engines at their units (R353, R450, R462) -/

/-- Whether every wave of a VI on a core has stopped, 64 cycles ago or earlier, with everything that they held released and every entry
that they reached confirmed. -/
def State.coreStopped (s : State) (vi core : Nat) : Bool :=
  let c := s.coreAt core
  (s.allWaves.all fun w => decide (w.core ≠ core ∨ w.env.vi ≠ vi) || decide (w.status = .absent ∨ w.status = .exited) ||
    (w.lookoutOf.isNone && w.stop.isSome && decide (w.readySince + Config.quarantine ≤ s.coreTime w.core) && w.entries.all (·.confirmed))) &&
  c.held.isEmpty

/-- Whether pre-emption divides an operation, so that its remainder is saved (R353). -/
def MatrixOp.divisible (o : MatrixOp) : Bool := o.units.isSome

/-- The matrix operations of a VI that are under way on a core. -/
def Core.matrixBusy (c : Core) (vi : Nat) : List MatrixOp := c.matrix.queue.filter fun o => o.env.vi == vi && o.begunAt.isSome

/-- Whether an engine has reached its unit. -/
def State.engineStopped (s : State) (vi : Nat) : Engine → Bool
  | .core c => s.coreStopped vi c
  | .matrix c => ((s.coreAt c).matrixBusy vi).isEmpty && (s.coreAt c).held.isEmpty
  | .keepers => (s.keeper :: s.keepers).all fun k => !(k.held.any (·.msg.vi == vi) || k.run.any (·.msg.vi == vi))
  | .ferry => s.net.all fun t => ((s.gridAt t.grid).map (·.vi)) != some vi
  | e => s.ops.all fun o => o.env.vi != vi || o.kind.engine != some e || !s.awaiting o.id

/-- The unit at which an operation under way stops: the next boundary after what it has moved by now (R353). -/
def MatrixOp.stopAt (o : MatrixOp) (now : Nat) : Nat :=
  match o.units, o.begunAt with
  | some (n, rate, unit), some b => min n ((o.done + rate * (now - b) + unit - 1) / unit * unit)
  | _, _ => o.done

/-- An operation of a core's matrix set stopped: its part up to the boundary is done, the remainder stays in the queue (R353). -/
def State.stopOp (s : State) (core : Nat) (o : MatrixOp) : State :=
  let c := s.coreAt core
  let at_ := o.stopAt (s.coreTime core)
  let r := (s.applyMatrix c o [] at_).1
  let queue := r.matrix.queue.map fun x => if x.id = o.id then { x with begunAt := none, done := at_ } else x
  s.setCore { r with matrix := { r.matrix with queue := queue } }

/-! ## Saving (R451, R452) -/

/-- Whether a wave is part of a VI's saved context. -/
def Wave.savedWith (w : Wave) (vi : Nat) : Bool := w.env.vi == vi && w.lookoutOf.isNone && decide (w.status ≠ .absent)

/-- Pre-emption completes: the contexts are saved, and the cores are handed to the monitor. -/
def State.saveContext (s : State) (v : Vi) (p : Preemption) : State :=
  let cs := s.coresOf v.vi
  let ids := cs.map (·.id)
  let ws := s.allWaves.filter (·.savedWith v.vi)
  let nos := ws.map Wave.slotNo
  let ctx : SavedContext :=
    { vi := v.vi, cores := cs, waves := ws, blocks := s.hub.blocks.filter fun b => nos.contains b.home,
      poison := s.storePoison.filter fun x => ids.contains x.1 }
  let s := s.dropWaves (·.savedWith v.vi)
  let s := s.mapCores fun c => if ids.contains c.id then c.cleared else c
  let hub := { s.hub with saved := s.hub.saved ++ [ctx], blocks := s.hub.blocks.filter fun b => !nos.contains b.home }
  ({ s with hub := hub, storePoison := s.storePoison.filter fun x => !ids.contains x.1 } : State).setVi
    { v with preempt := some { p with waiting := [], saved := true } }

/-- The collector holds a report from every engine, or awaits one (R451). -/
def State.collect (s : State) (v : Vi) (p : Preemption) : State :=
  if p.waiting.isEmpty then s.saveContext v p else s.setVi { v with preempt := some p }

/-- PREEMPT_REQUEST (R448): an engine with no work of the VI reports at once. -/
def execPreemptRequest (vi : Nat) (s : State) : Out :=
  match s.viAt vi with
  | none => s.skip
  | some v =>
    if v.stands = false ∨ v.preempt.isSome = true then s.skip
    else
      let p : Preemption :=
        { since := s.clock.sectors, graceOver := if s.hub.pgrace = 0 then List.range 6 else [], waiting := s.enginesOf vi, saved := false }
      .next (s.collect v p).settleStops

/-- The sectors in which `PGRACE` core cycles have passed since a request. -/
def State.graceSectors (s : State) (p : Preemption) : List Nat :=
  (List.range 6).filter fun i =>
    p.graceOver.contains i || decide (p.since.getD i 0 / 8 + s.hub.pgrace ≤ s.clock.sectors.getD i 0 / 8)

/-- PGRACE_EXPIRY (R449): in the sectors whose clocks have run so far. -/
def execPgraceExpiry (vi : Nat) (s : State) : Out :=
  match (s.viAt vi).bind fun v => v.preempt.map fun p => (v, p) with
  | none => s.skip
  | some (v, p) =>
    let graced := s.graceSectors p
    if p.saved = true ∨ graced = p.graceOver then s.skip
    else .next (s.setVi { v with preempt := some { p with graceOver := graced } }).settleStops

/-- The operations that an engine must divide before it can stop (R353), with their core. -/
def State.toDivide (s : State) (vi : Nat) : Engine → List (Nat × MatrixOp)
  | .matrix c => (((s.coreAt c).matrixBusy vi).filter (·.divisible)).map fun o => (c, o)
  | _ => []

/-- ENGINE_STOPPED (R353, R450, R451, R462): an engine that the collector awaits stops at its unit, and reports. -/
def execEngineStopped (vi : Nat) (e : Engine) (s : State) : Out :=
  match (s.viAt vi).bind fun v => v.preempt.map fun p => (v, p) with
  | none => s.skip
  | some (v, p) =>
    if p.waiting.contains e = false then s.skip
    else if (s.toDivide vi e).isEmpty = false then .next ((s.toDivide vi e).foldl (fun s x => s.stopOp x.1 x.2) s)
    else if s.engineStopped vi e = false then s.skip
    else .next (s.collect v { p with waiting := p.waiting.erase e })

/-! ## Resuming (R453) -/

/-- A team's move from a core of the saved context to another core, with what it took on both. -/
structure Move where
  grid : Nat
  team : Nat
  old : Core
  oldRes : Resident
  new : Nat
  newRes : Resident

/-- The resident of a team on a core. -/
def Core.residentOf (c : Core) (grid team : Nat) : Option Resident := c.residents.find? fun r => r.grid == grid && r.team == team

/-- The move of one team from a saved core to the core where it is placed now. -/
def State.moveOf (s : State) (ctx : SavedContext) (grid team : Nat) (p : Nat × Nat) : Option Move :=
  match ctx.cores.find? (·.id == p.1) with
  | none => none
  | some o =>
    match o.residentOf grid team, (s.coreAt p.2).residentOf grid team with
    | some a, some b => some { grid := grid, team := team, old := o, oldRes := a, new := p.2, newRes := b }
    | _, _ => none

/-- A reach placed again (R137 to R139, R245), its teams' counts kept; with the moves of its teams. -/
def State.replace (s : State) (ctx : SavedContext) (gid : Nat) (x : Reach) : Option (State × List Move) :=
  match s.gridAt gid with
  | none => none
  | some g =>
    match s.choose g x with
    | none => none
    | some where_ =>
      let t := s.placeReach g x where_
      match (t.gridAt gid).bind (·.reachAt x.index) with
      | none => none
      | some y =>
        let teams := (x.teams.zip y.teams).map fun z => { z.2 with ended := z.1.ended, entry := z.1.entry }
        let u := match t.gridAt gid with
          | some g => t.setGrid (g.setReach { y with phase := x.phase, teams := teams })
          | none => t
        some (u, (x.teams.zip y.teams).flatMap fun z => (z.1.cores.zip z.2.cores).filterMap (u.moveOf ctx gid z.1.team))

/-- Every reach at work placed again, in the order of the grids; none when one fits nowhere. -/
def State.replaceAll (s : State) (ctx : SavedContext) : List (Nat × Reach) → Option (State × List Move)
  | [] => some (s, [])
  | (g, x) :: rest =>
    match s.replace ctx g x with
    | none => none
    | some (t, ms) =>
      match t.replaceAll ctx rest with
      | none => none
      | some (u, ns) => some (u, ms ++ ns)

/-- The move that takes along what a saved core held for all its teams: the first of those that leave it. -/
def Move.first (m : Move) (all : List Move) : Bool :=
  match all.find? fun n => n.old.id == m.old.id with
  | some n => n.grid == m.grid && n.team == m.team
  | none => false

/-- Whether the matrix set of a saved core goes along with a move: with its holder's, else with the first (R349, R452). -/
def Move.takesMatrix (m : Move) (all : List Move) : Bool :=
  let held := all.any fun n => n.old.id == m.old.id && m.old.matrix.holder == some (n.grid, n.team)
  if held then m.old.matrix.holder == some (m.grid, m.team) else m.first all

/-- The core that holds now what a core of the saved context held. -/
def movedTo (all : List Move) (core : Nat) : Nat := ((all.find? (·.old.id == core)).map (·.new)).getD core

/-- A channel send entry that names a core of the saved context names the core where its work is now (R453). -/
def reroute (all : List Move) (e : DWord) : DWord :=
  let at_ := chanAt (chStop e) (chEp e)
  if chValid e = false ∨ chReceives e = true ∨ 512 ≤ at_ then e
  else
    let n := movedTo all at_
    (e &&& 0xF003FFFFFFFFFFFF) ||| BitVec.ofNat 64 (chanStop n * 2 ^ 57 + chanEp n * 2 ^ 50)

/-- A packet of an outgoing buffer, to be offered again from its new core (R412, R453). -/
def ChanPacket.reroute (all : List Move) (p : ChanPacket) (core : Nat) : ChanPacket :=
  let at_ := chanAt p.stop p.ep
  let n := if 512 ≤ at_ then at_ else movedTo all at_
  { p with stop := chanStop n, ep := chanEp n, srcStop := chanStop core, srcEp := chanEp core, offered := false, offerAt := 0 }

/-- The local store of a team at its new place. -/
def Move.storeCells (m : Move) : Cells 8 :=
  (m.old.store.filter fun x => decide (m.oldRes.lbase ≤ x.1 ∧ x.1 < m.oldRes.lbase + m.oldRes.lsize)).map fun x =>
    (x.1 - m.oldRes.lbase + m.newRes.lbase, x.2)

/-- Poisoned sectors of the local store of a team at its new place. -/
def Move.storePoison (m : Move) (ps : List (Nat × Nat)) : List (Nat × Nat) :=
  (ps.filter fun x => x.1 == m.old.id && decide (m.oldRes.lbase ≤ 32 * x.2 ∧ 32 * x.2 < m.oldRes.lbase + m.oldRes.lsize)).map fun x =>
    (m.new, (32 * x.2 - m.oldRes.lbase + m.newRes.lbase) / 32)

/-- Saved bins bound on a core again, each to its lowest free bin; those that find none stay out (R117). -/
def Core.bindBins (c : Core) : List Bin → Core
  | [] => c
  | b :: bs =>
    match c.freeBin with
    | some i => ({ c with bins := c.bins ++ [{ b with index := i }] } : Core).bindBins bs
    | none => c.bindBins bs

/-- What belongs to one team alone restored on its new core: its run holds what it held, and nothing of an earlier team (R134). -/
def Core.restoreTeam (c : Core) (m : Move) : Core :=
  let store := c.store.filter fun x => !decide (m.newRes.lbase ≤ x.1 ∧ x.1 < m.newRes.lbase + m.newRes.lsize)
  let c := c.bindBins (m.old.bins.filter fun b => b.grid == m.grid && b.team == m.team)
  { c with store := m.storeCells.foldl (fun k x => Cells.write k x.1 x.2) store,
           residents := c.residents.map fun r =>
             if r.grid = m.grid ∧ r.team = m.team then { r with regsFreed := m.oldRes.regsFreed } else r }

/-- What a core held for all its teams restored on a new core (R452). -/
def Core.restoreShared (c : Core) (all : List Move) (m : Move) : Core :=
  let o := m.old
  let first := m.first all
  { c with tagmap := c.tagmap ||| o.tagmap, chsel := o.chsel,
           chtab := o.chtab.foldl (fun t x => Cells.write t x.1 (reroute all x.2)) c.chtab,
           chseq := o.chseq.foldl (fun t x => Cells.write t x.1 x.2) c.chseq,
           rxq := if first then c.rxq ++ o.rxq else c.rxq,
           outgoing := if first then c.outgoing ++ o.outgoing.map fun p => p.reroute all m.new else c.outgoing,
           matrix := if m.takesMatrix all then o.matrix else c.matrix,
           segment := o.segment, segText := o.segText, istore := o.istore,
           departure := c.departure ++ o.departure.map fun t => { t with src := m.new, departAt := 0 },
           landing := c.landing ++ o.landing, occSample := o.occSample, nextAge := max c.nextAge o.nextAge + 1 }

/-- The env of a wave, or of an operation of its team, at the new place. -/
def State.envAt (s : State) (e : Env) (core : Nat) : Env :=
  match (s.gridAt e.grid).bind fun g => (g.reachAt e.reach).map fun x => (g, x) with
  | none => e
  | some (g, x) =>
    match x.teams.find? (·.team == e.team) with
    | none => e
    | some t =>
      let n := s.envFor g x t e.waveid
      let runs := g.runs t
      { e with own := (runs.find? (·.core == core)).getD n.own, partner := runs.find? (·.core != core), window := n.window }

/-- The move of a wave slot of the saved context. -/
def slotMove (all : List Move) (e : Env) (core slot : Nat) : Option (Move × Nat) :=
  (all.find? fun m => m.grid == e.grid && m.team == e.team && m.old.id == core).bind fun m =>
    (m.oldRes.slots.findIdx? (· == slot)).bind fun i => (m.newRes.slots[i]?).map fun k => (m, k)

/-- The times of a saved wave on its new core, whose clock may stand elsewhere: what was waited for 64 cycles has been. -/
def Wave.rebase (w : Wave) (now : Nat) : Wave :=
  let at_ (b : Batch) : Batch := { b with closedAt := 0 }
  { w with stop := none, fenceAt := none, readySince := now, unserved := none, boostedAt := w.boostedAt.map (min now),
           svStart := w.svStart.map (min now), batches := w.batches.map at_ }

/-- A saved wave in its new slot. -/
def State.restoreWave (s : State) (all : List Move) (w : Wave) : State :=
  match slotMove all w.env w.core w.slot with
  | none => s
  | some (m, k) => s.putWave ({ w with core := m.new, slot := k, env := s.envAt w.env m.new }.rebase (s.coreTime m.new))

/-- An operation follows its wave. -/
def State.moveOp (s : State) (all : List Move) (o : AsyncOp) : AsyncOp :=
  match slotMove all o.env o.core o.slot with
  | none => o
  | some (m, k) => { o with core := m.new, slot := k, env := s.envAt o.env m.new }

/-- The queued matrix operations of a core follow their waves. -/
def State.moveMatrix (s : State) (all : List Move) (c : Core) : Core :=
  let at_ (o : MatrixOp) : MatrixOp :=
    match all.find? fun m => m.new == c.id && m.grid == o.env.grid && m.team == o.env.team with
    | none => o
    | some m =>
      let k := ((m.oldRes.slots.findIdx? (· == o.slot)).bind fun i => m.newRes.slots[i]?).getD o.slot
      { o with slot := k, env := s.envAt o.env c.id, issuedAt := 0, notBefore := s.coreTime c.id + 1 }
  { c with matrix := { c.matrix with queue := c.matrix.queue.map at_, undo := [] } }

/-- An opaque block moves with its wave slot (R433). -/
def moveBlock (all : List Move) (ws : List Wave) (b : OpaqueBlock) : OpaqueBlock :=
  match ws.find? fun w => w.slotNo == b.home with
  | none => b
  | some w =>
    match slotMove all w.env w.core w.slot with
    | some (m, k) => { b with home := m.new * 32 + k }
    | none => b

/-- A local store without the poison of a team's new run (R134). -/
def Move.clearPoison (m : Move) (ps : List (Nat × Nat)) : List (Nat × Nat) :=
  ps.filter fun x => !(x.1 == m.new && decide (m.newRes.lbase ≤ 32 * x.2 ∧ 32 * x.2 < m.newRes.lbase + m.newRes.lsize))

/-- The saved context restored on the cores where its reaches are placed now. -/
def State.restore (s : State) (ctx : SavedContext) (all : List Move) : State :=
  let s : State := { s with storePoison := all.foldl (fun ps m => Move.clearPoison m ps) s.storePoison }
  let s := all.foldl (fun s m => s.setCore (((s.coreAt m.new).restoreTeam m).restoreShared all m)) s
  let s := s.mapCores fun c => if all.any (·.new == c.id) then s.moveMatrix all c else c
  let s := ctx.waves.foldl (fun s w => s.restoreWave all w) s
  let ops := s.ops.map fun o => if o.env.vi = ctx.vi then s.moveOp all o else o
  let hub := { s.hub with saved := s.hub.saved.filter (·.vi != ctx.vi),
                          blocks := s.hub.blocks ++ ctx.blocks.map (moveBlock all ctx.waves) }
  { s with ops := ops, hub := hub, storePoison := s.storePoison ++ all.flatMap fun m => m.storePoison ctx.poison }

/-- The reaches of a VI that held cores when it was pre-empted. -/
def State.heldReaches (s : State) (vi : Nat) : List (Nat × Reach) :=
  (s.grids.filter (·.vi == vi)).flatMap fun g => (g.reaches.filter Reach.atWork).map fun x => (g.id, x)

/-- PREEMPT_RESUME (R34, R453): not possible while a reach fits nowhere. -/
def execPreemptResume (vi : Nat) (s : State) : Out :=
  match (s.viAt vi).bind fun v => v.preempt.bind fun p => (s.hub.saved.find? (·.vi == vi)).map fun c => (v, p, c) with
  | none => s.skip
  | some (v, p, ctx) =>
    if p.saved = false then s.skip
    else
      match s.replaceAll ctx (s.heldReaches vi) with
      | none => s.skip
      | some (t, all) =>
        let x := { v with preempt := none }
        .next ((t.restore ctx all).setVi (if v.phase = .frozen then x else x.wakeQueues)).settleStops

end Sys2Proof.Machine
end

