-- ==== Sys2Proof/Machine/HostLink.lean ====
section
/-!
DEFINITION. The accesses of the upstream host and of the control cores (R33, R35, R97, R99, R284, R399, R413, R467).
-/
namespace Sys2Proof.Machine

/-- The keys of a range of physical memory; none outside the tensor range of the package (R3, R272, R273) and the control ranges of the
domain's members (R51). -/
def State.hostKeys (s : State) (t : HostTarget) (n : Nat) : Option (List Nat) :=
  match t with
  | .tensor a => if a + n ≤ s.tensorBytes then some ((List.range n).map (a + ·)) else none
  | .control a =>
    if a + n ≤ 2 ^ 39 ∧ a / 2 ^ 35 = (a + n - 1) / 2 ^ 35 ∧ s.isMember (a / 2 ^ 35) = true then
      some ((List.range n).map (2 ^ 40 + a + ·))
    else none
  | .kickPage _ _ => none
  | .faultPage _ _ => none
  | .endpoint _ _ => none

/-- Whether a VI's allocation holds a key of the range. -/
def Vi.touched (v : Vi) (ks : List Nat) : Bool := ks.any v.owns

/-- Whether the range belongs to a frozen VI, which holds the access (R33). -/
def State.hostHeld (s : State) (ks : List Nat) : Bool := s.vis.any fun v => decide (v.phase = .frozen) && v.touched ks

/-- Whether it belongs to a VI that is being torn down: the access completes as for an absent VI (R33). -/
def State.hostRefused (s : State) (ks : List Nat) : Bool := s.vis.any fun v => decide (v.phase = .teardown) && v.touched ks

/-- Whether the processor side of a key is at hand: its region is the processor's, its control line is held, no keeper holds it (R284,
R289, R366). -/
def State.hostAtHand (s : State) (write : Bool) (k : Nat) : Bool :=
  !s.keeperHolds k &&
    if k < 2 ^ 40 then s.hub.regions.all fun r => r.region != k / 2 ^ 21 || !r.accel
    else s.lineRight (lineOf k) write || s.lineGone k

/-- What an access of the processor side waits for is asked for (R284, R366). -/
def State.hostAsk (s : State) (write : Bool) (k : Nat) : State :=
  if s.hostAtHand write k then s
  else if k < 2 ^ 40 then
    { s with hub := { s.hub with regions := s.hub.regions.map fun r =>
        if r.region = k / 2 ^ 21 ∧ r.accel = true then { r with wanted := true } else r } }
  else s.askFor 0 0 write (.mem k)

/-! ## The kick page (R97, R99 to R101) -/

/-- The status register of a queue (R99). -/
def Queue.status (x : Queue) : DWord := BitVec.ofNat 64 (x.qst * 2 ^ 32 + x.qacc)

/-- A read of the register at a multiple of 8 in a VI's kick page, with its value (R97, R99): zero where there is none or the read is
denied, and then the VI is told; what a kick register reads as is not stated. -/
def State.pageRegister (s : State) (vi off : Nat) (o : Origin) : State × DWord :=
  match (s.viAt vi).bind fun v => v.queueAt (off / 16) with
  | none => (s, 0)
  | some x =>
    if s.granted vi .supervisor 1 (off / 16) (originRight o) = false then (s.freeze vi 1, 0)
    else if off % 16 = 8 then (s, x.status)
    else (s.openValue.2, s.openValue.1)

/-- The registers at the offsets given, read in order, as bytes. -/
def State.pageRead (s : State) (vi : Nat) (o : Origin) : List Nat → State × List Byte
  | [] => (s, [])
  | off :: offs =>
    let x := s.pageRegister vi off o
    let r := x.1.pageRead vi o offs
    (r.1, bytesOf 8 x.2.toNat ++ r.2)

/-- The offsets of the 8-byte registers that a range of the page meets. -/
def pageOffsets (off n : Nat) : List Nat := (List.range ((off + n + 7) / 8 - off / 8)).map fun i => 8 * (off / 8 + i)

/-- A write to the kick page (R97, R99 to R101): each register that it covers takes its value; a part of a register is no command (log
entry 116), and an offset that holds no register ignores it. -/
def State.pageWrite (s : State) (vi off : Nat) (bytes : List Byte) (o : Origin) : List Nat → State
  | [] => s
  | k :: ks =>
    let x := BitVec.ofNat 64 (fieldAt bytes (k - off) 8)
    let t :=
      if k < off ∨ off + bytes.length < k + 8 then s
      else
        match (if k % 16 = 0 then s.kickWrite vi (k / 16) x o else s.statusWrite vi (k / 16) x o) with
        | .next u => u
        | _ => s
    t.pageWrite vi off bytes o ks

/-! ## The fault page (R371) -/

/-- A write to a VI's fault page: a whole command at offset 0 resumes or aborts the stream of its record; anything else is ignored. -/
def State.faultPageWrite (s : State) (vi off : Nat) (bytes : List Byte) : State :=
  let x := fieldAt bytes 0 8
  if off ≠ 0 ∨ bytes.length < 8 ∨ (x / 2 ^ 32 ≠ 1 ∧ x / 2 ^ 32 ≠ 2) then s
  else
    match s.answerFault vi (x % 2 ^ 32) (if x / 2 ^ 32 = 1 then opStreamResume else opStreamAbort) with
    | .next t => t
    | _ => s

/-! ## An endpoint's register page (R413) -/

/-- A read of the register at a multiple of 8 of an endpoint's page, with its value; what a register that is only written, or an offset
that holds none, reads as is not stated. -/
def State.endpointRegister (s : State) (ep off : Nat) : State × DWord :=
  match s.endpointAt ep with
  | none => s.openValue.swap
  | some e =>
    if off = 0x108 then (s, BitVec.ofNat 64 (e.ignored * 2 ^ 32 + e.outgoing.length))
    else if 0x200 ≤ off ∧ off < 0x300 then (s, BitVec.ofNat 64 (numOf (Cells.readList e.cpin (off - 0x200) 8)))
    else if off = 0x308 then
      match execCppoll ep s with
      | .next t => (t, ((t.endpointAt ep).map (·.polled)).getD 0)
      | _ => (s, 0)
    else if 0x400 ≤ off ∧ off < 0x600 then (s, Cells.read e.chtab ((off - 0x400) / 8))
    else s.openValue.swap

/-- The registers at the offsets given, read in order, as bytes. -/
def State.endpointRead (s : State) (ep : Nat) : List Nat → State × List Byte
  | [] => (s, [])
  | off :: offs =>
    let x := s.endpointRegister ep off
    let r := x.1.endpointRead ep offs
    (r.1, bytesOf 8 x.2.toNat ++ r.2)

/-- A write to a register of an endpoint's page: the payload, a send, a take or an entry of the table; others ignore it. -/
def State.endpointStore (s : State) (ep off : Nat) (x : DWord) : Out :=
  if off < 0x100 then execRegisterWrite (.endpoint ep off) x s
  else if off = 0x100 then execCpsend ep x s
  else if off = 0x300 then execCprecv ep x s
  else if 0x400 ≤ off ∧ off < 0x600 then execCptabWrite ep ((off - 0x400) / 8) x s
  else s.skip

/-- A write to an endpoint's page: each register that it covers takes its value, and a part of a register is ignored (log entry 116). -/
def State.endpointWrite (s : State) (ep off : Nat) (bytes : List Byte) : List Nat → State
  | [] => s
  | k :: ks =>
    let t :=
      if k < off ∨ off + bytes.length < k + 8 then s
      else
        match s.endpointStore ep k (BitVec.ofNat 64 (fieldAt bytes (k - off) 8)) with
        | .next u => u
        | _ => s
    t.endpointWrite ep off bytes ks

/-! ## Accesses (R33, R97, R284, R399, R467) -/

/-- The origin of an access. -/
def HostRequest.origin (r : HostRequest) : Origin := if r.control then .controlCore else .host

/-- What an origin gets as an answer. -/
def State.answerTo (s : State) (o : Origin) (a : HostAnswer) : State :=
  match o with
  | .host => { s with hub := { s.hub with hostReads := s.hub.hostReads ++ [a] } }
  | .controlCore => { s with hub := { s.hub with controlReads := s.hub.controlReads ++ [a] } }

/-- An access to memory that nothing holds back: only the partition monitor can write a capability table (R95), poison is told to the
reader (R467), and the slices hold no line for it (R277). -/
def State.hostPerform (s : State) (r : HostRequest) (ks : List Nat) : State :=
  if r.write then
    let bs := (ks.zip r.bytes).filter fun x => r.control || !s.inCapTable x.1
    let ps := bs.map fun x => Place.mem x.1
    ((s.setBytes ps (bs.map (·.2))).clearCovered ps).written none 3 ps
  else
    let ps := ks.map Place.mem
    (s.homeReads 3 ps).answerTo r.origin (if ps.any s.poisoned then .poisoned else .data (ps.map s.released))

/-- The number of bytes of an access. -/
def HostRequest.size (r : HostRequest) : Nat := if r.write then r.bytes.length else r.len

/-- Whether an access of the host is held for a frozen VI, or refused for one that is torn down (R33); a control core's is not. -/
def State.hostStops (s : State) (r : HostRequest) (ks : List Nat) : Bool := !r.control && s.hostHeld ks

/-- Whether a write to a kick page starts a queue whose descriptor is not at hand (R276). -/
def State.startWaits (s : State) (vi off : Nat) (bytes : List Byte) : Bool :=
  (pageOffsets off bytes.length).any fun k => k % 16 == 8 && decide (off ≤ k) && fieldAt bytes (k - off) 8 == 1 &&
    match s.viAt vi with
    | some v => v.commanded && !s.tableReady v false (0x10000 + 2 * (k - 8)) 32
    | none => false

/-- An access performed, or refused for a VI that is absent; none when it must wait. A read of the fault page gives a free value
(log entry 106). -/
def State.hostNow (s : State) (r : HostRequest) : Option State :=
  match r.target with
  | .kickPage vi off =>
    if s.pageReached vi r.origin = false ∨ (s.viAt vi).isNone = true ∨ 4096 < off + r.size then some s
    else if r.write = true ∧ s.startWaits vi off r.bytes = true then none
    else if r.write then some (s.pageWrite vi off r.bytes r.origin (pageOffsets off r.size))
    else
      let x := s.pageRead vi r.origin (pageOffsets off r.size)
      some (x.1.answerTo r.origin (.data ((x.2.drop (off % 8)).take r.len)))
  | .faultPage vi off =>
    if r.control = false then some s
    else if r.write then some (s.faultPageWrite vi off r.bytes)
    else
      let x := s.openValue
      some (x.2.answerTo r.origin (.data (padTo r.len ((bytesOf 8 x.1.toNat).drop off))))
  | .endpoint ep off =>
    if r.control = false ∨ 4096 < off + r.size then some s
    else if r.write then some (s.endpointWrite ep off r.bytes (pageOffsets off r.size))
    else
      let x := s.endpointRead ep (pageOffsets off r.size)
      some (x.1.answerTo r.origin (.data ((x.2.drop (off % 8)).take r.len)))
  | t =>
    match s.hostKeys t r.size with
    | none => some s
    | some ks =>
      if s.hostStops r ks then none
      else if r.control = false ∧ s.hostRefused ks = true then some (if r.write then s else s.answerTo .host .viAbsent)
      else if ks.all (s.hostAtHand r.write) then some (s.hostPerform r ks) else none

/-- An access that waits asks for what it waits for. -/
def State.hostWants (s : State) (r : HostRequest) : State :=
  match r.target with
  | .kickPage vi _ =>
    match s.viAt vi with
    | some v => s.tableAsk v false 0x10000 (32 * v.desc.qcount)
    | none => s
  | .faultPage _ _ => s
  | .endpoint _ _ => s
  | t =>
    match s.hostKeys t r.size with
    | some ks => if s.hostStops r ks then s else ks.foldl (fun s k => s.hostAsk r.write k) s
    | none => s

/-- Whether an access must wait behind another (R399): no access of the host passes an earlier write of the host. -/
def HostRequest.behind (r x : HostRequest) : Bool := !r.control && !x.control && x.write

/-- An access arrives: it is performed, or held (R33, R284, R366, R399). -/
def State.hostArrives (s : State) (r : HostRequest) : State :=
  let held : State := { s with hub := { s.hub with hostHeld := s.hub.hostHeld ++ [r] } }
  if s.hub.hostHeld.any r.behind then held
  else
    match s.hostNow r with
    | some t => t
    | none => held.hostWants r

/-- A held access is tried again. -/
def State.retryHeld (s : State) (n : Nat) : Out :=
  match s.hub.hostHeld[n]? with
  | none => s.skip
  | some r =>
    if (s.hub.hostHeld.take n).any r.behind then s.skip
    else
      match ({ s with hub := { s.hub with hostHeld := s.hub.hostHeld.eraseIdx n } } : State).hostNow r with
      | some t => .next t
      | none => .next (s.hostWants r)

/-- HOST_POSTED_WRITE (R97, R99 to R101, R399). A value that is no command is ignored, and so is every offset of the kick page that
holds no register. -/
def execHostPostedWrite (t : HostTarget) (bytes : List Byte) (s : State) : Out :=
  if s.platform.linkUp = false ∨ bytes = [] then s.skip
  else .next (s.hostArrives { write := true, target := t, bytes := bytes, len := 0 })

/-- HOST_READ (R97, R99, R399, R467). -/
def execHostRead (t : HostTarget) (len : Nat) (s : State) : Out :=
  if s.platform.linkUp = false ∨ len = 0 then s.skip
  else .next (s.hostArrives { write := false, target := t, bytes := [], len := len })

/-- A control core writes, or reads (R97, R99, R284). -/
def State.controlAccess (s : State) (r : HostRequest) : Out := if r.size = 0 then s.skip else .next (s.hostArrives { r with control := true })

end Sys2Proof.Machine
end

