-- ==== Sys2Proof/Machine/Moves.lean ====
section
/-!
DEFINITION. Special reads, `fpc` and moves of 0x19 (R127, R220 to R222).
-/
namespace Sys2Proof.Machine

/-- The special value of selector 1 to 7 (R127, R176). -/
def Wave.special (w : Wave) (n : Nat) : DWord :=
  let e := w.env
  BitVec.ofNat 64 (match n with
    | 1 => e.waveid
    | 2 => e.team
    | 3 => w.core
    | 4 => e.wavew
    | 5 => e.team % e.gx
    | 6 => e.team / e.gx % e.gy
    | _ => e.team / e.gx / e.gy)

/-- Whether an earlier instruction that can raise flags has not completed (R221). -/
def Wave.flagsPending (w : Wave) : Bool :=
  w.ll.any fun o => o.writes.any fun x => match x with
    | .flags _ => true
    | .vec _ _ _ => false
    | .scal _ _ => false

/-- SRD (R127, R220): selector 0 writes `laneid` in the active lanes, the others write a scalar. -/
def execSrd (d sel : BitVec 7) (s : State) : Out :=
  if sel = 0 then s.group { vs := [d.toNat] } fun _ => s.vecLanes d.toNat fun l => BitVec.ofNat 32 l
  else s.group { ss := [d.toNat] } fun _ => s.scalarResult d.toNat (s.wave.special sel.toNat)

/-- FPCRD (R221): `fpc`, after every earlier instruction that can raise flags. -/
def execFpcrd (d : BitVec 7) (s : State) : Out :=
  s.group { ss := [d.toNat] } fun _ =>
    if s.wave.flagsPending then s.wait else s.scalarResult d.toNat s.wave.arch.fpc

/-- FPCWR (R221): `fpc` replaced by bits [14:0]. -/
def execFpcwr (a : BitVec 7) (s : State) : Out :=
  s.group { ss := [a.toNat] } fun _ =>
    if s.wave.flagsPending then s.wait
    else ({ s with wave := s.wave.setFpc (s.wave.s a.toNat &&& 0x7FFF) } : State).done

/-- VMOV (R222). -/
def execVmov (d a : BitVec 7) (s : State) : Out :=
  s.group { vs := [d.toNat, a.toNat] } fun _ => s.vecLanes d.toNat fun l => s.wave.v a.toNat l

/-- VMOVS (R222). -/
def execVmovs (d a : BitVec 7) (s : State) : Out :=
  s.group { vs := [d.toNat], ss := [a.toNat] } fun _ => s.vecLanes d.toNat fun _ => (s.wave.s a.toNat).setWidth 32

/-- SMOVV (R222): a lane named by a scalar, read whatever `exm` holds. -/
def execSmovv (d a b : BitVec 7) (s : State) : Out :=
  s.group { vs := [a.toNat], ss := [d.toNat, b.toNat] } fun _ =>
    s.scalarResult d.toNat ((s.wave.v a.toNat ((s.wave.s b.toNat).toNat % 64 % s.wave.env.wavew)).setWidth 64)

/-- VINS (R222): one lane written when it is active. -/
def execVins (d a b : BitVec 7) (s : State) : Out :=
  s.group { vs := [d.toNat], ss := [a.toNat, b.toNat] } fun _ =>
    let k := (s.wave.s b.toNat).toNat % 64 % s.wave.env.wavew
    let ls := s.wave.active.filter (· == k)
    ({ s with wave := s.wave.writeLanes d.toNat (fun _ => (s.wave.s a.toNat).setWidth 32) ls } : State).done

/-- P2S (R222). -/
def execP2s (d a : BitVec 7) (s : State) : Out :=
  s.group { ss := [d.toNat] } fun _ => s.scalarResult d.toNat (s.wave.pred a.toNat)

/-- S2P (R222): every bit below `wavew`, whatever `exm` holds. -/
def execS2p (d a : BitVec 7) (s : State) : Out :=
  s.group { ss := [a.toNat] } fun _ => ({ s with wave := s.wave.setPred d.toNat (s.wave.s a.toNat) } : State).done

end Sys2Proof.Machine
end

