-- ==== Sys2Proof/Machine/Ports.lean ====
section
/-!
DEFINITION. Crica ports: training (R360, R361), security and the lock state machine (R362 to R364), link state, the loss of a peer
and the takeover of its lines (R471 to R475).
-/
namespace Sys2Proof.Machine

/-- A meaning on a port. -/
def State.onPort (s : State) (n : Nat) (k : Port → Out) : Out :=
  match s.portAt n with
  | some x => k x
  | none => s.skip

/-! ## Training (R360, R361) -/

/-- The width that a set of good lanes allows: one, two or four. -/
def laneWidth (lanes : BitVec 4) : Nat :=
  let n := ((List.range 4).filter fun i => lanes.getLsbD i).length
  if n = 4 then 2 else if 2 ≤ n then 1 else 0

/-- An attempt of a port begins at the highest speed; which lanes are good, and how they map, is the physical layer's (log entry
33). -/
def State.beginTraining (s : State) (x : Port) (tries : Nat) : State :=
  let v := s.openValue
  let lanes : BitVec 4 := v.1.setWidth 4
  v.2.setPort { Port.idle x.n with
    state := .training, peer := x.peer, tries := tries, lanes := lanes, speed := 2, width := laneWidth lanes,
    laneMap := (v.1 >>> 8).setWidth 8, replays := x.replays, sent := s.clock.us }

/-- PORT_TRAINING (R361): the monitor trains a port; a port marked failed counts its attempts anew. -/
def execPortTraining (n : Nat) (s : State) : Out :=
  s.onPort n fun x =>
    if x.state = .untrained ∨ x.state = .failed then .next (s.beginTraining x 0) else s.skip

/-- The fields of the capability record of a port (R360). -/
def State.capFields (s : State) (x : Port) : CapRecord :=
  { pkg := s.pkg, port := x.n, dom := s.platform.record.domsize, peer := x.peer, lanes := x.lanes, speed := x.speed,
    width := x.width, laneMap := x.laneMap, attempt := x.tries + 1 }

/-- The record with its CRC, as it is sent. -/
def State.capRecord (s : State) (x : Port) : CapRecord := { s.capFields x with crc := recordCrc (s.capFields x) }

/-- CAPABILITY_RECORD_SEND (R361): once per microsecond. -/
def execCapabilityRecordSend (n : Nat) (s : State) : Out :=
  s.onPort n fun x =>
    if x.state ≠ .training ∨ s.clock.us < x.sent + 1 then s.skip
    else
      let s := s.setPort { x with sent := s.clock.us }
      .next { s with fabric := { s.fabric with records := s.fabric.records ++ [(n, s.capRecord x)] } }

/-- A failed attempt (R361): the third in a row marks the port failed. -/
def State.attemptFailed (s : State) (x : Port) : State :=
  if 2 ≤ x.tries then s.setPort { x with state := .failed, tries := x.tries + 1 } else s.beginTraining x (x.tries + 1)

/-- Whether a record's settings are not those of the port. -/
def recordDiffers (r : CapRecord) (x : Port) : Bool := decide (r.width ≠ x.width ∨ r.speed ≠ x.speed ∨ r.laneMap ≠ x.laneMap)

/-- Whether a record is valid (R360, R361). -/
def recordValid (r : CapRecord) : Bool := r.crc == recordCrc r && decide (r.speed < 3 ∧ r.width < 3)

/-! The SPDM exchange of a port (R362, log entry 118): sixteen messages in turn, from the requester, which is the end with the lower
package index: GET_VERSION, GET_CAPABILITIES, NEGOTIATE_ALGORITHMS, GET_DIGESTS, GET_CERTIFICATE, GET_MEASUREMENTS, KEY_EXCHANGE and
FINISH, each with its answer. -/

/-- The measurement blocks of this package, indices 1 to 4 (R362). -/
def State.measurementBlocks (s : State) : List (List Byte) :=
  let bs := s.platform.recordBytes
  [bytesOf 4 s.platform.record.secver, (bs.drop 0x50).take 48, (bs.drop 0x80).take 48, sha384 (bs.take 256)]

/-- Whether this end of a port is the requester (R362). -/
def State.requests (s : State) (x : Port) : Bool := decide (s.pkg < x.peer)

/-- The payload of message `n` as far as the spec gives it: message 11 answers GET_MEASUREMENTS. -/
def State.spdmPayload (s : State) (n : Nat) : List Byte := if n = 11 then s.measurementBlocks.flatten else []

/-- Message `n` of the exchange is sent by this end, and counted; FINISH and its answer end the exchange. -/
def State.sendSpdm (s : State) (port n : Nat) : State :=
  match s.portAt port with
  | none => s
  | some x => (s.setPort { x with spdm := n + 1 }).sendOn (s.spdmPacket x.peer (if 14 ≤ n then 1 else 0) n (s.spdmPayload n)) port

/-- A port that has become unlocked: the requester begins the exchange. -/
def State.startSpdm (s : State) (x : Port) : State :=
  let t := s.setPort { x with state := .unlocked, tries := 0, spdm := 0 }
  if s.requests x then t.sendSpdm x.n 0 else t

/-- CAPABILITY_RECORD (R25, R361): a record that is not valid is passed over; the wrong peer fails the port; different settings
train again at the lowest common ones, and with no common lane the attempt has failed; equal ones unlock the port. A record that changes
settings that are frozen puts the port in the error state (R364). -/
def execCapabilityRecord (n : Nat) (r : CapRecord) (s : State) : Out :=
  s.onPort n fun x =>
    if (x.state = .locked ∨ x.state = .running) ∧ recordValid r = true ∧ recordDiffers r x = true then .next (s.portError x)
    else if x.state ≠ .training then s.skip
    else if recordValid r = false then .next s
    else if r.pkg ≠ x.peer ∨ r.peer ≠ s.pkg ∨ r.dom ≠ s.platform.record.domsize then .next (s.setPort { x with state := .failed })
    else if recordDiffers r x then
      let lanes := x.lanes &&& r.lanes
      let map := if x.laneMap < r.laneMap then x.laneMap else r.laneMap
      let y : Port := { x with
        lanes := lanes, speed := min x.speed r.speed, width := min (min x.width r.width) (laneWidth lanes), laneMap := map
        sent := s.clock.us }
      .next (if lanes = 0 then s.attemptFailed x else s.setPort y)
    else .next (s.startSpdm x)

/-- LOSS_OF_TRAINING (R361, R364): a port that is training fails its attempt; any other goes to the error state. -/
def execLossOfTraining (n : Nat) (s : State) : Out :=
  s.onPort n fun x =>
    match x.state with
    | .training => .next (s.attemptFailed x)
    | .unlocked => .next (s.portError x)
    | .locked => .next (s.portError x)
    | .running => .next (s.portError x)
    | _ => s.skip

/-- LINK_REPLAY (R357): the flit comes again; nothing but a count shows it. -/
def execLinkReplay (n : Nat) (s : State) : Out :=
  s.onPort n fun x =>
    if x.state = .unlocked ∨ x.state = .locked ∨ x.state = .running then .next (s.setPort { x with replays := x.replays + 1 })
    else s.skip

/-- PORT_RETRAIN (R364). -/
def execPortRetrain (n : Nat) (s : State) : Out :=
  s.onPort n fun x => if x.state = .error then .next (s.beginTraining x 0) else s.skip

/-! ## Security (R362 to R364) -/

/-- What an SPDM packet does to the exchange (log entry 118). -/
def spdmStepOf (p : FabPacket) : SpdmStep :=
  match (p.opnd.getD 0 0).toNat with
  | 0 => .progress
  | 1 => .finish
  | 3 => .keyUpdate
  | _ => .fail

/-- The exchange of an unlocked port goes on: this end answers a request, or makes the next one. -/
def State.spdmNext (s : State) (n : Nat) (x : Port) : State :=
  let t := s.setPort { x with spdm := x.spdm + 1 }
  if x.spdm + 1 < 16 then t.sendSpdm n (x.spdm + 1) else t

/-- FINISH, or its answer, has come: the other end's data key holds, and its counter starts (R363); the responder answers. -/
def State.spdmFinish (s : State) (n : Nat) (x : Port) : State :=
  let t := if s.requests x then s.setPort { x with spdm := x.spdm + 1 } else s.spdmNext n x
  match t.portAt n with
  | some y => t.setPort { y with finished := true, rxCount := 0 }
  | none => t

/-- An SPDM packet that its port has accepted. -/
def State.spdmStep (s : State) (n : Nat) (x : Port) (m : SpdmStep) : State :=
  match x.state, m with
  | .unlocked, .progress => s.spdmNext n x
  | .unlocked, .finish => s.spdmFinish n x
  | .unlocked, _ => s.portError x
  | .locked, .keyUpdate => s.setPort { x with rxEpoch := x.rxEpoch + 1, rxCount := 0 }
  | .running, .keyUpdate => s.setPort { x with rxEpoch := x.rxEpoch + 1, rxCount := 0 }
  | .locked, .fail => s.portError x
  | .running, .fail => s.portError x
  | .locked, _ => s.setPort { x with spdm := x.spdm + 1 }
  | .running, _ => s.setPort { x with spdm := x.spdm + 1 }
  | _, _ => s

/-- SPDM_MESSAGE (R362 to R364). -/
def execSpdmMessage (n : Nat) (p : FabPacket) (s : State) : Out :=
  s.receive p opSpdm fun s => s.onPort n fun x => if p.port = n then .next (s.spdmStep n x (spdmStepOf p)) else s.skip

/-- MEASUREMENT_ACCEPT (R364). -/
def execMeasurementAccept (n : Nat) (ok : Bool) (s : State) : Out :=
  s.onPort n fun x =>
    if x.state ≠ .unlocked ∨ (ok = true ∧ x.finished = false) then s.skip
    else .next (if ok then s.setPort { x with state := .locked } else s.portError x)

/-- A locked port runs once both monitors have commanded it (R364). -/
def Port.settle (x : Port) : Port :=
  if x.state = .locked ∧ x.runCommanded = true ∧ x.peerRun = true then { x with state := .running } else x

/-- PORT_RUN_COMMAND (R364). -/
def execPortRunCommand (n : Nat) (s : State) : Out :=
  s.onPort n fun x =>
    if x.state = .unlocked ∨ x.state = .locked ∨ x.state = .running then
      .next (s.setPort (Port.settle { x with runCommanded := true }))
    else s.skip

/-- KEY_UPDATE (R363): the other end is told, and the sending counter of this end starts anew with the new key. -/
def execKeyUpdate (n : Nat) (s : State) : Out :=
  s.onPort n fun x =>
    if x.state = .locked ∨ x.state = .running then .next (s.updateKey n) else s.skip

/-! ## Link state (R359, R364, R471) -/

/-- The peers to which this package has a running bundle. -/
def State.runningPeers (s : State) : List Nat := s.members.filter fun p => p != s.pkg && s.reachable p

/-- The link-state packet of a port: in its operands the run command and the running bundles. -/
def State.linkPacket (s : State) (dst : Nat) (run : Bool) : FabPacket :=
  let mask := s.runningPeers.foldl (fun n p => n + 2 ^ p) 0
  { s.packet dst opLinkState with opnd := [BitVec.ofNat 64 ((if run then 1 else 0) + mask * 2 ^ 8)] }

/-- LINK_STATE_SEND (R364, R471): every 10 microseconds, on each port that carries link-state packets, and relayed to the members
that no port leads to. -/
def execLinkStateSend (s : State) : Out :=
  if s.clock.us < s.fabric.linkSent + 10 then s.skip
  else
    let ports := s.fabric.ports.filter fun x => decide (x.state = .unlocked ∨ x.state = .locked ∨ x.state = .running)
    let far := s.members.filter fun m => m != s.pkg && !s.reachable m
    let s := { s with fabric := { s.fabric with linkSent := s.clock.us } }
    let s := ports.foldl (fun s x => s.sendOn (s.linkPacket x.peer x.runCommanded) x.n) s
    .next (far.foldl (fun s m => s.post (s.linkPacket m false)) s)

/-- What a link-state packet reports. -/
def linkReportOf (p : FabPacket) : LinkReport :=
  let x := (p.opnd.getD 0 0).toNat
  { sender := p.src, runCommanded := x % 2 = 1, bundles := (List.range 16).filter fun i => x / 2 ^ (8 + i) % 2 = 1 }

/-- A link-state packet that its port has accepted: the sender is alive; its bundles and its run command are noted. -/
def State.linkReported (s : State) (x : Port) (l : LinkReport) : State :=
  let f := s.fabric
  let heard := (l.sender, s.clock.us) :: f.heard.filter fun y => y.1 != l.sender
  let bundles := (l.sender, l.bundles) :: f.bundles.filter fun y => y.1 != l.sender
  let s := { s with fabric := { f with heard := heard, bundles := bundles } }
  if x.peer = l.sender then s.setPort (Port.settle { x with peerRun := l.runCommanded }) else s

/-- LINK_STATE (R359, R364, R471). -/
def execLinkState (n : Nat) (p : FabPacket) (s : State) : Out :=
  s.receive p opLinkState fun s => s.onPort n fun x => if p.port = n then .next (s.linkReported x (linkReportOf p)) else s.skip

/-! ## Losing a peer (R471 to R475) -/

/-- A list of changes made one after another. -/
def State.each {α : Type} (s : State) (xs : List α) (f : State → α → State) : State := xs.foldl f s

/-- Every operation with a request to the lost package, and every collective that includes it, ends with the peer-lost status
(R379, R472). -/
def State.failLost (s : State) (pkg : Nat) : State :=
  let s := s.each (s.fabric.requests.filter fun r => !r.control && r.packet.dst == pkg) fun s r =>
    match s.requestAt r.tag with
    | some r => s.failRequest r .peerLost
    | none => s
  let included := s.ops.filter fun o => !o.ended && o.started &&
    match s.collOf o with
    | some c => c.members.any fun i => (s.viewOf o.env.vi i).any fun m => m.pkg == pkg
    | none => false
  s.each included fun s o =>
    match s.opAt o.id with
    | some o => s.endOp o .peerLost
    | none => s

/-- A control request to the lost package goes to the new home; with both homes lost, it counts as consumed poison (R473, R474). -/
def State.resendControl (s : State) (r : Request) : State :=
  match s.homeFor (lineKey (packetLine r.packet)) with
  | none =>
    match s.wantedFor r.tag with
    | some (g, x) => (s.wantDone r.tag).soon (.op (.poisonConsumed g x))
    | none => s.wantDone r.tag
  | some h =>
    let p := { r.packet with dst := h }
    if h = s.pkg then (s.dropRequest r.tag).deliverTo p else s.resend { r with packet := p }

/-- An entry without a package: a line that it owned goes back to its home's value, and nobody has a copy (R367, R473). -/
def DirEntry.without (e : DirEntry) (pkg : Nat) : DirEntry :=
  if e.owner = pkg ∧ e.st ≠ .invalid ∧ e.st ≠ .shared then { e with st := .invalid, sharers := 0 }
  else { e with sharers := e.sharers &&& ~~~(pkgBit pkg) }

/-- One entry of this package's directory after a loss: the copies of a line that goes back are recalled. -/
def State.restoreEntry (s : State) (pkg : Nat) (e : DirEntry) : State :=
  let f := e.without pkg
  if f.st = e.st then { s with control := s.control.setEntry f }
  else if (s.txnAt e.line).isSome then { s with control := s.control.setEntry f }
  else
    let others := (sharersOf e.sharers).filter fun x => x != s.pkg && x != pkg && !s.fabric.lost.contains x
    let s := if s.control.copies.any (·.1 == e.line) then s.dropCopy e.line else s
    let s := { s with control := s.control.setEntry f }
    let p := { s.controlPacket s.pkg opInvalidate e.line 0 with payload := s.lineBytes e.line }
    let t : HomeTxn := { line := e.line, req := p, phase := .collecting, acks := others, entry := f, data := none, sends := [] }
    if others.isEmpty then s
    else
      let s := { s with control := { s.control with txns := s.control.txns ++ [t] } }
      others.foldl (fun s x => s.post (s.controlPacket x opInvalidate e.line 0)) s

/-- A request that the home serves while a package is lost: nothing more is awaited of that package. -/
def State.restoreTxn (s : State) (pkg : Nat) (mirrorLost : Bool) (t : HomeTxn) : State :=
  let owner := (s.dirEntry t.line).owner
  let t := { t with acks := t.acks.filter (· != pkg), entry := t.entry.without pkg, sends := t.sends.filter (·.dst != pkg) }
  match t.phase with
  | .collecting =>
    if t.acks.isEmpty then
      s.collected t (if t.req.payload.isEmpty then s.lineBytes t.line else t.req.payload) t.req.poisoned
    else s.setTxn t
  | .mirroring => if mirrorLost then s.install t else s.setTxn t
  | .forwarding =>
    if t.acks.isEmpty then s.endTxn t.line
    else if owner = pkg then
      let e : DirEntry := { line := t.line, st := .shared, sharers := pkgBit t.req.src, owner := 0 }
      let q := s.controlAnswer t.req opDataShared (s.homeBytes t.line) (s.linePoison t.line)
      (({ s with control := s.control.setEntry e } : State).deliverTo q).endTxn t.line
    else s.setTxn t

/-- The mirror home takes over a line of the lost package: the mirrored value and entry (R473). A copy that this package has stays
beside the value. -/
def State.adopt (s : State) (pkg : Nat) (e : DirEntry) : State :=
  let bytes := Cells.readList (w := 8) s.mem (2 ^ 41 + 128 * e.line) 128
  let s := if s.control.copies.any (·.1 == e.line) then
      { s with control := { s.control with backing := (e.line, bytes) :: s.control.backing.filter (·.1 != e.line) } }
    else s.setLine e.line bytes false
  let s := { s with control := { s.control.setEntry e with mirror := s.control.mirror.filter (·.line != e.line) } }
  s.restoreEntry pkg e

/-- The partition monitor tells a VI of the loss, once the line of the record is at hand (R276, R475). -/
def State.tellLoss (s : State) (pkg : Nat) (v : Vi) : State :=
  match v.view.find? (·.pkg == pkg) with
  | none => s
  | some m =>
    if s.tableReady v true 0x14000 16 then
      let n := s.tableField v 0x14000 8 + 1
      (s.tableWrite v 0x14000 (bytesOf 8 n ++ bytesOf 1 m.ix ++ List.replicate 7 0)).tell (.peerLost v.vi pkg)
    else (({ s with fabric := { s.fabric with untold := s.fabric.untold ++ [(v.vi, pkg)] } } : State).tableAsk v true 0x14000 16)

/-- The losses still to be told are told, where that can be done now. -/
def State.tellUntold (s : State) : State :=
  s.fabric.untold.foldl (fun s x =>
      match s.viAt x.1 with
      | none => s
      | some v => s.tellLoss x.2 v) { s with fabric := { s.fabric with untold := [] } }

/-- A package is declared lost (R472 to R475). -/
def State.declareLost (s : State) (pkg : Nat) : State :=
  if s.fabric.lost.contains pkg then s
  else
    let mirrorLost := s.nextMember s.pkg == pkg
    let f := s.fabric
    let new : Recall := { pkg := pkg, answered := [], since := s.clock.us, served := false }
    let s : State := { s with fabric :=
      { f with lost := f.lost ++ [pkg], frozen := f.frozen.filter (·.pkg != pkg),
               homeFrozen := f.homeFrozen.filter (·.pkg != pkg), heldIn := f.heldIn.filter (·.src != pkg),
               reorder := f.reorder.filter (·.src != pkg), heard := f.heard.filter (·.1 != pkg),
               recalls := if f.recalls.any (·.pkg == pkg) then f.recalls else f.recalls ++ [new] } }
    let s := s.failLost pkg
    let s := s.each s.control.txns fun s t => s.restoreTxn pkg mirrorLost t
    let s := s.each s.control.dir fun s e => s.restoreEntry pkg e
    let s := s.each (s.control.mirror.filter fun e => homeOf (lineKey e.line) == pkg) fun s e => s.adopt pkg e
    let s := s.each (s.fabric.requests.filter fun r => r.control && r.packet.dst == pkg) fun s r => s.resendControl r
    s.each s.vis fun s v => s.tellLoss pkg v

/-- A sharer-recall packet (R471): the lost package in its second operand; the first tells a recall from its answer. -/
def State.recallPacket (s : State) (dst pkg : Nat) (answer : Bool) : FabPacket :=
  { s.packet dst opSharerRecall with opnd := [if answer then 1 else 0, BitVec.ofNat 64 pkg] }

def State.mapRecall (s : State) (pkg : Nat) (f : Recall → Recall) : State :=
  { s with fabric := { s.fabric with recalls := s.fabric.recalls.map fun r => if r.pkg = pkg then f r else r } }

/-- A recall is answered to the new home (R473): in this model all that the answer promises is done at the declaration. -/
def State.answerRecall (s : State) (pkg : Nat) : State :=
  let h := s.nextMember pkg
  if h = s.pkg then s.mapRecall pkg fun r => { r with answered := r.answered ++ [s.pkg] }
  else s.post (s.recallPacket h pkg true)

/-- PEER_LOST (R471): nothing was heard from a peer for 100 microseconds. The lowest-indexed survivor broadcasts the recall. -/
def execPeerLost (pkg : Nat) (s : State) : Out :=
  match s.fabric.heard.find? (·.1 == pkg) with
  | none => s.skip
  | some h =>
    if s.clock.us < h.2 + 100 then s.skip
    else
      let t := s.declareLost pkg
      .next (if t.members.head? = some t.pkg then
        (t.each (t.members.filter (· != t.pkg)) fun t m => t.post (t.recallPacket m pkg false)).answerRecall pkg
      else t)

/-- SHARER_RECALL (R471, R473): the recall is this package's own declaration too, and is answered; an answer is noted. -/
def execSharerRecall (pkg : Nat) (p : FabPacket) (s : State) : Out :=
  s.receive p opSharerRecall fun s =>
    if (p.opnd.getD 1 0).toNat ≠ pkg ∨ pkg = s.pkg then s.skip
    else if p.opnd.getD 0 0 = 0 then
      .next (((s.declareLost pkg).mapRecall pkg fun r => { r with since := s.clock.us }).answerRecall pkg)
    else if s.fabric.recalls.any (·.pkg == pkg) then
      .next (s.mapRecall pkg fun r => { r with answered := r.answered ++ [p.src] })
    else
      let new : Recall := { pkg := pkg, answered := [p.src], since := s.clock.us, served := false }
      .next { s with fabric := { s.fabric with recalls := s.fabric.recalls ++ [new] } }

/-- ADOPTION_SERVE (R473): every survivor has answered, or 1 ms has passed. -/
def execAdoptionServe (pkg : Nat) (s : State) : Out :=
  match s.fabric.recalls.find? (·.pkg == pkg) with
  | none => s.skip
  | some r =>
    if s.nextMember pkg ≠ s.pkg ∨ r.served = true then s.skip
    else if s.members.all r.answered.contains = true ∨ r.since + 1000 ≤ s.clock.us then
      .next (s.mapRecall pkg fun r => { r with served := true })
    else s.skip

end Sys2Proof.Machine
end

