-- ==== Sys2Proof/Machine/ScalarInt.lean ====
section
/-!
DEFINITION. The scalar integer instructions of 0x09, 0x0A and 0x0B (R190 to R193).
-/
namespace Sys2Proof.Machine

/-- A signed result clamped to 64 bits when an HMOD saturates, else taken modulo 2^64 (R190, R193). -/
def scalarSat (h : Hints) (x : Int) : DWord :=
  if h.sat = some 1 then ofInt 64 (max (-(2 ^ 63)) (min (2 ^ 63 - 1) x)) else ofInt 64 x

/-- Leading zeros, trailing zeros and one bits of an `n`-bit value. -/
def clz {n : Nat} (x : BitVec n) : Nat := if x = 0 then n else n - 1 - Nat.log2 x.toNat
def ctz {n : Nat} (x : BitVec n) : Nat := ((List.range n).find? fun i => x.getLsbD i).getD n
def popc {n : Nat} (x : BitVec n) : Nat := ((List.range n).filter fun i => x.getLsbD i).length

/-- A two-source scalar instruction (R190, R192). -/
def State.scalar2 (s : State) (d a b : BitVec 7) (sat : Bool) (g : Hints → DWord → DWord → DWord) : Out :=
  s.group { ss := [d.toNat, a.toNat, b.toNat], sat := sat } fun h =>
    s.scalarResult d.toNat (g h (s.wave.s a.toNat) (s.wave.s b.toNat))

/-- A one-source scalar instruction (R190). -/
def State.scalar1 (s : State) (d a : BitVec 7) (g : DWord → DWord) : Out :=
  s.group { ss := [d.toNat, a.toNat] } fun _ => s.scalarResult d.toNat (g (s.wave.s a.toNat))

/-- A scalar instruction with an immediate (R191). -/
def State.scalarImm (s : State) (d a : BitVec 7) (i : BitVec 9) (g : DWord → DWord → DWord) : Out :=
  s.group { ss := [d.toNat, a.toNat], himm := true } fun h =>
    s.scalarResult d.toNat (g (s.wave.s a.toNat) (immediate h 9 i.toNat))

/-- The field of SBFX and its family: position, highest bit and width (R192). -/
def bfPos (b : DWord) : Nat := bitsN b.toNat 5 0
def bfTop (b : DWord) : Nat := min (bfPos b + bitsN b.toNat 13 8) 63
def bfLen (b : DWord) : Nat := bfTop b - bfPos b + 1

/-- SADD (R190): sa + sb, clamped under HMOD. -/
def execSadd (d a b : BitVec 7) (s : State) : Out :=
  s.scalar2 d a b true fun h x y => scalarSat h (x.toInt + y.toInt)

/-- SSUB (R190): sa − sb, clamped under HMOD. -/
def execSsub (d a b : BitVec 7) (s : State) : Out :=
  s.scalar2 d a b true fun h x y => scalarSat h (x.toInt - y.toInt)

/-- SMUL (R190): the low 64 bits of the product. -/
def execSmul (d a b : BitVec 7) (s : State) : Out :=
  s.scalar2 d a b false fun _ x y => x * y

/-- SMULH (R190): bits [127:64] of the signed product. -/
def execSmulh (d a b : BitVec 7) (s : State) : Out :=
  s.scalar2 d a b false fun _ x y => ofInt 64 (x.toInt * y.toInt / 2 ^ 64)

/-- SMULHU (R190): bits [127:64] of the unsigned product. -/
def execSmulhu (d a b : BitVec 7) (s : State) : Out :=
  s.scalar2 d a b false fun _ x y => BitVec.ofNat 64 (x.toNat * y.toNat / 2 ^ 64)

/-- SAND (R190): bitwise and. -/
def execSand (d a b : BitVec 7) (s : State) : Out :=
  s.scalar2 d a b false fun _ x y => x &&& y

/-- SOR (R190): bitwise or. -/
def execSor (d a b : BitVec 7) (s : State) : Out :=
  s.scalar2 d a b false fun _ x y => x ||| y

/-- SXOR (R190): bitwise exclusive or. -/
def execSxor (d a b : BitVec 7) (s : State) : Out :=
  s.scalar2 d a b false fun _ x y => x ^^^ y

/-- SSHL (R190): shift left by bits [5:0] of sb. -/
def execSshl (d a b : BitVec 7) (s : State) : Out :=
  s.scalar2 d a b false fun _ x y => x <<< (y.toNat % 64)

/-- SSHR (R190): shift right, zero fill. -/
def execSshr (d a b : BitVec 7) (s : State) : Out :=
  s.scalar2 d a b false fun _ x y => x >>> (y.toNat % 64)

/-- SSRA (R190): shift right, sign fill. -/
def execSsra (d a b : BitVec 7) (s : State) : Out :=
  s.scalar2 d a b false fun _ x y => x.sshiftRight (y.toNat % 64)

/-- SMIN (R190): signed minimum. -/
def execSmin (d a b : BitVec 7) (s : State) : Out :=
  s.scalar2 d a b false fun _ x y => if x.toInt ≤ y.toInt then x else y

/-- SMAX (R190): signed maximum. -/
def execSmax (d a b : BitVec 7) (s : State) : Out :=
  s.scalar2 d a b false fun _ x y => if x.toInt ≤ y.toInt then y else x

/-- SMINU (R190): unsigned minimum. -/
def execSminu (d a b : BitVec 7) (s : State) : Out :=
  s.scalar2 d a b false fun _ x y => if x.toNat ≤ y.toNat then x else y

/-- SMAXU (R190): unsigned maximum. -/
def execSmaxu (d a b : BitVec 7) (s : State) : Out :=
  s.scalar2 d a b false fun _ x y => if x.toNat ≤ y.toNat then y else x

/-- SMOV (R190): a copy of sa. -/
def execSmov (d a : BitVec 7) (s : State) : Out :=
  s.scalar1 d a fun x => x

/-- SCLZ (R190): leading zero bits. -/
def execSclz (d a : BitVec 7) (s : State) : Out :=
  s.scalar1 d a fun x => BitVec.ofNat 64 (clz x)

/-- SCTZ (R190): trailing zero bits. -/
def execSctz (d a : BitVec 7) (s : State) : Out :=
  s.scalar1 d a fun x => BitVec.ofNat 64 (ctz x)

/-- SPOPC (R190): one bits. -/
def execSpopc (d a : BitVec 7) (s : State) : Out :=
  s.scalar1 d a fun x => BitVec.ofNat 64 (popc x)

/-- SADDI (R191): sa + imm. -/
def execSaddi (d a : BitVec 7) (i : BitVec 9) (s : State) : Out :=
  s.scalarImm d a i fun x y => x + y

/-- SANDI (R191): sa and imm. -/
def execSandi (d a : BitVec 7) (i : BitVec 9) (s : State) : Out :=
  s.scalarImm d a i fun x y => x &&& y

/-- SORI (R191): sa or imm. -/
def execSori (d a : BitVec 7) (i : BitVec 9) (s : State) : Out :=
  s.scalarImm d a i fun x y => x ||| y

/-- SXORI (R191): sa exclusive or imm. -/
def execSxori (d a : BitVec 7) (i : BitVec 9) (s : State) : Out :=
  s.scalarImm d a i fun x y => x ^^^ y

/-- SSHLI (R191): sa shifted left by the immediate. -/
def execSshli (d a : BitVec 7) (i : BitVec 6) (s : State) : Out :=
  s.scalar1 d a fun x => x <<< i.toNat

/-- SSHRI (R191): sa shifted right, zero fill. -/
def execSshri (d a : BitVec 7) (i : BitVec 6) (s : State) : Out :=
  s.scalar1 d a fun x => x >>> i.toNat

/-- SSRAI (R191): sa shifted right, sign fill. -/
def execSsrai (d a : BitVec 7) (i : BitVec 6) (s : State) : Out :=
  s.scalar1 d a fun x => x.sshiftRight i.toNat

/-- SMOVI (R191): the 16-bit immediate with its HIMMs. -/
def execSmovi (d i : BitVec 7) (j2 : BitVec 9) (s : State) : Out :=
  s.group { ss := [d.toNat], himm := true } fun h =>
    s.scalarResult d.toNat (immediate h 16 (i.toNat * 2 ^ 9 + j2.toNat))

/-- SCMP_EQ (R192): 1 when equal. -/
def execScmpEq (d a b : BitVec 7) (s : State) : Out :=
  s.scalar2 d a b false fun _ x y => if x = y then 1 else 0

/-- SCMP_NE (R192): 1 when different. -/
def execScmpNe (d a b : BitVec 7) (s : State) : Out :=
  s.scalar2 d a b false fun _ x y => if x ≠ y then 1 else 0

/-- SCMP_LT (R192): signed less. -/
def execScmpLt (d a b : BitVec 7) (s : State) : Out :=
  s.scalar2 d a b false fun _ x y => if x.toInt < y.toInt then 1 else 0

/-- SCMP_LE (R192): signed less or equal. -/
def execScmpLe (d a b : BitVec 7) (s : State) : Out :=
  s.scalar2 d a b false fun _ x y => if x.toInt ≤ y.toInt then 1 else 0

/-- SCMP_LTU (R192): unsigned less. -/
def execScmpLtu (d a b : BitVec 7) (s : State) : Out :=
  s.scalar2 d a b false fun _ x y => if x.toNat < y.toNat then 1 else 0

/-- SCMP_LEU (R192): unsigned less or equal. -/
def execScmpLeu (d a b : BitVec 7) (s : State) : Out :=
  s.scalar2 d a b false fun _ x y => if x.toNat ≤ y.toNat then 1 else 0

/-- SSEL (R192): sa when the HSRC scalar is not zero, else sb. -/
def execSsel (d a b : BitVec 7) (s : State) : Out :=
  s.group { ss := [d.toNat, a.toNat, b.toNat], counts := [1], extra := .scalar } fun h =>
    s.scalarResult d.toNat (if s.wave.s (h.extra.headD 0) ≠ 0 then s.wave.s a.toNat else s.wave.s b.toNat)

/-- SBFX (R192): the field, sign-extended. -/
def execSbfx (d a b : BitVec 7) (s : State) : Out :=
  s.scalar2 d a b false fun _ x y => ofInt 64 (sextN (bfLen y) (bitsN x.toNat (bfTop y) (bfPos y)))

/-- SBFXU (R192): the field, zero-extended. -/
def execSbfxu (d a b : BitVec 7) (s : State) : Out :=
  s.scalar2 d a b false fun _ x y => BitVec.ofNat 64 (bitsN x.toNat (bfTop y) (bfPos y))

/-- SBFI (R192): the low bits of sa put into the field of the base. -/
def execSbfi (d a b : BitVec 7) (s : State) : Out :=
  s.group { ss := [d.toNat, a.toNat, b.toNat], counts := [0, 1], extra := .scalar } fun h =>
    let y := s.wave.s b.toNat
    let base := match h.extra with
      | [] => s.wave.s d.toNat
      | x :: _ => s.wave.s x
    let m : DWord := BitVec.ofNat 64 ((2 ^ bfLen y - 1) * 2 ^ bfPos y)
    s.scalarResult d.toNat ((base &&& ~~~m) ||| ((s.wave.s a.toNat <<< bfPos y) &&& m))

end Sys2Proof.Machine
end

