-- ==== Sys2Proof/Machine/VectorInt.lean ====
section
/-!
DEFINITION. The vector integer instructions of 0x0C to 0x0F (R194 to R199).
-/
namespace Sys2Proof.Machine

/-- An exact lane result clamped to its type when an HMOD saturates, else wrapped (R196). -/
def laneSat (n : Nat) (h : Hints) (lo hi : Int) (x : Int) : BitVec n :=
  if h.sat = some 1 then ofInt n (max lo (min hi x)) else ofInt n x

def satI32 (h : Hints) (x : Int) : Word := laneSat 32 h (-(2 ^ 31)) (2 ^ 31 - 1) x
def satN32 (h : Hints) (x : Int) : Word := laneSat 32 h 0 (2 ^ 32 - 1) x
def satI64 (h : Hints) (x : Int) : DWord := laneSat 64 h (-(2 ^ 63)) (2 ^ 63 - 1) x
def satN64 (h : Hints) (x : Int) : DWord := laneSat 64 h 0 (2 ^ 64 - 1) x

/-- A two-source instruction on 32-bit lanes (R194). -/
def State.vec2 (s : State) (d a b : BitVec 7) (sat : Bool) (g : Hints → Word → Word → Word) : Out :=
  s.group { vs := [d.toNat, a.toNat, b.toNat], sat := sat } fun h =>
    s.vecLanes d.toNat fun l => g h (s.wave.v a.toNat l) (s.wave.v b.toNat l)

/-- A one-source instruction on 32-bit lanes (R194, R197). -/
def State.vec1 (s : State) (d a : BitVec 7) (g : Word → Word) : Out :=
  s.group { vs := [d.toNat, a.toNat] } fun _ => s.vecLanes d.toNat fun l => g (s.wave.v a.toNat l)

/-- A two-source instruction that also reads its destination (R194, R195). -/
def State.vec3 (s : State) (d a b : BitVec 7) (g : Word → Word → Word → Word) : Out :=
  s.group { vs := [d.toNat, a.toNat, b.toNat] } fun _ =>
    s.vecLanes d.toNat fun l => g (s.wave.v a.toNat l) (s.wave.v b.toNat l) (s.wave.v d.toNat l)

/-- An instruction on 32-bit lanes with an immediate (R197). -/
def State.vecImm (s : State) (d a : BitVec 7) (i : BitVec 9) (g : Word → Word → Word) : Out :=
  s.group { vs := [d.toNat, a.toNat], himm := true } fun h =>
    s.vecLanes d.toNat fun l => g (s.wave.v a.toNat l) ((immediate h 9 i.toNat).setWidth 32)

/-- A two-source instruction on 64-bit lanes in pairs (R198). -/
def State.vec2p (s : State) (d a b : BitVec 7) (sat : Bool) (g : Hints → DWord → DWord → DWord) : Out :=
  s.group { vs := [d.toNat + 1, a.toNat + 1, b.toNat + 1], sat := sat } fun h =>
    s.pairLanes d.toNat fun l => g h (s.wave.pair a.toNat l) (s.wave.pair b.toNat l)

/-- A product of 32-bit lanes as a 64-bit lane (R198). -/
def State.vecWide (s : State) (d a b : BitVec 7) (g : Word → Word → DWord) : Out :=
  s.group { vs := [d.toNat + 1, a.toNat, b.toNat] } fun _ =>
    s.pairLanes d.toNat fun l => g (s.wave.v a.toNat l) (s.wave.v b.toNat l)

/-- A lane combined with the low word of a scalar (R199). -/
def State.vecScalar (s : State) (d a b : BitVec 7) (sat : Bool) (g : Hints → Word → Word → Word) : Out :=
  s.group { vs := [d.toNat, a.toNat], ss := [b.toNat], sat := sat } fun h =>
    s.vecLanes d.toNat fun l => g h (s.wave.v a.toNat l) ((s.wave.s b.toNat).setWidth 32)

/-- The sum of the products of four bytes (R194). -/
def dot4 (f : Byte → Int) (a b : Word) : Int :=
  ((List.range 4).map fun j => f (a.field (8 * j) 8) * f (b.field (8 * j) 8)).foldl (· + ·) 0

/-- VADD_I32 (R194): the lane operation of the same name. -/
def execVaddI32 (d a b : BitVec 7) (s : State) : Out :=
  s.vec2 d a b true fun h x y => satI32 h (x.toInt + y.toInt)

/-- VADD_N32 (R194): the lane operation of the same name. -/
def execVaddN32 (d a b : BitVec 7) (s : State) : Out :=
  s.vec2 d a b true fun h x y => satN32 h ((x.toNat : Int) + y.toNat)

/-- VSUB_I32 (R194): the lane operation of the same name. -/
def execVsubI32 (d a b : BitVec 7) (s : State) : Out :=
  s.vec2 d a b true fun h x y => satI32 h (x.toInt - y.toInt)

/-- VSUB_N32 (R194): the lane operation of the same name. -/
def execVsubN32 (d a b : BitVec 7) (s : State) : Out :=
  s.vec2 d a b true fun h x y => satN32 h ((x.toNat : Int) - y.toNat)

/-- VMUL_I32 (R194): the lane operation of the same name. -/
def execVmulI32 (d a b : BitVec 7) (s : State) : Out :=
  s.vec2 d a b false fun _ x y => x * y

/-- VMULH_I32 (R194): the lane operation of the same name. -/
def execVmulhI32 (d a b : BitVec 7) (s : State) : Out :=
  s.vec2 d a b false fun _ x y => ofInt 32 (x.toInt * y.toInt / 2 ^ 32)

/-- VMULH_N32 (R194): the lane operation of the same name. -/
def execVmulhN32 (d a b : BitVec 7) (s : State) : Out :=
  s.vec2 d a b false fun _ x y => BitVec.ofNat 32 (x.toNat * y.toNat / 2 ^ 32)

/-- VAND_B32 (R194): the lane operation of the same name. -/
def execVandB32 (d a b : BitVec 7) (s : State) : Out :=
  s.vec2 d a b false fun _ x y => x &&& y

/-- VOR_B32 (R194): the lane operation of the same name. -/
def execVorB32 (d a b : BitVec 7) (s : State) : Out :=
  s.vec2 d a b false fun _ x y => x ||| y

/-- VXOR_B32 (R194): the lane operation of the same name. -/
def execVxorB32 (d a b : BitVec 7) (s : State) : Out :=
  s.vec2 d a b false fun _ x y => x ^^^ y

/-- VSHL_B32 (R194): the lane operation of the same name. -/
def execVshlB32 (d a b : BitVec 7) (s : State) : Out :=
  s.vec2 d a b false fun _ x y => x <<< (y.toNat % 32)

/-- VSHR_N32 (R194): the lane operation of the same name. -/
def execVshrN32 (d a b : BitVec 7) (s : State) : Out :=
  s.vec2 d a b false fun _ x y => x >>> (y.toNat % 32)

/-- VSHR_I32 (R194): the lane operation of the same name. -/
def execVshrI32 (d a b : BitVec 7) (s : State) : Out :=
  s.vec2 d a b false fun _ x y => x.sshiftRight (y.toNat % 32)

/-- VMIN_I32 (R194): the lane operation of the same name. -/
def execVminI32 (d a b : BitVec 7) (s : State) : Out :=
  s.vec2 d a b false fun _ x y => if x.toInt ≤ y.toInt then x else y

/-- VMIN_N32 (R194): the lane operation of the same name. -/
def execVminN32 (d a b : BitVec 7) (s : State) : Out :=
  s.vec2 d a b false fun _ x y => if x.toNat ≤ y.toNat then x else y

/-- VMAX_I32 (R194): the lane operation of the same name. -/
def execVmaxI32 (d a b : BitVec 7) (s : State) : Out :=
  s.vec2 d a b false fun _ x y => if x.toInt ≤ y.toInt then y else x

/-- VMAX_N32 (R194): the lane operation of the same name. -/
def execVmaxN32 (d a b : BitVec 7) (s : State) : Out :=
  s.vec2 d a b false fun _ x y => if x.toNat ≤ y.toNat then y else x

/-- VMAD_I32 (R194): a × b plus the HSRC register, or vd. -/
def execVmadI32 (d a b : BitVec 7) (s : State) : Out :=
  s.group { vs := [d.toNat, a.toNat, b.toNat], counts := [0, 1], extra := .vector } fun h =>
    s.vecLanes d.toNat fun l =>
      s.wave.v a.toNat l * s.wave.v b.toNat l + s.wave.v (h.extra.headD d.toNat) l

/-- VCLZ_B32 (R194): leading zero bits. -/
def execVclzB32 (d a : BitVec 7) (s : State) : Out :=
  s.vec1 d a fun x => BitVec.ofNat 32 (clz x)

/-- VPOPC_B32 (R194): one bits. -/
def execVpopcB32 (d a : BitVec 7) (s : State) : Out :=
  s.vec1 d a fun x => BitVec.ofNat 32 (popc x)

/-- VSEL_B32 (R194): a where the HSRC predicate is set, else b. -/
def execVselB32 (d a b : BitVec 7) (s : State) : Out :=
  s.group { vs := [d.toNat, a.toNat, b.toNat], counts := [1], extra := .predicate } fun h =>
    s.vecLanes d.toNat fun l =>
      if bitOf (s.wave.pred (h.extra.headD 0)) l then s.wave.v a.toNat l else s.wave.v b.toNat l

/-- VDOT4_I32 (R194): vd plus the sum of four signed byte products. -/
def execVdot4I32 (d a b : BitVec 7) (s : State) : Out :=
  s.vec3 d a b fun x y z => ofInt 32 (z.toInt + dot4 (fun c => c.toInt) x y)

/-- VDOT4_N32 (R194): vd plus the sum of four unsigned byte products. -/
def execVdot4N32 (d a b : BitVec 7) (s : State) : Out :=
  s.vec3 d a b fun x y z => ofInt 32 (z.toInt + dot4 (fun c => c.toNat) x y)

/-- VABS_I32 (R194): the absolute value; 0x8000_0000 stays. -/
def execVabsI32 (d a : BitVec 7) (s : State) : Out :=
  s.vec1 d a fun x => if x.getLsbD 31 then 0 - x else x

/-- VADDI (R197): the operation with the immediate. -/
def execVaddi (d a : BitVec 7) (i : BitVec 9) (s : State) : Out :=
  s.vecImm d a i fun x y => x + y

/-- VANDI (R197): the operation with the immediate. -/
def execVandi (d a : BitVec 7) (i : BitVec 9) (s : State) : Out :=
  s.vecImm d a i fun x y => x &&& y

/-- VORI (R197): the operation with the immediate. -/
def execVori (d a : BitVec 7) (i : BitVec 9) (s : State) : Out :=
  s.vecImm d a i fun x y => x ||| y

/-- VXORI (R197): the operation with the immediate. -/
def execVxori (d a : BitVec 7) (i : BitVec 9) (s : State) : Out :=
  s.vecImm d a i fun x y => x ^^^ y

/-- VSHLI (R197): the shift by the immediate. -/
def execVshli (d a : BitVec 7) (i : BitVec 5) (s : State) : Out :=
  s.vec1 d a fun x => x <<< i.toNat

/-- VSHRI (R197): the shift by the immediate. -/
def execVshri (d a : BitVec 7) (i : BitVec 5) (s : State) : Out :=
  s.vec1 d a fun x => x >>> i.toNat

/-- VSRAI (R197): the shift by the immediate. -/
def execVsrai (d a : BitVec 7) (i : BitVec 5) (s : State) : Out :=
  s.vec1 d a fun x => x.sshiftRight i.toNat

/-- VMOVI (R197): the immediate in each active lane. -/
def execVmovi (d i : BitVec 7) (j2 : BitVec 9) (s : State) : Out :=
  s.group { vs := [d.toNat], himm := true } fun h =>
    s.vecLanes d.toNat fun _ => (immediate h 16 (i.toNat * 2 ^ 9 + j2.toNat)).setWidth 32

/-- VADD_I64 (R198): the operation of the same name on pairs. -/
def execVaddI64 (d a b : BitVec 7) (s : State) : Out :=
  s.vec2p d a b true fun h x y => satI64 h (x.toInt + y.toInt)

/-- VADD_N64 (R198): the operation of the same name on pairs. -/
def execVaddN64 (d a b : BitVec 7) (s : State) : Out :=
  s.vec2p d a b true fun h x y => satN64 h ((x.toNat : Int) + y.toNat)

/-- VSUB_I64 (R198): the operation of the same name on pairs. -/
def execVsubI64 (d a b : BitVec 7) (s : State) : Out :=
  s.vec2p d a b true fun h x y => satI64 h (x.toInt - y.toInt)

/-- VSUB_N64 (R198): the operation of the same name on pairs. -/
def execVsubN64 (d a b : BitVec 7) (s : State) : Out :=
  s.vec2p d a b true fun h x y => satN64 h ((x.toNat : Int) - y.toNat)

/-- VMUL_I64 (R198): the operation of the same name on pairs. -/
def execVmulI64 (d a b : BitVec 7) (s : State) : Out :=
  s.vec2p d a b false fun _ x y => x * y

/-- VAND_N64 (R198): the operation of the same name on pairs. -/
def execVandN64 (d a b : BitVec 7) (s : State) : Out :=
  s.vec2p d a b false fun _ x y => x &&& y

/-- VOR_N64 (R198): the operation of the same name on pairs. -/
def execVorN64 (d a b : BitVec 7) (s : State) : Out :=
  s.vec2p d a b false fun _ x y => x ||| y

/-- VXOR_N64 (R198): the operation of the same name on pairs. -/
def execVxorN64 (d a b : BitVec 7) (s : State) : Out :=
  s.vec2p d a b false fun _ x y => x ^^^ y

/-- VSHL_N64 (R198): the operation of the same name on pairs. -/
def execVshlN64 (d a b : BitVec 7) (s : State) : Out :=
  s.vec2p d a b false fun _ x y => x <<< (y.toNat % 64)

/-- VSHR_N64 (R198): the operation of the same name on pairs. -/
def execVshrN64 (d a b : BitVec 7) (s : State) : Out :=
  s.vec2p d a b false fun _ x y => x >>> (y.toNat % 64)

/-- VSHR_I64 (R198): the operation of the same name on pairs. -/
def execVshrI64 (d a b : BitVec 7) (s : State) : Out :=
  s.vec2p d a b false fun _ x y => x.sshiftRight (y.toNat % 64)

/-- VMIN_I64 (R198): the operation of the same name on pairs. -/
def execVminI64 (d a b : BitVec 7) (s : State) : Out :=
  s.vec2p d a b false fun _ x y => if x.toInt ≤ y.toInt then x else y

/-- VMIN_N64 (R198): the operation of the same name on pairs. -/
def execVminN64 (d a b : BitVec 7) (s : State) : Out :=
  s.vec2p d a b false fun _ x y => if x.toNat ≤ y.toNat then x else y

/-- VMAX_I64 (R198): the operation of the same name on pairs. -/
def execVmaxI64 (d a b : BitVec 7) (s : State) : Out :=
  s.vec2p d a b false fun _ x y => if x.toInt ≤ y.toInt then y else x

/-- VMAX_N64 (R198): the operation of the same name on pairs. -/
def execVmaxN64 (d a b : BitVec 7) (s : State) : Out :=
  s.vec2p d a b false fun _ x y => if x.toNat ≤ y.toNat then y else x

/-- VMULW_I32 (R198): the signed 64-bit product. -/
def execVmulwI32 (d a b : BitVec 7) (s : State) : Out :=
  s.vecWide d a b fun x y => ofInt 64 (x.toInt * y.toInt)

/-- VMULW_N32 (R198): the unsigned 64-bit product. -/
def execVmulwN32 (d a b : BitVec 7) (s : State) : Out :=
  s.vecWide d a b fun x y => BitVec.ofNat 64 (x.toNat * y.toNat)

/-- VADDS_I32 (R199): as VADD.I32 with the scalar. -/
def execVaddsI32 (d a b : BitVec 7) (s : State) : Out :=
  s.vecScalar d a b true fun h x y => satI32 h (x.toInt + y.toInt)

/-- VSUBS_I32 (R199): as VSUB.I32 with the scalar. -/
def execVsubsI32 (d a b : BitVec 7) (s : State) : Out :=
  s.vecScalar d a b true fun h x y => satI32 h (x.toInt - y.toInt)

/-- VMULS_I32 (R199): as VMUL.I32 with the scalar. -/
def execVmulsI32 (d a b : BitVec 7) (s : State) : Out :=
  s.vecScalar d a b false fun _ x y => x * y

/-- VANDS_B32 (R199): as VAND.B32 with the scalar. -/
def execVandsB32 (d a b : BitVec 7) (s : State) : Out :=
  s.vecScalar d a b false fun _ x y => x &&& y

/-- VORS_B32 (R199): as VOR.B32 with the scalar. -/
def execVorsB32 (d a b : BitVec 7) (s : State) : Out :=
  s.vecScalar d a b false fun _ x y => x ||| y

/-- VXORS_B32 (R199): as VXOR.B32 with the scalar. -/
def execVxorsB32 (d a b : BitVec 7) (s : State) : Out :=
  s.vecScalar d a b false fun _ x y => x ^^^ y

/-- VSHLS_B32 (R199): as VSHL.B32 with the scalar. -/
def execVshlsB32 (d a b : BitVec 7) (s : State) : Out :=
  s.vecScalar d a b false fun _ x y => x <<< (y.toNat % 32)

/-- VSHRS_N32 (R199): as VSHR.N32 with the scalar. -/
def execVshrsN32 (d a b : BitVec 7) (s : State) : Out :=
  s.vecScalar d a b false fun _ x y => x >>> (y.toNat % 32)

/-- VSHRS_I32 (R199): as VSHR.I32 with the scalar. -/
def execVshrsI32 (d a b : BitVec 7) (s : State) : Out :=
  s.vecScalar d a b false fun _ x y => x.sshiftRight (y.toNat % 32)

/-- VMINS_I32 (R199): as VMIN.I32 with the scalar. -/
def execVminsI32 (d a b : BitVec 7) (s : State) : Out :=
  s.vecScalar d a b false fun _ x y => if x.toInt ≤ y.toInt then x else y

/-- VMAXS_I32 (R199): as VMAX.I32 with the scalar. -/
def execVmaxsI32 (d a b : BitVec 7) (s : State) : Out :=
  s.vecScalar d a b false fun _ x y => if x.toInt ≤ y.toInt then y else x

/-- VADDS_I64 (R199): as VADD.I64 with the whole scalar. -/
def execVaddsI64 (d a b : BitVec 7) (s : State) : Out :=
  s.group { vs := [d.toNat + 1, a.toNat + 1], ss := [b.toNat] } fun _ =>
    s.pairLanes d.toNat fun l => s.wave.pair a.toNat l + s.wave.s b.toNat

end Sys2Proof.Machine
end

