-- ==== Sys2Proof/Machine/Dispatch.lean ====
section
/-!
DEFINITION. One arm per row of the opcode table: a direct call of that row's meaning.
-/
namespace Sys2Proof.Machine

def exec (i : Instr) (s : State) : Host.Outcome State Fault Refusal :=
  match i with
  | .powerGood im => Sys2Proof.Machine.execPowerGood im s
  | .startupStepTimeout step => Sys2Proof.Machine.execStartupStepTimeout step s
  | .powerRemoval => Sys2Proof.Machine.execPowerRemoval s
  | .upstreamHotReset => Sys2Proof.Machine.execUpstreamHotReset s
  | .linkDown => Sys2Proof.Machine.execLinkDown s
  | .functionLevelReset vi => Sys2Proof.Machine.execFunctionLevelReset vi s
  | .operatingPointLower block => Sys2Proof.Machine.execOperatingPointLower block s
  | .operatingPointRaise block => Sys2Proof.Machine.execOperatingPointRaise block s
  | .operatingPointCeiling block point => Sys2Proof.Machine.execOperatingPointCeiling block point s
  | .viBuild vi d => Sys2Proof.Machine.execViBuild vi d s
  | .viStart vi => Sys2Proof.Machine.execViStart vi s
  | .freezeRequest vi => Sys2Proof.Machine.execFreezeRequest vi s
  | .viResume vi => Sys2Proof.Machine.execViResume vi s
  | .viTeardown vi => Sys2Proof.Machine.execViTeardown vi s
  | .teardownComplete vi => Sys2Proof.Machine.execTeardownComplete vi s
  | .supervisorBudgetExpiry w => Sys2Proof.Machine.execSupervisorBudgetExpiry w s
  | .kick vi q v o => Sys2Proof.Machine.execKick vi q v o s
  | .queueStart vi q o => Sys2Proof.Machine.execQueueStart vi q o s
  | .queueStop vi q o => Sys2Proof.Machine.execQueueStop vi q o s
  | .slotRead vi q => Sys2Proof.Machine.execSlotRead vi q s
  | .staleKickTimeout vi q => Sys2Proof.Machine.execStaleKickTimeout vi q s
  | .dispatch => Sys2Proof.Machine.execDispatch s
  | .candidateReserved grid => Sys2Proof.Machine.execCandidateReserved grid s
  | .reachStart grid reach => Sys2Proof.Machine.execReachStart grid reach s
  | .ferryGridStart grid => Sys2Proof.Machine.execFerryGridStart grid s
  | .spawnBinTimeout core bin => Sys2Proof.Machine.execSpawnBinTimeout core bin s
  | .binWaveStart core bin => Sys2Proof.Machine.execBinWaveStart core bin s
  | .waveBoost w => Sys2Proof.Machine.execWaveBoost w s
  | .clauseStart w => Sys2Proof.Machine.execClauseStart w s
  | .fetchFillComplete w => Sys2Proof.Machine.execFetchFillComplete w s
  | .lookoutStart w => Sys2Proof.Machine.execLookoutStart w s
  | .lookoutTimeout w => Sys2Proof.Machine.execLookoutTimeout w s
  | .longLatencyComplete w op => Sys2Proof.Machine.execLongLatencyComplete w op s
  | .terminalInstructionComplete w => Sys2Proof.Machine.execTerminalInstructionComplete w s
  | .barrierComplete b => Sys2Proof.Machine.execBarrierComplete b s
  | .trapEntry w => Sys2Proof.Machine.execTrapEntry w s
  | .engineFailureTrap w => Sys2Proof.Machine.execEngineFailureTrap w s
  | .watchdogExpiry w => Sys2Proof.Machine.execWatchdogExpiry w s
  | .watchdogTrap w => Sys2Proof.Machine.execWatchdogTrap w s
  | .singleStepTrap w => Sys2Proof.Machine.execSingleStepTrap w s
  | .exitTakesEffect w => Sys2Proof.Machine.execExitTakesEffect w s
  | .teamComplete grid team => Sys2Proof.Machine.execTeamComplete grid team s
  | .gridRetire grid => Sys2Proof.Machine.execGridRetire grid s
  | .travellerDepart core => Sys2Proof.Machine.execTravellerDepart core s
  | .travellerArrival n => Sys2Proof.Machine.execTravellerArrival n s
  | .travellerReoffer core n => Sys2Proof.Machine.execTravellerReoffer core n s
  | .overflowTake core => Sys2Proof.Machine.execOverflowTake core s
  | .landingQueueAdvance core => Sys2Proof.Machine.execLandingQueueAdvance core s
  | .segmentReplication grid seg => Sys2Proof.Machine.execSegmentReplication grid seg s
  | .replicaLoadComplete grid seg => Sys2Proof.Machine.execReplicaLoadComplete grid seg s
  | .pincmdPin vi w => Sys2Proof.Machine.execPincmdPin vi w s
  | .pincmdUnpin vi w => Sys2Proof.Machine.execPincmdUnpin vi w s
  | .pinWindowComplete vi w => Sys2Proof.Machine.execPinWindowComplete vi w s
  | .ownershipTransfer region => Sys2Proof.Machine.execOwnershipTransfer region s
  | .ownershipHoldExpiry region => Sys2Proof.Machine.execOwnershipHoldExpiry region s
  | .keeperMessage slice => Sys2Proof.Machine.execKeeperMessage slice s
  | .keeperRelease slice => Sys2Proof.Machine.execKeeperRelease slice s
  | .keeperStrike slice => Sys2Proof.Machine.execKeeperStrike slice s
  | .copyComplete id st => Sys2Proof.Machine.execCopyComplete id st s
  | .gatherComplete id st => Sys2Proof.Machine.execGatherComplete id st s
  | .collectiveComplete id st => Sys2Proof.Machine.execCollectiveComplete id st s
  | .xratomResult id st => Sys2Proof.Machine.execXratomResult id st s
  | .amsgReply id => Sys2Proof.Machine.execAmsgReply id s
  | .matrixOpBegin core op => Sys2Proof.Machine.execMatrixOpBegin core op s
  | .matrixOpComplete core op => Sys2Proof.Machine.execMatrixOpComplete core op s
  | .readShared p => Sys2Proof.Machine.execReadShared p s
  | .readOwn p => Sys2Proof.Machine.execReadOwn p s
  | .upgrade p => Sys2Proof.Machine.execUpgrade p s
  | .writeback p => Sys2Proof.Machine.execWriteback p s
  | .controlAtomic p => Sys2Proof.Machine.execControlAtomic p s
  | .dataShared p => Sys2Proof.Machine.execDataShared p s
  | .dataExclusive p => Sys2Proof.Machine.execDataExclusive p s
  | .completion p => Sys2Proof.Machine.execCompletion p s
  | .forwardedRead p => Sys2Proof.Machine.execForwardedRead p s
  | .invalidate p => Sys2Proof.Machine.execInvalidate p s
  | .acknowledgement p => Sys2Proof.Machine.execAcknowledgement p s
  | .mirrorUpdate p => Sys2Proof.Machine.execMirrorUpdate p s
  | .mirrorAcknowledgement p => Sys2Proof.Machine.execMirrorAcknowledgement p s
  | .tensorRead p => Sys2Proof.Machine.execTensorRead p s
  | .tensorWrite p => Sys2Proof.Machine.execTensorWrite p s
  | .remoteAtomic p => Sys2Proof.Machine.execRemoteAtomic p s
  | .collectiveData p => Sys2Proof.Machine.execCollectiveData p s
  | .readData p => Sys2Proof.Machine.execReadData p s
  | .writeCompletion p => Sys2Proof.Machine.execWriteCompletion p s
  | .atomicResult p => Sys2Proof.Machine.execAtomicResult p s
  | .collectiveAcknowledgement p => Sys2Proof.Machine.execCollectiveAcknowledgement p s
  | .faultRefusal p => Sys2Proof.Machine.execFaultRefusal p s
  | .frozenRefusal p => Sys2Proof.Machine.execFrozenRefusal p s
  | .faultPageResume vi seq => Sys2Proof.Machine.execFaultPageResume vi seq s
  | .faultPageAbort vi seq => Sys2Proof.Machine.execFaultPageAbort vi seq s
  | .streamResume p => Sys2Proof.Machine.execStreamResume p s
  | .streamAbort p => Sys2Proof.Machine.execStreamAbort p s
  | .tensorRequestTimeout tag => Sys2Proof.Machine.execTensorRequestTimeout tag s
  | .controlRequestTimeout tag => Sys2Proof.Machine.execControlRequestTimeout tag s
  | .linkReplay port => Sys2Proof.Machine.execLinkReplay port s
  | .portTraining port => Sys2Proof.Machine.execPortTraining port s
  | .capabilityRecordSend port => Sys2Proof.Machine.execCapabilityRecordSend port s
  | .capabilityRecord port r => Sys2Proof.Machine.execCapabilityRecord port r s
  | .spdmMessage port p => Sys2Proof.Machine.execSpdmMessage port p s
  | .measurementAccept port ok => Sys2Proof.Machine.execMeasurementAccept port ok s
  | .portRunCommand port => Sys2Proof.Machine.execPortRunCommand port s
  | .portRetrain port => Sys2Proof.Machine.execPortRetrain port s
  | .keyUpdate port => Sys2Proof.Machine.execKeyUpdate port s
  | .linkStateSend => Sys2Proof.Machine.execLinkStateSend s
  | .linkState port p => Sys2Proof.Machine.execLinkState port p s
  | .peerLost pkg => Sys2Proof.Machine.execPeerLost pkg s
  | .sharerRecall pkg p => Sys2Proof.Machine.execSharerRecall pkg p s
  | .adoptionServe pkg => Sys2Proof.Machine.execAdoptionServe pkg s
  | .ringInjection stop source => Sys2Proof.Machine.execRingInjection stop source s
  | .ringSharedMove stop n => Sys2Proof.Machine.execRingSharedMove stop n s
  | .ringEscapeMove stop n => Sys2Proof.Machine.execRingEscapeMove stop n s
  | .ringEject stop n => Sys2Proof.Machine.execRingEject stop n s
  | .channelPacketArrival m => Sys2Proof.Machine.execChannelPacketArrival m s
  | .channelAccept ep seq ch => Sys2Proof.Machine.execChannelAccept ep seq ch s
  | .channelReject ep seq ch => Sys2Proof.Machine.execChannelReject ep seq ch s
  | .channelReoffer ep seq ch => Sys2Proof.Machine.execChannelReoffer ep seq ch s
  | .cpsend ep v => Sys2Proof.Machine.execCpsend ep v s
  | .cprecv ep v => Sys2Proof.Machine.execCprecv ep v s
  | .cppoll ep => Sys2Proof.Machine.execCppoll ep s
  | .cptabWrite ep im v => Sys2Proof.Machine.execCptabWrite ep im v s
  | .chentWrite core v => Sys2Proof.Machine.execChentWrite core v s
  | .tlbinv w v => Sys2Proof.Machine.execTlbinv w v s
  | .tlbinvComplete w => Sys2Proof.Machine.execTlbinvComplete w s
  | .capinv w v => Sys2Proof.Machine.execCapinv w v s
  | .capinvComplete w => Sys2Proof.Machine.execCapinvComplete w s
  | .registerWrite t v => Sys2Proof.Machine.execRegisterWrite t v s
  | .hostPostedWrite t bytes => Sys2Proof.Machine.execHostPostedWrite t bytes s
  | .hostRead t len => Sys2Proof.Machine.execHostRead t len s
  | .strike core => Sys2Proof.Machine.execStrike core s
  | .strikeReport core => Sys2Proof.Machine.execStrikeReport core s
  | .quarantineRelease core => Sys2Proof.Machine.execQuarantineRelease core s
  | .entryConfirm w => Sys2Proof.Machine.execEntryConfirm w s
  | .uncorrectableError place => Sys2Proof.Machine.execUncorrectableError place s
  | .poisonConsumed grid reach => Sys2Proof.Machine.execPoisonConsumed grid reach s
  | .preemptRequest vi => Sys2Proof.Machine.execPreemptRequest vi s
  | .pgraceExpiry vi => Sys2Proof.Machine.execPgraceExpiry vi s
  | .engineStopped vi e => Sys2Proof.Machine.execEngineStopped vi e s
  | .preemptResume vi => Sys2Proof.Machine.execPreemptResume vi s
  | .debugHalt core => Sys2Proof.Machine.execDebugHalt core s
  | .debugRelease core => Sys2Proof.Machine.execDebugRelease core s
  | .nop => Sys2Proof.Machine.execNop s
  | .yield => Sys2Proof.Machine.execYield s
  | .exit => Sys2Proof.Machine.execExit s
  | .br o => Sys2Proof.Machine.execBr o s
  | .call o => Sys2Proof.Machine.execCall o s
  | .ret a => Sys2Proof.Machine.execRet a s
  | .jmpr a => Sys2Proof.Machine.execJmpr a s
  | .brsNz a o => Sys2Proof.Machine.execBrsNz a o s
  | .brsZ a o => Sys2Proof.Machine.execBrsZ a o s
  | .brpAny p o => Sys2Proof.Machine.execBrpAny p o s
  | .brpAll p o => Sys2Proof.Machine.execBrpAll p o s
  | .brpNone p o => Sys2Proof.Machine.execBrpNone p o s
  | .msplit d a => Sys2Proof.Machine.execMsplit d a s
  | .melse a b => Sys2Proof.Machine.execMelse a b s
  | .mjoin a => Sys2Proof.Machine.execMjoin a s
  | .mpush a b => Sys2Proof.Machine.execMpush a b s
  | .mpop d => Sys2Proof.Machine.execMpop d s
  | .exmrd d => Sys2Proof.Machine.execExmrd d s
  | .exmwr a => Sys2Proof.Machine.execExmwr a s
  | .bexz o => Sys2Proof.Machine.execBexz o s
  | .sysc n => Sys2Proof.Machine.execSysc n s
  | .hvc n => Sys2Proof.Machine.execHvc n s
  | .rett r => Sys2Proof.Machine.execRett r s
  | .bkpt n => Sys2Proof.Machine.execBkpt n s
  | .prd d n => Sys2Proof.Machine.execPrd d n s
  | .pwr a n => Sys2Proof.Machine.execPwr a n s
  | .wdog a => Sys2Proof.Machine.execWdog a s
  | .hsrc c x y z => Sys2Proof.Machine.execHsrc c x y z s
  | .hmod a b c d e f g h im j => Sys2Proof.Machine.execHmod a b c d e f g h im j s
  | .hlive b m => Sys2Proof.Machine.execHlive b m s
  | .hsch a b c d e => Sys2Proof.Machine.execHsch a b c d e s
  | .himm p => Sys2Proof.Machine.execHimm p s
  | .sadd d a b => Sys2Proof.Machine.execSadd d a b s
  | .ssub d a b => Sys2Proof.Machine.execSsub d a b s
  | .smul d a b => Sys2Proof.Machine.execSmul d a b s
  | .smulh d a b => Sys2Proof.Machine.execSmulh d a b s
  | .smulhu d a b => Sys2Proof.Machine.execSmulhu d a b s
  | .sand d a b => Sys2Proof.Machine.execSand d a b s
  | .sor d a b => Sys2Proof.Machine.execSor d a b s
  | .sxor d a b => Sys2Proof.Machine.execSxor d a b s
  | .sshl d a b => Sys2Proof.Machine.execSshl d a b s
  | .sshr d a b => Sys2Proof.Machine.execSshr d a b s
  | .ssra d a b => Sys2Proof.Machine.execSsra d a b s
  | .smin d a b => Sys2Proof.Machine.execSmin d a b s
  | .smax d a b => Sys2Proof.Machine.execSmax d a b s
  | .sminu d a b => Sys2Proof.Machine.execSminu d a b s
  | .smaxu d a b => Sys2Proof.Machine.execSmaxu d a b s
  | .smov d a => Sys2Proof.Machine.execSmov d a s
  | .sclz d a => Sys2Proof.Machine.execSclz d a s
  | .sctz d a => Sys2Proof.Machine.execSctz d a s
  | .spopc d a => Sys2Proof.Machine.execSpopc d a s
  | .saddi d a im => Sys2Proof.Machine.execSaddi d a im s
  | .sandi d a im => Sys2Proof.Machine.execSandi d a im s
  | .sori d a im => Sys2Proof.Machine.execSori d a im s
  | .sxori d a im => Sys2Proof.Machine.execSxori d a im s
  | .sshli d a im => Sys2Proof.Machine.execSshli d a im s
  | .sshri d a im => Sys2Proof.Machine.execSshri d a im s
  | .ssrai d a im => Sys2Proof.Machine.execSsrai d a im s
  | .smovi d im j2 => Sys2Proof.Machine.execSmovi d im j2 s
  | .scmpEq d a b => Sys2Proof.Machine.execScmpEq d a b s
  | .scmpNe d a b => Sys2Proof.Machine.execScmpNe d a b s
  | .scmpLt d a b => Sys2Proof.Machine.execScmpLt d a b s
  | .scmpLe d a b => Sys2Proof.Machine.execScmpLe d a b s
  | .scmpLtu d a b => Sys2Proof.Machine.execScmpLtu d a b s
  | .scmpLeu d a b => Sys2Proof.Machine.execScmpLeu d a b s
  | .ssel d a b => Sys2Proof.Machine.execSsel d a b s
  | .sbfx d a b => Sys2Proof.Machine.execSbfx d a b s
  | .sbfxu d a b => Sys2Proof.Machine.execSbfxu d a b s
  | .sbfi d a b => Sys2Proof.Machine.execSbfi d a b s
  | .vaddI32 d a b => Sys2Proof.Machine.execVaddI32 d a b s
  | .vaddN32 d a b => Sys2Proof.Machine.execVaddN32 d a b s
  | .vsubI32 d a b => Sys2Proof.Machine.execVsubI32 d a b s
  | .vsubN32 d a b => Sys2Proof.Machine.execVsubN32 d a b s
  | .vmulI32 d a b => Sys2Proof.Machine.execVmulI32 d a b s
  | .vmulhI32 d a b => Sys2Proof.Machine.execVmulhI32 d a b s
  | .vmulhN32 d a b => Sys2Proof.Machine.execVmulhN32 d a b s
  | .vmadI32 d a b => Sys2Proof.Machine.execVmadI32 d a b s
  | .vandB32 d a b => Sys2Proof.Machine.execVandB32 d a b s
  | .vorB32 d a b => Sys2Proof.Machine.execVorB32 d a b s
  | .vxorB32 d a b => Sys2Proof.Machine.execVxorB32 d a b s
  | .vshlB32 d a b => Sys2Proof.Machine.execVshlB32 d a b s
  | .vshrN32 d a b => Sys2Proof.Machine.execVshrN32 d a b s
  | .vshrI32 d a b => Sys2Proof.Machine.execVshrI32 d a b s
  | .vminI32 d a b => Sys2Proof.Machine.execVminI32 d a b s
  | .vminN32 d a b => Sys2Proof.Machine.execVminN32 d a b s
  | .vmaxI32 d a b => Sys2Proof.Machine.execVmaxI32 d a b s
  | .vmaxN32 d a b => Sys2Proof.Machine.execVmaxN32 d a b s
  | .vclzB32 d a => Sys2Proof.Machine.execVclzB32 d a s
  | .vpopcB32 d a => Sys2Proof.Machine.execVpopcB32 d a s
  | .vselB32 d a b => Sys2Proof.Machine.execVselB32 d a b s
  | .vdot4I32 d a b => Sys2Proof.Machine.execVdot4I32 d a b s
  | .vdot4N32 d a b => Sys2Proof.Machine.execVdot4N32 d a b s
  | .vabsI32 d a => Sys2Proof.Machine.execVabsI32 d a s
  | .vaddi d a im => Sys2Proof.Machine.execVaddi d a im s
  | .vandi d a im => Sys2Proof.Machine.execVandi d a im s
  | .vori d a im => Sys2Proof.Machine.execVori d a im s
  | .vxori d a im => Sys2Proof.Machine.execVxori d a im s
  | .vshli d a im => Sys2Proof.Machine.execVshli d a im s
  | .vshri d a im => Sys2Proof.Machine.execVshri d a im s
  | .vsrai d a im => Sys2Proof.Machine.execVsrai d a im s
  | .vmovi d im j2 => Sys2Proof.Machine.execVmovi d im j2 s
  | .vaddI64 d a b => Sys2Proof.Machine.execVaddI64 d a b s
  | .vaddN64 d a b => Sys2Proof.Machine.execVaddN64 d a b s
  | .vsubI64 d a b => Sys2Proof.Machine.execVsubI64 d a b s
  | .vsubN64 d a b => Sys2Proof.Machine.execVsubN64 d a b s
  | .vmulI64 d a b => Sys2Proof.Machine.execVmulI64 d a b s
  | .vandN64 d a b => Sys2Proof.Machine.execVandN64 d a b s
  | .vorN64 d a b => Sys2Proof.Machine.execVorN64 d a b s
  | .vxorN64 d a b => Sys2Proof.Machine.execVxorN64 d a b s
  | .vshlN64 d a b => Sys2Proof.Machine.execVshlN64 d a b s
  | .vshrN64 d a b => Sys2Proof.Machine.execVshrN64 d a b s
  | .vshrI64 d a b => Sys2Proof.Machine.execVshrI64 d a b s
  | .vminI64 d a b => Sys2Proof.Machine.execVminI64 d a b s
  | .vminN64 d a b => Sys2Proof.Machine.execVminN64 d a b s
  | .vmaxI64 d a b => Sys2Proof.Machine.execVmaxI64 d a b s
  | .vmaxN64 d a b => Sys2Proof.Machine.execVmaxN64 d a b s
  | .vmulwI32 d a b => Sys2Proof.Machine.execVmulwI32 d a b s
  | .vmulwN32 d a b => Sys2Proof.Machine.execVmulwN32 d a b s
  | .vaddsI32 d a b => Sys2Proof.Machine.execVaddsI32 d a b s
  | .vsubsI32 d a b => Sys2Proof.Machine.execVsubsI32 d a b s
  | .vmulsI32 d a b => Sys2Proof.Machine.execVmulsI32 d a b s
  | .vandsB32 d a b => Sys2Proof.Machine.execVandsB32 d a b s
  | .vorsB32 d a b => Sys2Proof.Machine.execVorsB32 d a b s
  | .vxorsB32 d a b => Sys2Proof.Machine.execVxorsB32 d a b s
  | .vshlsB32 d a b => Sys2Proof.Machine.execVshlsB32 d a b s
  | .vshrsN32 d a b => Sys2Proof.Machine.execVshrsN32 d a b s
  | .vshrsI32 d a b => Sys2Proof.Machine.execVshrsI32 d a b s
  | .vminsI32 d a b => Sys2Proof.Machine.execVminsI32 d a b s
  | .vmaxsI32 d a b => Sys2Proof.Machine.execVmaxsI32 d a b s
  | .vaddsI64 d a b => Sys2Proof.Machine.execVaddsI64 d a b s
  | .vaddF32 d a b => Sys2Proof.Machine.execVaddF32 d a b s
  | .vsubF32 d a b => Sys2Proof.Machine.execVsubF32 d a b s
  | .vmulF32 d a b => Sys2Proof.Machine.execVmulF32 d a b s
  | .vminF32 d a b => Sys2Proof.Machine.execVminF32 d a b s
  | .vmaxF32 d a b => Sys2Proof.Machine.execVmaxF32 d a b s
  | .vabsF32 d a => Sys2Proof.Machine.execVabsF32 d a s
  | .vnegF32 d a => Sys2Proof.Machine.execVnegF32 d a s
  | .vcpysF32 d a b => Sys2Proof.Machine.execVcpysF32 d a b s
  | .vrintF32 d a => Sys2Proof.Machine.execVrintF32 d a s
  | .vclassF32 d a => Sys2Proof.Machine.execVclassF32 d a s
  | .vaddF16Bf16 d a b f => Sys2Proof.Machine.execVaddF16Bf16 d a b f s
  | .vsubF16Bf16 d a b f => Sys2Proof.Machine.execVsubF16Bf16 d a b f s
  | .vmulF16Bf16 d a b f => Sys2Proof.Machine.execVmulF16Bf16 d a b f s
  | .vminF16Bf16 d a b f => Sys2Proof.Machine.execVminF16Bf16 d a b f s
  | .vmaxF16Bf16 d a b f => Sys2Proof.Machine.execVmaxF16Bf16 d a b f s
  | .vabsF16Bf16 d a f => Sys2Proof.Machine.execVabsF16Bf16 d a f s
  | .vnegF16Bf16 d a f => Sys2Proof.Machine.execVnegF16Bf16 d a f s
  | .vfmaF32 d a b => Sys2Proof.Machine.execVfmaF32 d a b s
  | .vfmsF32 d a b => Sys2Proof.Machine.execVfmsF32 d a b s
  | .vfnmaF32 d a b => Sys2Proof.Machine.execVfnmaF32 d a b s
  | .vfnmsF32 d a b => Sys2Proof.Machine.execVfnmsF32 d a b s
  | .vfmaF16Bf16 d a b f => Sys2Proof.Machine.execVfmaF16Bf16 d a b f s
  | .vfmsF16Bf16 d a b f => Sys2Proof.Machine.execVfmsF16Bf16 d a b f s
  | .vfnmaF16Bf16 d a b f => Sys2Proof.Machine.execVfnmaF16Bf16 d a b f s
  | .vfnmsF16Bf16 d a b f => Sys2Proof.Machine.execVfnmsF16Bf16 d a b f s
  | .vdot2 d a b f => Sys2Proof.Machine.execVdot2 d a b f s
  | .vrcpF32 d a => Sys2Proof.Machine.execVrcpF32 d a s
  | .vrsqrtF32 d a => Sys2Proof.Machine.execVrsqrtF32 d a s
  | .vsqrtF32 d a => Sys2Proof.Machine.execVsqrtF32 d a s
  | .vexp2F32 d a => Sys2Proof.Machine.execVexp2F32 d a s
  | .vlog2F32 d a => Sys2Proof.Machine.execVlog2F32 d a s
  | .vsinF32 d a => Sys2Proof.Machine.execVsinF32 d a s
  | .vcosF32 d a => Sys2Proof.Machine.execVcosF32 d a s
  | .vtanhF32 d a => Sys2Proof.Machine.execVtanhF32 d a s
  | .vdivF32 d a b => Sys2Proof.Machine.execVdivF32 d a b s
  | .vaddsF32 d a b => Sys2Proof.Machine.execVaddsF32 d a b s
  | .vsubsF32 d a b => Sys2Proof.Machine.execVsubsF32 d a b s
  | .vmulsF32 d a b => Sys2Proof.Machine.execVmulsF32 d a b s
  | .vfmasF32 d a b => Sys2Proof.Machine.execVfmasF32 d a b s
  | .vminsF32 d a b => Sys2Proof.Machine.execVminsF32 d a b s
  | .vmaxsF32 d a b => Sys2Proof.Machine.execVmaxsF32 d a b s
  | .vcvtWide d a t h g sr => Sys2Proof.Machine.execVcvtWide d a t h g sr s
  | .vcvtNarrowToF32 d a f im => Sys2Proof.Machine.execVcvtNarrowToF32 d a f im s
  | .vcvtF32ToNarrow d a f im => Sys2Proof.Machine.execVcvtF32ToNarrow d a f im s
  | .vcmpEqI32 d a b => Sys2Proof.Machine.execVcmpEqI32 d a b s
  | .vcmpNeI32 d a b => Sys2Proof.Machine.execVcmpNeI32 d a b s
  | .vcmpLtI32 d a b => Sys2Proof.Machine.execVcmpLtI32 d a b s
  | .vcmpLeI32 d a b => Sys2Proof.Machine.execVcmpLeI32 d a b s
  | .vcmpLtN32 d a b => Sys2Proof.Machine.execVcmpLtN32 d a b s
  | .vcmpLeN32 d a b => Sys2Proof.Machine.execVcmpLeN32 d a b s
  | .vcmpEqF32 d a b => Sys2Proof.Machine.execVcmpEqF32 d a b s
  | .vcmpNeF32 d a b => Sys2Proof.Machine.execVcmpNeF32 d a b s
  | .vcmpLtF32 d a b => Sys2Proof.Machine.execVcmpLtF32 d a b s
  | .vcmpLeF32 d a b => Sys2Proof.Machine.execVcmpLeF32 d a b s
  | .vcmpUnF32 d a b => Sys2Proof.Machine.execVcmpUnF32 d a b s
  | .pand d a b => Sys2Proof.Machine.execPand d a b s
  | .por d a b => Sys2Proof.Machine.execPor d a b s
  | .pxor d a b => Sys2Proof.Machine.execPxor d a b s
  | .pandn d a b => Sys2Proof.Machine.execPandn d a b s
  | .pnot d a => Sys2Proof.Machine.execPnot d a s
  | .vshfl d a b => Sys2Proof.Machine.execVshfl d a b s
  | .vprmXor d a b => Sys2Proof.Machine.execVprmXor d a b s
  | .vprmRot d a b => Sys2Proof.Machine.execVprmRot d a b s
  | .vbcst d a b => Sys2Proof.Machine.execVbcst d a b s
  | .vredF32 d a => Sys2Proof.Machine.execVredF32 d a s
  | .vredI32 d a => Sys2Proof.Machine.execVredI32 d a s
  | .vredminF32 d a => Sys2Proof.Machine.execVredminF32 d a s
  | .vredmaxF32 d a => Sys2Proof.Machine.execVredmaxF32 d a s
  | .vredminI32 d a => Sys2Proof.Machine.execVredminI32 d a s
  | .vredmaxI32 d a => Sys2Proof.Machine.execVredmaxI32 d a s
  | .vredandB32 d a => Sys2Proof.Machine.execVredandB32 d a s
  | .vredorB32 d a => Sys2Proof.Machine.execVredorB32 d a s
  | .vscanF32 d a => Sys2Proof.Machine.execVscanF32 d a s
  | .vscanI32 d a => Sys2Proof.Machine.execVscanI32 d a s
  | .vscanxF32 d a => Sys2Proof.Machine.execVscanxF32 d a s
  | .vscanxI32 d a => Sys2Proof.Machine.execVscanxI32 d a s
  | .vmatch d a => Sys2Proof.Machine.execVmatch d a s
  | .srd d sr => Sys2Proof.Machine.execSrd d sr s
  | .fpcrd d => Sys2Proof.Machine.execFpcrd d s
  | .fpcwr a => Sys2Proof.Machine.execFpcwr a s
  | .vmov d a => Sys2Proof.Machine.execVmov d a s
  | .vmovs d a => Sys2Proof.Machine.execVmovs d a s
  | .smovv d a b => Sys2Proof.Machine.execSmovv d a b s
  | .vins d a b => Sys2Proof.Machine.execVins d a b s
  | .p2s d a => Sys2Proof.Machine.execP2s d a s
  | .s2p d a => Sys2Proof.Machine.execS2p d a s
  | .vld d a b z p => Sys2Proof.Machine.execVld d a b z p s
  | .vst d a b z p => Sys2Proof.Machine.execVst d a b z p s
  | .vldc d a z im => Sys2Proof.Machine.execVldc d a z im s
  | .vstc d a z im => Sys2Proof.Machine.execVstc d a z im s
  | .sld d a z im => Sys2Proof.Machine.execSld d a z im s
  | .sst d a z im => Sys2Proof.Machine.execSst d a z im s
  | .lld d a b z => Sys2Proof.Machine.execLld d a b z s
  | .lst d a b z => Sys2Proof.Machine.execLst d a b z s
  | .slda d a o z p => Sys2Proof.Machine.execSlda d a o z p s
  | .sstr d a o z p => Sys2Proof.Machine.execSstr d a o z p s
  | .vlda d a o z p => Sys2Proof.Machine.execVlda d a o z p s
  | .vstr d a o z p => Sys2Proof.Machine.execVstr d a o z p s
  | .vatom d a b w c => Sys2Proof.Machine.execVatom d a b w c s
  | .satom d a b w c => Sys2Proof.Machine.execSatom d a b w c s
  | .xcopy d a b => Sys2Proof.Machine.execXcopy d a b s
  | .xcopyt d a b => Sys2Proof.Machine.execXcopyt d a b s
  | .xgath d a b => Sys2Proof.Machine.execXgath d a b s
  | .pft a b => Sys2Proof.Machine.execPft a b s
  | .look a b => Sys2Proof.Machine.execLook a b s
  | .waitc c n => Sys2Proof.Machine.execWaitc c n s
  | .tagwany a => Sys2Proof.Machine.execTagwany a s
  | .tagwall a => Sys2Proof.Machine.execTagwall a s
  | .tagffr d a => Sys2Proof.Machine.execTagffr d a s
  | .tagclr a => Sys2Proof.Machine.execTagclr a s
  | .tagrd d => Sys2Proof.Machine.execTagrd d s
  | .fence m => Sys2Proof.Machine.execFence m s
  | .fenceTc => Sys2Proof.Machine.execFenceTc s
  | .bar b => Sys2Proof.Machine.execBar b s
  | .rbar b => Sys2Proof.Machine.execRbar b s
  | .mclose => Sys2Proof.Machine.execMclose s
  | .send a n c => Sys2Proof.Machine.execSend a n c s
  | .recv d n c => Sys2Proof.Machine.execRecv d n c s
  | .chpoll d c => Sys2Proof.Machine.execChpoll d c s
  | .amsg d a h => Sys2Proof.Machine.execAmsg d a h s
  | .launch d a b => Sys2Proof.Machine.execLaunch d a b s
  | .lwait d a => Sys2Proof.Machine.execLwait d a s
  | .spawn d a b => Sys2Proof.Machine.execSpawn d a b s
  | .tdef d a b => Sys2Proof.Machine.execTdef d a b s
  | .mma a b sr z t => Sys2Proof.Machine.execMma a b sr z t s
  | .mmas a b sr z t => Sys2Proof.Machine.execMmas a b sr z t s
  | .mmax a b sr z t m => Sys2Proof.Machine.execMmax a b sr z t m s
  | .tcfg a sr => Sys2Proof.Machine.execTcfg a sr s
  | .tld a sr => Sys2Proof.Machine.execTld a sr s
  | .tst a sr => Sys2Proof.Machine.execTst a sr s
  | .tzero a => Sys2Proof.Machine.execTzero a s
  | .txfer a p => Sys2Proof.Machine.execTxfer a p s
  | .trecv a p => Sys2Proof.Machine.execTrecv a p s
  | .amcpOut sr => Sys2Proof.Machine.execAmcpOut sr s
  | .amcpIn sr => Sys2Proof.Machine.execAmcpIn sr s
  | .amzero sr => Sys2Proof.Machine.execAmzero sr s
  | .xratom d a b => Sys2Proof.Machine.execXratom d a b s
  | .xcoll a b => Sys2Proof.Machine.execXcoll a b s
  | .segq d a => Sys2Proof.Machine.execSegq d a s
  | .ferry a => Sys2Proof.Machine.execFerry a s
  | .ksel b a d => Sys2Proof.Machine.execKsel b a d s
  | .klw b a d => Sys2Proof.Machine.execKlw b a d s
  | .ksw b a d => Sys2Proof.Machine.execKsw b a d s
  | .kfadd b a d => Sys2Proof.Machine.execKfadd b a d s
  | .kend b a d => Sys2Proof.Machine.execKend b a d s
  | .illegalInstruction w => Sys2Proof.Machine.execIllegalInstruction w s
  | .keeperBaseInstruction w => Sys2Proof.Machine.execKeeperBaseInstruction w s
  | .prefetchComplete core n => Sys2Proof.Machine.execPrefetchComplete core n s
  | .landingOccupancySample core => Sys2Proof.Machine.execLandingOccupancySample core s
  | .lossOfTraining port => Sys2Proof.Machine.execLossOfTraining port s
  | .upstreamLinkUp => Sys2Proof.Machine.execUpstreamLinkUp s
  | .stoppedWaveRestart w r => Sys2Proof.Machine.execStoppedWaveRestart w r s

end Sys2Proof.Machine
end

