-- ==== Sys2Proof/Machine/Schedule.lean ====
section
/-!
DEFINITION. What happens next: a word issues, a keeper's instruction executes, time passes, one of the other happenings of the agenda
takes place, or the device takes the next step that it can take by itself (log entry 1).
-/
namespace Sys2Proof.Machine

/-! ## Issuing (R140, R149, R171, R457) -/

/-- The word that the wave looked at issues next. -/
def State.nextWord (s : State) : Word := s.wave.pos.words.getD s.wave.pos.ridx 0

/-- Whether the wave looked at may issue: it holds a slot, no trap or invalidation holds it, and the single-step trap of the group before
is not still to be taken (R442). -/
def Wave.mayIssue (w : Wave) : Bool :=
  !(w.stepDue && decide (w.arch.mode = .user) && w.hints.isEmpty) && decide (w.status = .inClause) && w.stop.isNone && w.pending.isNone && w.waitInv.isNone && decide (w.pos.ridx < w.pos.words.length)

/-- A region entry that is due is reached before the group issues (R457). -/
def State.enterDue (s : State) : State := if s.wave.entryDue = true ∧ s.wave.hints = [] then s.enter else s

/-- The next word of the wave looked at issues. -/
noncomputable def State.issueWord (s : State) : Out :=
  if s.wave.mayIssue = false then s.skip
  else
    let t := s.enterDue
    match decodeWord t.nextWord with
    | .ok i => exec i t
    | .error _ => execIllegalInstruction t.nextWord t

/-- The word at the pc of the handler that the keeper looked at runs; zero past the end of its code. -/
def KeeperRun.fetch (r : KeeperRun) : Nat := fieldAt r.code (r.pc.toNat - r.codeBase.toNat) 4

/-- Whether the pc lies in the handler's code. -/
def KeeperRun.inCode (r : KeeperRun) : Bool :=
  decide (r.codeBase.toNat ≤ r.pc.toNat ∧ r.pc.toNat < r.codeBase.toNat + r.code.length)

/-- The next instruction of the handler executes (R287 to R289): a custom-0 instruction of R288, or a base instruction; what lies past
the code is an illegal encoding. -/
noncomputable def State.issueKeeper (s : State) : Out :=
  match s.keeper.run with
  | none => s.skip
  | some r =>
    let w := if r.inCode then r.fetch else 0
    match decodeKeeper w with
    | some i => exec i s
    | none => execKeeperBaseInstruction (BitVec.ofNat 32 w) s

/-! ## Time (R4, R17, R18, R20) -/

/-- The count of a wave's watchdog goes on (R439). -/
def Wave.countDown (w : Wave) (n : Nat) : Wave :=
  if n = 0 then w
  else if w.arch.wdog.toNat ≤ n then w.expire else { w with arch := { w.arch with wdog := w.arch.wdog - BitVec.ofNat 64 n } }

/-- The timers of a core's bins go on (R118). -/
def Core.countDown (c : Core) (n : Nat) : Core := { c with bins := c.bins.map fun b => { b with left := b.left.map (· - n) } }

/-- Whether the bins of a core count: those of a frozen VI keep their state (R32, log entry 121). -/
def State.binsCount (s : State) (c : Core) : Bool :=
  match c.vi.bind s.viAt with
  | some v => decide (v.phase ≠ .frozen)
  | none => true

/-- The eighths of a nominal cycle by which the clock of a power block goes on in one: none without power or while it is gated, else one
more than its operating point (R18, R22). -/
def State.clockRate (s : State) (block : Nat) : Nat :=
  match s.platform.blocks.find? (·.block == block) with
  | some b => if b.powered && !b.gated then b.point + 1 else 0
  | none => 0

/-- The clocks after some nominal core and uncore cycles and some microseconds: blocks 0 to 5 are the sectors, 6 to 17 the slice groups, 42
is the hub (R17). -/
def State.clockAfter (s : State) (core uncore us : Nat) : Clock :=
  let c := s.clock
  { c with sectors := c.sectors.zipIdx.map fun x => x.1 + core * s.clockRate x.2
           groups := c.groups.zipIdx.map fun x => x.1 + uncore * s.clockRate (6 + x.2)
           hub := c.hub + uncore * s.clockRate 42, us := c.us + us }

/-- Time passes: every block counts cycles of its own clock (R20); watchdogs and bins count those of their core. -/
def State.tick (s : State) (core uncore us : Nat) : State :=
  let t : State := { s with clock := s.clockAfter core uncore us }
  let passed (i : Nat) : Nat := t.coreTime i - s.coreTime i
  if t.clock.sectors = s.clock.sectors then t
  else
    (t.mapWaves fun w => if s.watched w then w.countDown (passed w.core) else w).mapCores fun c =>
      if s.binsCount c then c.countDown (passed c.id) else c

/-- The nominal cycles and microseconds of the next beat: 2.4 core cycles and 2 uncore cycles a nanosecond (R4). -/
def Clock.next (c : Clock) : Nat × Nat × Nat :=
  let n := c.beat + 1
  (1, if n % 6 = 0 then 0 else 1, if n % 2400 = 0 then 1 else 0)

/-- One nominal core cycle. -/
def State.cycle (s : State) : State :=
  let x := s.clock.next
  let t := s.tick x.1 x.2.1 x.2.2
  { t with clock := { t.clock with beat := s.clock.beat + 1 } }

/-- Whether a core, or a slice, completes a cycle of its clock in the next beat. -/
def State.coreTurns (s : State) (core : Nat) : Bool :=
  let x := s.clock.next
  decide (s.coreTime core < (s.clockAfter x.1 x.2.1 x.2.2).sectors.getD (sectorOf core) 0 / 8)

def State.sliceTurns (s : State) (slice : Nat) : Bool :=
  let x := s.clock.next
  decide (s.sliceTime slice < (s.clockAfter x.1 x.2.1 x.2.2).groups.getD (slice / 8) 0 / 8)

/-! ## The other happenings of the agenda -/

/-- Part of an asynchronous operation is performed. -/
def State.perform (s : State) (id off n : Nat) : Out :=
  match s.opAt id with
  | none => s.skip
  | some o =>
    match o.kind with
    | .collective _ _ _ => s.performCollective o off n
    | .xratom a _ _ =>
      if o.started = false ∨ o.ended = true ∨ o.left = [] ∨ s.heldBack o = true ∨ s.viRuns o.env.vi = false then s.skip
      else s.performXratom o a
    | .amsg _ _ _ => s.skip
    | _ => if s.mayPerform o off n then s.performMoves o off n else s.skip

/-- Whether an element is of a register, and so may be written before its instruction completes: flags are not (R155, R187). -/
def RegWrite.early : RegWrite → Bool
  | .flags _ => false
  | _ => true

/-- Element n of a long-latency result is written early (R155), also in the region entries that await it: its bytes are settled from then
on. -/
def State.land (s : State) (r : WaveRef) (op n : Nat) : Out :=
  match s.waveAt r with
  | none => s.skip
  | some w =>
    match (w.ll.find? (·.id == op)).bind fun o => if o.landed.contains n then none else o.writes[n]? with
    | none => s.skip
    | some x =>
      let mark (o : LongOp) : LongOp :=
        if o.id = op then { o with racing := o.racing.filter (·.1 != n), landed := o.landed ++ [n] } else o
      let take (e : RegionEntry) : RegionEntry := if e.lls.contains op then { e with arch := e.arch.land x } else e
      if x.early then .next (s.putWave { w.land x with ll := w.ll.map mark, entries := w.entries.map take }) else s.skip

/-- Whether two pages of a VI translate a common address. -/
def Page.meets (p q : Page) : Bool := p.asid == q.asid && decide (p.vpage < q.vpage + q.size ∧ q.vpage < p.vpage + p.size)

/-- A page table of a VI is edited: the translation of a page is entered, in place of those that it meets, or removed (R290, log entry
8). -/
def Vi.editPage (v : Vi) (p : Page) (present : Bool) : Vi :=
  let rest := v.pages.filter fun q => !q.meets p
  { v with pages := if present then rest ++ [p] else rest }

/-- The pages that a unit keeps at most: a core's TLB 64 of 64 KiB and 32 of 2 MiB (R290); of the walkers nothing is said. -/
def TlbUnit.room (u : TlbUnit) (large : Bool) : Option Nat :=
  match u with
  | .core _ => some (if large then 32 else 64)
  | .walker _ => none

/-- A translation of the tables is kept by a TLB or a walker from now on, or leaves it (R290); the one that came first makes room. -/
def State.keepPage (s : State) (u : TlbUnit) (vi : Nat) (p : Page) (present : Bool) : Out :=
  match s.viAt vi with
  | none => s.skip
  | some v =>
    let rest := s.tlbs.filter fun x => !(decide (x.unit = u) && x.vi == vi && x.page.meets p)
    let mine := rest.filter fun x => decide (x.unit = u) && x.page.large == p.large
    let full := (u.room p.large).any fun n => decide (n ≤ mine.length)
    let rest := if full then (match mine.head? with | some x => rest.erase x | none => rest) else rest
    if present = false then .next { s with tlbs := s.tlbs.filter fun x => !(decide (x.unit = u) && x.vi == vi && x.page == p) }
    else if v.pages.contains p then .next { s with tlbs := rest ++ [{ unit := u, vi := vi, page := p }] } else s.skip

/-- The capability entries as they stand are kept, and checks use the kept ones or those in memory (R96). -/
def State.keepCaps (s : State) (v : Vi) (old : Bool) : Vi :=
  { v with capHeld := v.capHeld.or (some (Cells.readList (w := 8) s.mem (v.ctlKey 0) 0x10000)), capOld := old }

/-- A change made to a VI. -/
def State.onVi (s : State) (vi : Nat) (f : Vi → Vi) : Out :=
  match s.viAt vi with
  | none => s.skip
  | some v => .next (s.setVi (f v))

/-- Packets of a port's link are acknowledged (R357): their credits are free, and packets that waited for them are sent (R358). -/
def State.ackLink (s : State) (port n : Nat) : Out :=
  match s.portAt port with
  | none => s.skip
  | some x => .next ((s.setPort { x with unacked := x.unacked.drop n, waiting := [] }).promote port x.waiting)

/-- The partition monitor writes the mask of a wave that is halted for debug (R223, R443). -/
def State.setMask (s : State) (r : WaveRef) (exm : DWord) : Out :=
  match s.waveAt r with
  | none => s.skip
  | some w =>
    if w.stop = some .halted then .next (s.putWave { w with arch := { w.arch with exm := exm &&& maskOf (List.range w.env.wavew) } })
    else s.skip

/-- The marked regions after the monitor marks one, with its owner, or takes its mark away (R284). -/
def markRegion (rs : List OwnRegion) (region : Nat) (accel marked : Bool) : List OwnRegion :=
  let rest := rs.filter (·.region != region)
  if marked then rest ++ [{ region := region, accel := accel, holdUntil := 0, wanted := false }] else rest

/-- The partition monitor sets hub-private state. -/
def State.monitorSets (s : State) (m : MonitorAct) : Out :=
  match m with
  | .digests vi ds => s.onVi vi fun v => { v with digests := ds }
  | .cores vi cs => s.onVi vi fun v => { v with coreSet := cs.filter (coreIds.contains ·) }
  | .endpoint ep vi =>
    match s.endpointAt ep with
    | none => s.skip
    | some e => .next (s.setEndpoint { e with vi := vi })
  | .region n accel marked => .next { s with hub := { s.hub with regions := markRegion s.hub.regions n accel marked } }
  | .grace n => if n < 65536 then .next { s with hub := { s.hub with pgrace := n } } else s.skip
  | .mask r exm => s.setMask r exm
  | .rewrite r x => s.rewriteHalted r x

/-- A happening of the agenda takes place. -/
noncomputable def State.happen (s : State) (h : Happening) : Out :=
  match h with
  | .op i => exec i s
  | .issue => s.issueWord
  | .keeper => s.issueKeeper
  | .focus r =>
    match s.focus r with
    | some t => .next t
    | none => s.skip
  | .tick a b c => .next (s.tick a b c)
  | .perform id off n => s.perform id off n
  | .land r op n => s.land r op n
  | .page vi p present => s.onVi vi fun v => v.editPage p present
  | .cachePage u vi p present => s.keepPage u vi p present
  | .race r op n bytes => s.race r op n bytes
  | .gate b on => s.gate b on
  | .controlRead x len => s.controlAccess { write := false, target := x, bytes := [], len := len }
  | .controlWrite x bytes => s.controlAccess { write := true, target := x, bytes := bytes, len := 0 }
  | .heldAccess n => s.retryHeld n
  | .hostMap vi => .next (s.hostMaps vi)
  | .hostConfig f off b => .next (s.hostConfigures f off b)
  | .holdCaps vi old => s.onVi vi fun v => s.keepCaps v old
  | .domainView vi view => s.onVi vi fun v => { v with view := view }
  | .want line => s.postWant line
  | .linkAck port n => s.ackLink port n
  | .monitor m => s.monitorSets m

/-! ## What the device can do by itself -/

/-- An attempt at a wave: where nothing comes of it, the wave looked at stays the one that it was. -/
def tryAt (r : WaveRef) (f : State → Out) (s : State) : Out :=
  match s.focus r with
  | none => .next s
  | some u =>
    match f u with
    | .next t => .next (if t = u then s else t)
    | z => z

/-- An attempt at a keeper. -/
def tryKeeper (slice : Nat) (f : State → Out) (s : State) : Out :=
  let u := s.focusKeeper slice
  match f u with
  | .next t => .next (if t = u then s else t)
  | z => z

/-- What may happen to one wave, in order. -/
def Wave.offers (w : Wave) : List (State → Out) :=
  let r : WaveRef := ⟨w.core, w.slot⟩
  ((w.ll.filter (·.left == 0)).map (fun o => execLongLatencyComplete r o.id) ++
  (match w.arrival with
    | some a => if a.released ∧ a.complete = false then
        [execBarrierComplete { reachLevel := a.reachLevel, grid := w.env.grid, group := if a.reachLevel then w.env.reach else w.env.team,
                               number := a.number }] else []
    | none => []) ++
  [execTrapEntry r, execExitTakesEffect r, execEntryConfirm r, execTlbinvComplete r, execCapinvComplete r,
   execSupervisorBudgetExpiry r, execTerminalInstructionComplete r, execEngineFailureTrap r, execWatchdogTrap r,
   execSingleStepTrap r, execLookoutTimeout r, execFetchFillComplete r, execWaveBoost r, execClauseStart r,
   execLookoutStart r]).map (tryAt r)

/-- What may happen on one core. -/
def Core.offers (c : Core) : List (State → Out) :=
  (if c.struck.isSome then [execStrikeReport c.id] else []) ++
  (if c.held.isEmpty then [] else [execQuarantineRelease c.id]) ++
  c.matrix.queue.flatMap (fun o => [execMatrixOpComplete c.id o.id, execMatrixOpBegin c.id o.id]) ++
  c.bins.map (fun b => execBinWaveStart c.id b.index) ++
  (if c.residents.isEmpty then [] else [execOverflowTake c.id]) ++
  (if c.landing.isEmpty then [] else [execLandingQueueAdvance c.id]) ++
  (if c.departure.isEmpty then [] else execTravellerDepart c.id :: (List.range c.departure.length).map (execTravellerReoffer c.id)) ++
  (if c.occSample = c.landing.length then [] else [execLandingOccupancySample c.id]) ++
  (List.range c.prefetches.length).map (execPrefetchComplete c.id) ++
  c.outgoing.map (fun p => execChannelReoffer c.id p.seq p.sch)

/-- How an operation may go on: the next of its units, in parts of falling size, or its end. -/
def AsyncOp.offers (o : AsyncOp) : List (State → Out) :=
  let part (n : Nat) : List (State → Out) := o.left.take 1 |>.map fun x => fun s => s.perform o.id x.1 (min n x.2)
  match o.kind with
  | .copy => [execCopyComplete o.id .success] ++ part 256
  | .copyT _ _ _ _ _ _ => [execCopyComplete o.id .success] ++ part 256 ++ part 16 ++ part 1
  | .gather size _ => [execGatherComplete o.id .success] ++ part size
  | .collective _ _ _ => [execCollectiveComplete o.id .success, fun s => s.perform o.id 0 0] ++ part 64 ++ part 8 ++ part 1
  | .xratom _ _ _ => [execXratomResult o.id .success] ++ part 1
  | .amsg _ _ _ => [execAmsgReply o.id]

/-- What may happen to a VI: its queues, its pin windows, its pre-emption. -/
def Vi.offers (v : Vi) : List (State → Out) :=
  v.queues.flatMap (fun q => if q.qst = 1 then [execStaleKickTimeout v.vi q.q, execSlotRead v.vi q.q] else []) ++
  (v.pins.filter (·.active)).map (fun p => execPinWindowComplete v.vi p.w) ++
  (if v.phase = .teardown then [execTeardownComplete v.vi] else []) ++
  match v.preempt with
  | some p => execPgraceExpiry v.vi :: p.waiting.map (execEngineStopped v.vi)
  | none => []

/-- What may happen to a grid. -/
def Grid.offers (g : Grid) : List (State → Out) :=
  (if g.record.ferry then [execFerryGridStart g.id] else []) ++
  g.reaches.flatMap (fun x =>
    (if x.phase = .placed then [execReachStart g.id x.index] else []) ++
    (if x.phase = .running then x.teams.map fun t => execTeamComplete g.id t.team else [])) ++
  [execGridRetire g.id, execCandidateReserved g.id] ++
  match g.map with
  | some m => m.segs.flatMap fun x => [execReplicaLoadComplete g.id x.seg, execSegmentReplication g.id x.seg]
  | none => []

/-- What may happen at a keeper, its own instructions apart. -/
def Keeper.offers (k : Keeper) : List (State → Out) :=
  ((if k.held.isEmpty then [] else [execKeeperRelease k.slice]) ++ (if k.queue.isEmpty then [] else [execKeeperMessage k.slice])).map
    (tryKeeper k.slice)

/-- A packet that the home keeps is served, when it can be. -/
def serveHeld (p : FabPacket) (s : State) : Out :=
  match packetEvent p with
  | none => s.skip
  | some i =>
    match exec i s with
    | .next t =>
      if t.fabric.heldIn.length < s.fabric.heldIn.length ∨
          { t with fabric := { t.fabric with heldIn := s.fabric.heldIn } } ≠ s then .next t
      else s.skip
    | z => z

/-- What may happen on the fabric. -/
def Fabric.offers (f : Fabric) : List (State → Out) :=
  f.heldIn.map serveHeld ++ f.heard.map (fun x => execPeerLost x.1) ++ f.recalls.map (fun r => execAdoptionServe r.pkg) ++
  (f.ports.filter fun x => decide (x.state = .training)).map (fun x => execCapabilityRecordSend x.n) ++
  (if f.ports.any fun x => decide (x.state = .unlocked ∨ x.state = .locked ∨ x.state = .running) then [execLinkStateSend] else [])

/-- What may happen on the ring. -/
def Ring.offers (r : Ring) : List (State → Out) :=
  r.ejected.flatMap (fun m => [execChannelPacketArrival m, execChannelAccept (chanAt m.dst m.dep) m.seq m.sch,
    execChannelReject (chanAt m.dst m.dep) m.seq m.sch]) ++
  (r.onRing.zipIdx.flatMap fun x => x.1.flitsAt.eraseDups.flatMap fun stop =>
    [execRingEject stop x.2, execRingSharedMove stop x.2, execRingEscapeMove stop x.2]) ++
  r.waiting.map fun x => execRingInjection x.1 x.2.1

/-- Everything that the device may do by itself, in the order in which this model tries it. -/
def State.offers (s : State) : List (State → Out) :=
  s.grids.flatMap Grid.offers ++ (s.core :: s.cores).flatMap Core.offers ++ (s.allWaves.filter fun w => decide (w.status ≠ .absent)).flatMap Wave.offers ++
  s.ops.flatMap AsyncOp.offers ++ (s.keeper :: s.keepers).flatMap Keeper.offers ++
  (List.range s.net.length).map execTravellerArrival ++ s.vis.flatMap Vi.offers ++ [execDispatch] ++
  s.hub.regions.flatMap (fun r => [execOwnershipTransfer r.region, execOwnershipHoldExpiry r.region]) ++
  (s.control.wanted.filter (·.tag.isNone)).map (fun w => fun s => s.postWant w.line) ++ s.fabric.offers ++ s.ring.offers ++
  (List.range s.hub.hostHeld.length).map (fun n => fun s => s.retryHeld n) ++
  s.hub.endpoints.flatMap fun e => e.outgoing.map fun p => execChannelReoffer (512 + e.ep) p.seq p.sch

/-- The first of some offers that changes the state. -/
def State.firstOf (s : State) : List (State → Out) → Option State
  | [] => none
  | f :: fs =>
    match f s with
    | .next t => if t ≠ s then some t else s.firstOf fs
    | _ => s.firstOf fs

/-! ## A cycle in which nothing else happens (R140, R149) -/

/-- A wave put among others, those of the lower issue slots first (R333). -/
def bySlot (w : Wave) : List Wave → List Wave
  | [] => [w]
  | x :: xs => if x.issueSlot < w.issueSlot then x :: bySlot w xs else w :: x :: xs

/-- One word issues in every slot that a wave holds. A word that cannot issue leaves its wave as it is. -/
def State.issueAll (issue : State → Out) (s : State) : List Wave → State
  | [] => s
  | w :: ws =>
    let t := match s.focus ⟨w.core, w.slot⟩ with
      | none => s
      | some u =>
        if u.wave.mayIssue then
          match issue u with
          | .next v => v
          | _ => u
        else s
    State.issueAll issue t ws

/-- One instruction of every handler under way executes. -/
def State.keepAll (keep : State → Out) (s : State) : List Keeper → State
  | [] => s
  | k :: ks =>
    let u := s.focusKeeper k.slice
    let t := match keep u with
      | .next v => v
      | _ => u
    State.keepAll keep t ks

/-- The device goes on by itself: the first thing that can happen, else a nominal core cycle, in which a word issues in every slot of
each core, and an instruction of each handler, whose clock completes a cycle. -/
def State.goOn (issue keep : State → Out) (s : State) : State :=
  match s.firstOf s.offers with
  | some t => t
  | none =>
    let t := State.issueAll issue s ((s.allWaves.filter fun w => w.mayIssue && s.coreTurns w.core).foldr bySlot [])
    (State.keepAll keep t ((t.keeper :: t.keepers).filter fun k => k.run.isSome && s.sliceTurns k.slice)).cycle

/-- A strike is reported no later than 48 core cycles after it has occurred; the report acts once the long-latency instructions of the
core's waves have completed (R454, R460). -/
def State.reportStrikes (s : State) : State :=
  ((s.core :: s.cores).filter fun c => c.struck.any fun t => decide (t + 48 ≤ s.coreTime c.id)).foldl (fun s c =>
    match execStrikeReport c.id s with
    | .next t => t
    | _ => s) s

/-- What every step leaves settled: the ferry's hot segments are noted, overdue strikes are reported, waves that must stop where they
stand have stopped, the windows of paused queues are abandoned, cores have given up what ended teams left on them, lookouts that are to
end are marked, the waves that are ready without a slot are counted, and VIs are told of the losses of packages. -/
def State.settle (s : State) : State :=
  s.watchSegments.reportStrikes.settleStops.closeWindows.freeCores.markLookouts.countUnserved.tellUntold

/-- The outcome of a step, settled. -/
def settled : Out → Out
  | .next s => .next s.settle
  | z => z

end Sys2Proof.Machine
end

