-- ==== Sys2Proof/Machine/Step.lean ====
section
/-!
DEFINITION. One step of the machine, and the placing of a word where the next step issues it.
-/
namespace Sys2Proof.Machine

/-- One step: the first happening of the agenda takes place; with none, the device goes on by itself (log entry 1). -/
noncomputable def step (s : State) : Host.Outcome State Fault Refusal :=
  match s.agenda with
  | h :: rest => settled (State.happen { s with agenda := rest } h)
  | [] => settled (.next (s.goOn State.issueWord State.issueKeeper))

/-- The header of a clause of one word, or, for a hint word, of two: no flags waited for, none attached (R148, R151). -/
def placedHeader (w : Nat) : Word := if isHint (BitVec.ofNat 32 w) then 0x000FF010 else 0x000FF000

/-- The words of that clause: the word itself, and after a hint word the NOP that it modifies. -/
def placedWords (w : Nat) : List Word := if isHint (BitVec.ofNat 32 w) then [BitVec.ofNat 32 w, 0x04000000] else [BitVec.ofNat 32 w]

/-- Whether a word belongs to a keeper's handler: its major opcode is custom-0 (R288). -/
def isKeeperWord (w : Nat) : Bool := w % 128 == 11 && w / 2 ^ 26 % 64 == 0

/-- A message whose handler is the word. -/
def placedMessage : KeeperMsg := { op := 0, vi := 0, asid := 0, src := 0, target := 0, handler := 0, payload := [] }

/-- The state with a word placed where the next step issues it: as the only word of a clause that the wave looked at has started, or
as the first instruction of a handler that the keeper looked at has started. -/
def State.withFetchWord (s : State) (nbits w : Nat) : State :=
  if isKeeperWord w then
    { s with agenda := .keeper :: s.agenda, keeper := { s.keeper with run := some (KeeperRun.start placedMessage 0 (bytesOf 4 w)) } }
  else
    let p : Position := { s.wave.pos with header := placedHeader w, words := placedWords w, ridx := 0, mid := false }
    { s with agenda := .issue :: s.agenda,
             wave := { s.wave with pos := p, status := .inClause, stop := none, pending := none, waitInv := none, stepDue := false } }

end Sys2Proof.Machine
end

