-- ==== Sys2Proof/Safety.lean ====
section
/-!
DEFINITION. The terms in which claims are stated: when an instruction's checks pass, what it may change, the invariant of
the machine's memory.
-/
namespace Sys2Proof.Machine

/-- The checks that come before an instruction's effect pass (R156, R160, R161, R164, R421), and a lookout may execute it (R145). -/
def State.clears (s : State) (f : Form) : Prop :=
  f.refuses s.wave = none ∧ (s.wave.lookoutOf.isSome = true → f.lookout = true)

/-- A state with its core's count of ages as another has it (R141). -/
def State.agesOf (t s : State) : State := { t with core := { t.core with nextAge := s.core.nextAge, ageAt := s.core.ageAt } }

/-- Nothing is changed but the wave looked at, and its core's count of ages (R141). -/
def State.onlyWave (s t : State) : Prop := { t.agesOf s with wave := s.wave } = s

/-- What a wave holds besides its registers, its place in the code and its scheduling is kept: its counters, its long-latency
instructions, its batches, its barrier, its pending traps. -/
def Wave.sameElse (w v : Wave) : Prop :=
  { v with arch := w.arch, pos := w.pos, hints := w.hints, status := w.status, replay := w.replay, fellX := w.fellX,
           issued := w.issued, stepDue := w.stepDue, prio := w.prio, noShare := w.noShare, yieldDue := w.yieldDue, age := w.age,
           fenceAt := w.fenceAt } = w

/-- `exm` after a group: a replay's mask is restored (R432). -/
def Wave.maskAfter (w : Wave) : DWord :=
  match w.replay with
  | some m => m &&& w.lanes
  | none => w.arch.exm

/-- Registers are kept but for some scalars, vectors and predicates; `fpc` too, unless `fp` says that flags may be raised. -/
def Wave.keeps (w v : Wave) (ss vs ps : List Nat) (fp : Bool) : Prop :=
  v.arch = { w.arch with sregs := v.arch.sregs, vregs := v.arch.vregs, preds := v.arch.preds, fpc := v.arch.fpc, exm := v.arch.exm } ∧
  (∀ r, r ∉ ss → v.s r = w.s r) ∧ (∀ r l, l < 64 → r ∉ vs → v.v r l = w.v r l) ∧ (∀ p, p ∉ ps → v.pred p = w.pred p) ∧
  (fp = false → v.arch.fpc = w.arch.fpc)

/-- Where a wave stands after the word that it executed: the next word of the clause, or the fall-through clause (R148, R152). -/
def Wave.wentOn (w v : Wave) : Prop :=
  v.hints = [] ∧ v.replay = none ∧
  if w.lastWord then v.pos = .at (fallThrough w.pos.pc w.pos.header) ∧ v.status = .ready
  else v.pos = { w.pos with ridx := w.pos.ridx + 1 } ∧ v.status = .inClause

/-- Where a wave stands after a taken transfer to `a`. -/
def Wave.wentTo (v : Wave) (a : DWord) : Prop :=
  v.hints = [] ∧ v.replay = none ∧ v.pos = .at a ∧ v.fellX = false ∧ v.status = .ready

/-- The frame of an instruction that writes registers of its wave and nothing else: everything but the registers named, `exm` and the
wave's place is unchanged (`fpc` too, unless `fp` says that flags may be raised), and every byte reads as before. -/
def State.kept (s t : State) (ss vs ps : List Nat) (fp : Bool) : Prop :=
  s.wave.keeps t.wave ss vs ps fp ∧ s.wave.sameElse t.wave ∧ s.onlyWave t ∧ ∀ p, t.byte p = s.byte p

/-- The same for an instruction that leaves `exm` alone, but for the end of a replay, and goes on to the next word. -/
def State.ran (s t : State) (ss vs ps : List Nat) (fp : Bool) : Prop :=
  s.kept t ss vs ps fp ∧ t.wave.arch.exm = s.wave.maskAfter ∧ s.wave.wentOn t.wave

/-- The instruction has run as `ran` says, and a new region begins behind it (R457, R458). -/
def ranToRegionEnd (s t : State) (ss vs ps : List Nat) : Prop :=
  s.ran { t with wave := { t.wave with entries := s.wave.entries, entryDue := s.wave.entryDue } } ss vs ps false ∧
  t.wave.entries.length = s.wave.entries.length + 1 ∧ t.wave.entries.take s.wave.entries.length = s.wave.entries ∧
  t.wave.entryDue = false

/-- Bytes written over others in order: where two name one place, the later stays (R294). -/
def overlaid (xs : List (Place × Byte)) (f : Place → Byte) (p : Place) : Byte :=
  xs.foldl (fun r x => if x.1 = p then x.2 else r) (f p)

/-- Nothing is changed but the wave looked at, the stores that its core holds, and the count of ages. -/
def State.onlyStores (s t : State) : Prop :=
  let u := t.agesOf s
  { u with wave := s.wave, core := { u.core with held := s.core.held } } = s

/-- The state in which what the wave's loads have returned is settled (R291): so is every state in which the wave accesses memory again. -/
def State.calm (s : State) : State := { s with wave := s.wave.settleLoads }

/-- The state with a load in progress; `racing` are its elements whose sector is being filled (R291). -/
def State.loading (s : State) (ws : List RegWrite) (racing : List (Nat × List Place)) : State :=
  let w := s.wave.settleLoads
  { s with
    ids := s.ids + 1,
    wave := { w with
      ll := w.ll ++ [{ id := s.ids, flag := hdrFlag w.pos.header w.pos.ridx, left := 0, writes := ws, racing := racing }] } }

/-- The state as it is once a long-latency instruction is in progress: attached to its flag by its word index, with the elements
that it is to write and the steps elsewhere that it awaits (R153, R154). -/
def State.inProgress (s : State) (left : Nat) (ws : List RegWrite) : State :=
  { s with
    ids := s.ids + 1,
    wave := { s.wave with
      ll := s.wave.ll ++ [{ id := s.ids, flag := hdrFlag s.wave.pos.header s.wave.pos.ridx, left := left, writes := ws }] } }

/-- Memory is in its canonical form: addresses strictly rising, no entry equal to what an unlisted address reads as. -/
def State.memInv (s : State) : Prop := Memory.wf s.mem = true

end Sys2Proof.Machine
end

