-- ==== Sys2Proof/Certificates/Slice0/Obligations.lean ====
section
/-!
DEFINITION. The statements for the provers. Each table that a statement uses stands before it: what the spec's rules give for
the instructions named in it, in the words of the rules.
-/
namespace Sys2Proof.Claims

open Sys2Proof.Machine

/-! ## Scalar integer arithmetic (R190 to R193) -/

/-- An exact value clamped to a range when the group's HMOD saturates, else taken modulo 2^n (R190, R193, R194, R196). -/
def clampOrWrap (n : Nat) (h : Hints) (lo hi x : Int) : BitVec n :=
  if h.sat = some 1 then (if x < lo then BitVec.ofInt n lo else if hi < x then BitVec.ofInt n hi else BitVec.ofInt n x)
  else BitVec.ofInt n x

/-- Where a bit-field instruction's control in sb puts the field: its lowest and its highest bit (R192). -/
def bitField (y : DWord) : Nat × Nat := ((y &&& 63).toNat, min ((y &&& 63).toNat + ((y >>> 8) &&& 63).toNat) 63)

/-- The two-source rows of 0x09 and the compares of 0x0B: destination, sources, whether an HMOD may
saturate, and the result (R190, R192, R193). -/
def scalarRow (h : Hints) : Instr → Option (BitVec 7 × BitVec 7 × BitVec 7 × Bool × (DWord → DWord → DWord))
  | .sadd d a b => some (d, a, b, true, fun x y => clampOrWrap 64 h (-(2 ^ 63)) (2 ^ 63 - 1) (x.toInt + y.toInt))
  | .ssub d a b => some (d, a, b, true, fun x y => clampOrWrap 64 h (-(2 ^ 63)) (2 ^ 63 - 1) (x.toInt - y.toInt))
  | .smul d a b => some (d, a, b, false, fun x y => BitVec.ofNat 64 (x.toNat * y.toNat))
  | .smulh d a b => some (d, a, b, false, fun x y => (x.signExtend 128 * y.signExtend 128).extractLsb' 64 64)
  | .smulhu d a b => some (d, a, b, false, fun x y => (x.setWidth 128 * y.setWidth 128).extractLsb' 64 64)
  | .sand d a b => some (d, a, b, false, fun x y => x &&& y)
  | .sor d a b => some (d, a, b, false, fun x y => x ||| y)
  | .sxor d a b => some (d, a, b, false, fun x y => x ^^^ y)
  | .sshl d a b => some (d, a, b, false, fun x y => x <<< (y &&& 63))
  | .sshr d a b => some (d, a, b, false, fun x y => x >>> (y &&& 63))
  | .ssra d a b => some (d, a, b, false, fun x y => x.sshiftRight' (y &&& 63))
  | .smin d a b => some (d, a, b, false, fun x y => if y.slt x then y else x)
  | .smax d a b => some (d, a, b, false, fun x y => if x.slt y then y else x)
  | .sminu d a b => some (d, a, b, false, fun x y => if y.ult x then y else x)
  | .smaxu d a b => some (d, a, b, false, fun x y => if x.ult y then y else x)
  | .scmpEq d a b => some (d, a, b, false, fun x y => if x = y then 1 else 0)
  | .scmpNe d a b => some (d, a, b, false, fun x y => if x = y then 0 else 1)
  | .scmpLt d a b => some (d, a, b, false, fun x y => if x.slt y then 1 else 0)
  | .scmpLe d a b => some (d, a, b, false, fun x y => if y.slt x then 0 else 1)
  | .scmpLtu d a b => some (d, a, b, false, fun x y => if x.ult y then 1 else 0)
  | .scmpLeu d a b => some (d, a, b, false, fun x y => if y.ult x then 0 else 1)
  | _ => none

/-- One-source rows of 0x09 (R190): SCLZ and SCTZ count from an end to the first one bit, SPOPC counts the one bits. -/
def scalarUnaryRow : Instr → Option (BitVec 7 × BitVec 7 × (DWord → DWord))
  | .smov d a => some (d, a, fun x => x)
  | .sclz d a => some (d, a, fun x => BitVec.ofNat 64 ((List.range 64).takeWhile fun i => !x.getLsbD (63 - i)).length)
  | .sctz d a => some (d, a, fun x => BitVec.ofNat 64 ((List.range 64).takeWhile fun i => !x.getLsbD i).length)
  | .spopc d a => some (d, a, fun x => BitVec.ofNat 64 ((List.range 64).filter fun i => x.getLsbD i).length)
  | .sshli d a i => some (d, a, fun x => x <<< i)
  | .sshri d a i => some (d, a, fun x => x >>> i)
  | .ssrai d a i => some (d, a, fun x => x.sshiftRight' i)
  | _ => none

/-- The rows of 0x0A with an immediate of nine bits (R191). -/
def scalarImmRow : Instr → Option (BitVec 7 × BitVec 7 × BitVec 9 × (DWord → DWord → DWord))
  | .saddi d a i => some (d, a, i, fun x y => x + y)
  | .sandi d a i => some (d, a, i, fun x y => x &&& y)
  | .sori d a i => some (d, a, i, fun x y => x ||| y)
  | .sxori d a i => some (d, a, i, fun x y => x ^^^ y)
  | _ => none

/-! ## Vector integer arithmetic (R194 to R199) -/

/-- The two-source lane operations of 0x0C and 0x0F on a, b and lane l of vd (R194, R196, R199). -/
def laneOp (h : Hints) : Instr → Option (Bool × (Word → Word → Word → Word))
  | .vaddI32 _ _ _ | .vaddsI32 _ _ _ => some (true, fun a b _ => clampOrWrap 32 h (-(2 ^ 31)) (2 ^ 31 - 1) (a.toInt + b.toInt))
  | .vaddN32 _ _ _ => some (true, fun a b _ => clampOrWrap 32 h 0 (2 ^ 32 - 1) (a.toNat + b.toNat))
  | .vsubI32 _ _ _ | .vsubsI32 _ _ _ => some (true, fun a b _ => clampOrWrap 32 h (-(2 ^ 31)) (2 ^ 31 - 1) (a.toInt - b.toInt))
  | .vsubN32 _ _ _ => some (true, fun a b _ => clampOrWrap 32 h 0 (2 ^ 32 - 1) ((a.toNat : Int) - b.toNat))
  | .vmulI32 _ _ _ | .vmulsI32 _ _ _ => some (false, fun a b _ => BitVec.ofNat 32 (a.toNat * b.toNat))
  | .vmulhI32 _ _ _ => some (false, fun a b _ => (a.signExtend 64 * b.signExtend 64).extractLsb' 32 32)
  | .vmulhN32 _ _ _ => some (false, fun a b _ => (a.setWidth 64 * b.setWidth 64).extractLsb' 32 32)
  | .vandB32 _ _ _ | .vandsB32 _ _ _ => some (false, fun a b _ => a &&& b)
  | .vorB32 _ _ _ | .vorsB32 _ _ _ => some (false, fun a b _ => a ||| b)
  | .vxorB32 _ _ _ | .vxorsB32 _ _ _ => some (false, fun a b _ => a ^^^ b)
  | .vshlB32 _ _ _ | .vshlsB32 _ _ _ => some (false, fun a b _ => a <<< (b &&& 31))
  | .vshrN32 _ _ _ | .vshrsN32 _ _ _ => some (false, fun a b _ => a >>> (b &&& 31))
  | .vshrI32 _ _ _ | .vshrsI32 _ _ _ => some (false, fun a b _ => a.sshiftRight' (b &&& 31))
  | .vminI32 _ _ _ | .vminsI32 _ _ _ => some (false, fun a b _ => if b.slt a then b else a)
  | .vminN32 _ _ _ => some (false, fun a b _ => if b.ult a then b else a)
  | .vmaxI32 _ _ _ | .vmaxsI32 _ _ _ => some (false, fun a b _ => if a.slt b then b else a)
  | .vmaxN32 _ _ _ => some (false, fun a b _ => if a.ult b then b else a)
  | .vdot4I32 _ _ _ => some (false, fun a b c =>
      c + (a.extractLsb' 0 8).signExtend 32 * (b.extractLsb' 0 8).signExtend 32 +
      (a.extractLsb' 8 8).signExtend 32 * (b.extractLsb' 8 8).signExtend 32 +
      (a.extractLsb' 16 8).signExtend 32 * (b.extractLsb' 16 8).signExtend 32 +
      (a.extractLsb' 24 8).signExtend 32 * (b.extractLsb' 24 8).signExtend 32)
  | .vdot4N32 _ _ _ => some (false, fun a b c =>
      c + (a.extractLsb' 0 8).setWidth 32 * (b.extractLsb' 0 8).setWidth 32 +
      (a.extractLsb' 8 8).setWidth 32 * (b.extractLsb' 8 8).setWidth 32 +
      (a.extractLsb' 16 8).setWidth 32 * (b.extractLsb' 16 8).setWidth 32 +
      (a.extractLsb' 24 8).setWidth 32 * (b.extractLsb' 24 8).setWidth 32)
  | _ => none

/-- The operand fields of the two-source rows of 0x0C. -/
def vecRow : Instr → Option (BitVec 7 × BitVec 7 × BitVec 7)
  | .vaddI32 d a b | .vaddN32 d a b | .vsubI32 d a b | .vsubN32 d a b | .vmulI32 d a b | .vmulhI32 d a b | .vmulhN32 d a b
  | .vandB32 d a b | .vorB32 d a b | .vxorB32 d a b | .vshlB32 d a b | .vshrN32 d a b | .vshrI32 d a b | .vminI32 d a b
  | .vminN32 d a b | .vmaxI32 d a b | .vmaxN32 d a b | .vdot4I32 d a b | .vdot4N32 d a b => some (d, a, b)
  | _ => none

/-- The operand fields of the rows of 0x0F on 32-bit lanes: b7 names a scalar (R199). -/
def vecScalarRow : Instr → Option (BitVec 7 × BitVec 7 × BitVec 7)
  | .vaddsI32 d a b | .vsubsI32 d a b | .vmulsI32 d a b | .vandsB32 d a b | .vorsB32 d a b | .vxorsB32 d a b | .vshlsB32 d a b
  | .vshrsN32 d a b | .vshrsI32 d a b | .vminsI32 d a b | .vmaxsI32 d a b => some (d, a, b)
  | _ => none

/-- One-source rows of 0x0C, and the shifts by an immediate of 0x0D (R194, R197). -/
def vecUnaryRow : Instr → Option (BitVec 7 × BitVec 7 × (Word → Word))
  | .vclzB32 d a => some (d, a, fun x => BitVec.ofNat 32 ((List.range 32).takeWhile fun i => !x.getLsbD (31 - i)).length)
  | .vpopcB32 d a => some (d, a, fun x => BitVec.ofNat 32 ((List.range 32).filter fun i => x.getLsbD i).length)
  | .vabsI32 d a => some (d, a, fun x => if x.msb then 0 - x else x)
  | .vshli d a i => some (d, a, fun x => x <<< i)
  | .vshri d a i => some (d, a, fun x => x >>> i)
  | .vsrai d a i => some (d, a, fun x => x.sshiftRight' i)
  | .vmov d a => some (d, a, fun x => x)
  | _ => none

/-- The rows of 0x0D with an immediate of nine bits (R197). -/
def vecImmRow : Instr → Option (BitVec 7 × BitVec 7 × BitVec 9 × (Word → Word → Word))
  | .vaddi d a i => some (d, a, i, fun x y => x + y)
  | .vandi d a i => some (d, a, i, fun x y => x &&& y)
  | .vori d a i => some (d, a, i, fun x y => x ||| y)
  | .vxori d a i => some (d, a, i, fun x y => x ^^^ y)
  | _ => none

/-- The rows of 0x0E whose sources are pairs (R196, R198). -/
def pairRow (h : Hints) : Instr → Option (BitVec 7 × BitVec 7 × BitVec 7 × Bool × (DWord → DWord → DWord))
  | .vaddI64 d a b => some (d, a, b, true, fun x y => clampOrWrap 64 h (-(2 ^ 63)) (2 ^ 63 - 1) (x.toInt + y.toInt))
  | .vaddN64 d a b => some (d, a, b, true, fun x y => clampOrWrap 64 h 0 (2 ^ 64 - 1) (x.toNat + y.toNat))
  | .vsubI64 d a b => some (d, a, b, true, fun x y => clampOrWrap 64 h (-(2 ^ 63)) (2 ^ 63 - 1) (x.toInt - y.toInt))
  | .vsubN64 d a b => some (d, a, b, true, fun x y => clampOrWrap 64 h 0 (2 ^ 64 - 1) ((x.toNat : Int) - y.toNat))
  | .vmulI64 d a b => some (d, a, b, false, fun x y => BitVec.ofNat 64 (x.toNat * y.toNat))
  | .vandN64 d a b => some (d, a, b, false, fun x y => x &&& y)
  | .vorN64 d a b => some (d, a, b, false, fun x y => x ||| y)
  | .vxorN64 d a b => some (d, a, b, false, fun x y => x ^^^ y)
  | .vshlN64 d a b => some (d, a, b, false, fun x y => x <<< (y &&& 63))
  | .vshrN64 d a b => some (d, a, b, false, fun x y => x >>> (y &&& 63))
  | .vshrI64 d a b => some (d, a, b, false, fun x y => x.sshiftRight' (y &&& 63))
  | .vminI64 d a b => some (d, a, b, false, fun x y => if y.slt x then y else x)
  | .vminN64 d a b => some (d, a, b, false, fun x y => if y.ult x then y else x)
  | .vmaxI64 d a b => some (d, a, b, false, fun x y => if x.slt y then y else x)
  | .vmaxN64 d a b => some (d, a, b, false, fun x y => if x.ult y then y else x)
  | _ => none

/-- The lane results of a wave's active lanes, the other lanes keeping their values (R184). -/
def lanesAre (w v : Wave) (d : Nat) (f : Nat → Word) : Prop :=
  ∀ l, l < 64 → v.v d l = if l ∈ w.active then f l else w.v d l

/-- The same for the 64-bit values of a pair (R185). -/
def pairsAre (w v : Wave) (d : Nat) (f : Nat → DWord) : Prop :=
  ∀ l, l < 64 → v.pair d l = if l ∈ w.active then f l else w.pair d l

/-! ## Floating point (R64 to R94, R200 to R218) -/

/-- Every floating-point row but those of 0x14: its form, its destination, and lane l's result with the flags that it raises, as
R200 computes them (R201 to R206, R209, R212, R213, R218). -/
def fpRow (w : Wave) (h : Hints) : Instr → Option (Form × BitVec 7 × (Nat → LaneRes)) :=
  let env := w.fpEnv h
  let two := fun (d a b : BitVec 7) (g : ElemOp) =>
    some (Form.fp [d.toNat, a.toNat, b.toNat] [], d, fun l => lane32 env g [w.v a.toNat l, w.v b.toNat l])
  let packed := fun (d a b : BitVec 7) (f : BitVec 1) (g : ElemOp) =>
    some (Form.fp [d.toNat, a.toNat, b.toNat] [], d, fun l => lane16 (fmt16 f) env g [w.v a.toNat l, w.v b.toNat l])
  let add := fun (d : BitVec 7) (l : Nat) => w.v (h.extra.headD d.toNat) l
  let fused := fun (d a b : BitVec 7) (res : Nat → LaneRes) =>
    some ({ Form.fp [d.toNat, a.toNat, b.toNat] [] with counts := [0, 1], extra := .vector }, d, res)
  let withScalar := fun (d a b : BitVec 7) (g : ElemOp) =>
    some (Form.fp [d.toNat, a.toNat] [b.toNat], d, fun l => lane32 env g [w.v a.toNat l, (w.s b.toNat).setWidth 32])
  let scan := fun (d a : BitVec 7) (n : Nat → Nat) =>
    some (Form.fp [d.toNat, a.toNat] [], d, fun l =>
      let r := scanPrefix (w.leaf a.toNat env.ftz) (fun x y => lane32 env opAdd [x, y]) (n l)
      ⟨r.1.getD 0, r.2⟩)
  fun
  | .vaddF32 d a b => two d a b opAdd
  | .vsubF32 d a b => two d a b opSub
  | .vmulF32 d a b => two d a b opMul
  | .vminF32 d a b => two d a b opMin
  | .vmaxF32 d a b => two d a b opMax
  | .vrintF32 d a => some (Form.fp [d.toNat, a.toNat] [], d, fun l => lane32 env opRint [w.v a.toNat l])
  | .vaddF16Bf16 d a b f => packed d a b f opAdd
  | .vsubF16Bf16 d a b f => packed d a b f opSub
  | .vmulF16Bf16 d a b f => packed d a b f opMul
  | .vminF16Bf16 d a b f => packed d a b f opMin
  | .vmaxF16Bf16 d a b f => packed d a b f opMax
  | .vfmaF32 d a b => fused d a b fun l => lane32 env (opFma false false) [w.v a.toNat l, w.v b.toNat l, add d l]
  | .vfmsF32 d a b => fused d a b fun l => lane32 env (opFma false true) [w.v a.toNat l, w.v b.toNat l, add d l]
  | .vfnmaF32 d a b => fused d a b fun l => lane32 env (opFma true false) [w.v a.toNat l, w.v b.toNat l, add d l]
  | .vfnmsF32 d a b => fused d a b fun l => lane32 env (opFma true true) [w.v a.toNat l, w.v b.toNat l, add d l]
  | .vfmaF16Bf16 d a b f => fused d a b fun l => lane16 (fmt16 f) env (opFma false false) [w.v a.toNat l, w.v b.toNat l, add d l]
  | .vfmsF16Bf16 d a b f => fused d a b fun l => lane16 (fmt16 f) env (opFma false true) [w.v a.toNat l, w.v b.toNat l, add d l]
  | .vfnmaF16Bf16 d a b f => fused d a b fun l => lane16 (fmt16 f) env (opFma true false) [w.v a.toNat l, w.v b.toNat l, add d l]
  | .vfnmsF16Bf16 d a b f => fused d a b fun l => lane16 (fmt16 f) env (opFma true true) [w.v a.toNat l, w.v b.toNat l, add d l]
  | .vdot2 d a b f => fused d a b fun l => dot2 (fmt16 f) env (w.v a.toNat l) (w.v b.toNat l) (add d l)
  | .vaddsF32 d a b => withScalar d a b opAdd
  | .vsubsF32 d a b => withScalar d a b opSub
  | .vmulsF32 d a b => withScalar d a b opMul
  | .vminsF32 d a b => withScalar d a b opMin
  | .vmaxsF32 d a b => withScalar d a b opMax
  | .vfmasF32 d a b => some (Form.fp [d.toNat, a.toNat] [b.toNat], d, fun l =>
      lane32 env (opFma false false) [w.v a.toNat l, (w.s b.toNat).setWidth 32, w.v d.toNat l])
  | .vscanF32 d a => scan d a (· + 1)
  | .vscanxF32 d a => scan d a id
  | .vcvtNarrowToF32 d a f i => some (Form.fp [d.toNat, a.toNat] [], d, fun l =>
      let r := Fmt.f32.finish { env with ftz := false }
        ((fmtOfCode f.toNat).decode (narrowElem (fmtOfCode f.toNat).width i.toNat (w.v a.toNat l)), 0)
      ⟨BitVec.ofNat 32 r.code, r.flags⟩)
  | .vcvtF32ToNarrow d a f i => some (Form.fp [d.toNat, a.toNat] [], d, fun l =>
      let r := toNarrow (fmtOfCode f.toNat) env (Fmt.f32.decodeFtz env.ftz (w.v a.toNat l).toNat)
      ⟨putNarrow (fmtOfCode f.toNat).width i.toNat r.1 (w.v d.toNat l), r.2⟩)
  | _ => none

/-- The long-latency functions of 0x14: their sources and lane l's result (R207, R208). -/
def fpFunctionRow (w : Wave) (h : Hints) : Instr → Option (BitVec 7 × List Nat × (Nat → LaneRes)) :=
  let one := fun (d a : BitVec 7) (g : Val → Exact) => some (d, [a.toNat], fun l => lane32 (w.fpEnv h) (opUnary g) [w.v a.toNat l])
  fun
  | .vrcpF32 d a => one d a (divExact (.fin false 1 0))
  | .vrsqrtF32 d a => one d a rsqrtExact
  | .vsqrtF32 d a => one d a sqrtExact
  | .vexp2F32 d a => one d a exp2Exact
  | .vlog2F32 d a => one d a log2Exact
  | .vsinF32 d a => one d a sinExact
  | .vcosF32 d a => one d a cosExact
  | .vtanhF32 d a => one d a tanhExact
  | .vdivF32 d a b => some (d, [a.toNat, b.toNat], fun l => lane32 (w.fpEnv h) opDiv [w.v a.toNat l, w.v b.toNat l])
  | _ => none

/-- The rows that copy bits, raise nothing and never trap (R201, R203, R204). VCLASS: one bit for the class of the lane. -/
def fpBitsRow : Instr → Option (BitVec 7 × BitVec 7 × BitVec 7 × (Word → Word → Word))
  | .vabsF32 d a => some (d, a, a, fun x _ => x &&& 0x7FFFFFFF)
  | .vnegF32 d a => some (d, a, a, fun x _ => x ^^^ 0x80000000)
  | .vcpysF32 d a b => some (d, a, b, fun x y => (x &&& 0x7FFFFFFF) ||| (y &&& 0x80000000))
  | .vabsF16Bf16 d a _ => some (d, a, a, fun x _ => x &&& 0x7FFF7FFF)
  | .vnegF16Bf16 d a _ => some (d, a, a, fun x _ => x ^^^ 0x80008000)
  | .vclassF32 d a => some (d, a, a, fun x _ =>
      let e := x.toNat / 2 ^ 23 % 2 ^ 8
      let f := x.toNat % 2 ^ 23
      if e = 255 then (if f ≠ 0 then (if x.getLsbD 22 then 2 else 1) else if x.msb then 4 else 0x200)
      else if e = 0 then (if f = 0 then (if x.msb then 0x20 else 0x40) else if x.msb then 0x10 else 0x80)
      else if x.msb then 8 else 0x100)
  | _ => none

/-- The flags that some lanes raise together. -/
def raisedBy (fl : Nat → FpFlags) (ls : List Nat) : FpFlags := ls.foldl (fun f l => f ||| fl l) 0

/-- What a lane's flags decide (R83): the lanes whose flags hold no enabled one have completed in `v`, with their flags in `fpc`;
`put` says what a completed lane holds. -/
def lanesCompleted (w v : Wave) (fl : Nat → FpFlags) (put : Wave → Wave → (Nat → Prop) → Prop) : Prop :=
  put w v (fun l => l ∈ w.active ∧ fl l &&& fpcTrapEn w.arch.fpc = 0) ∧
  v.arch.fpc = w.arch.fpc ||| (raisedBy fl (w.active.filter fun l => decide (fl l &&& fpcTrapEn w.arch.fpc = 0))).setWidth 64

/-- The trap of the lanes whose flags hold an enabled one: each lane's cause word records its flags (R83, R425). -/
def fpTrap (w : Wave) (fl : Nat → FpFlags) : Trap :=
  laneTrap ((w.active.filter fun l => decide (fl l &&& fpcTrapEn w.arch.fpc ≠ 0)).map fun l =>
    (l, 0x20 ||| ((fl l).setWidth 32 <<< 8), none))

/-- What an instruction does whose lanes may trap (R83, R200): when no lane traps it completes; otherwise the lanes that do not trap
complete, except in hypervisor mode (R447), and the others form one floating-point trap. -/
def fpOutcome (i : Instr) (s : State) (vs ps : List Nat) (fl : Nat → FpFlags) (put : Wave → Wave → (Nat → Prop) → Prop) : Prop :=
  ((∀ l ∈ s.wave.active, fl l &&& fpcTrapEn s.wave.arch.fpc = 0) →
    ∃ t, exec i s = .next t ∧ lanesCompleted s.wave t.wave fl put ∧ s.ran t [] vs ps true) ∧
  ((∃ l ∈ s.wave.active, fl l &&& fpcTrapEn s.wave.arch.fpc ≠ 0) →
    ∃ u : State, exec i s = .next (u.takeTrap (fpTrap s.wave fl)) ∧ (s.wave.arch.mode = .hypervisor → u = s) ∧
      (s.wave.arch.mode ≠ .hypervisor → lanesCompleted s.wave u.wave fl put) ∧
      s.wave.keeps u.wave [] vs ps true ∧ u = { s with wave := { s.wave with arch := u.wave.arch } })

/-- Completed lanes of a vector register hold their results, the others their old values. -/
def putLanes (d : Nat) (f : Nat → Word) (w v : Wave) (good : Nat → Prop) : Prop :=
  ∀ l, l < 64 → (good l → v.v d l = f l) ∧ (¬good l → v.v d l = w.v d l)

/-- Completed lanes of a pair. -/
def putPairs (d : Nat) (f : Nat → DWord) (w v : Wave) (good : Nat → Prop) : Prop :=
  ∀ l, l < 64 → (good l → v.pair d l = f l) ∧ (¬good l → v.pair d l = w.pair d l)

/-- Completed lanes of a predicate. -/
def putPred (p : Nat) (f : Nat → Bool) (w v : Wave) (good : Nat → Prop) : Prop :=
  ∀ l, (good l → bitOf (v.pred p) l = f l) ∧ (¬good l → bitOf (v.pred p) l = bitOf (w.pred p) l)

/-- A wide conversion's result in lane l of the wave: the code and the flags (R88, R89, R211). -/
def wideResult (w : Wave) (h : Hints) (a : BitVec 7) (t src : BitVec 3) (half : BitVec 1) (l : Nat) : Conv :=
  convWide (w.fpEnv h) t.toNat src.toNat
    (if src = 1 ∨ src = 2 then (if half = 0 then ((w.v a.toNat l).extractLsb' 0 16).toNat else ((w.v a.toNat l).extractLsb' 16 16).toNat)
     else if 5 ≤ src.toNat then (w.pair a.toNat l).toNat else (w.v a.toNat l).toNat)

/-- The integer and floating-point compares (R214): sources, and lane l's bit with the flags that it raises. -/
def compareRow (w : Wave) : Instr → Option (BitVec 7 × BitVec 7 × BitVec 7 × (Word → Word → Bool × FpFlags)) :=
  let fp := fun (d a b : BitVec 7) (rel : Int → Bool) (onNan quietNv : Bool) =>
    some (d, a, b, fun (x y : Word) =>
      let u := Fmt.f32.decodeFtz (fpcFtz w.arch.fpc) x.toNat
      let v := Fmt.f32.decodeFtz (fpcFtz w.arch.fpc) y.toNat
      if u.isNan || v.isNan then (onNan, if quietNv || u.isSnan || v.isSnan then fNV else 0) else (rel (cmpVal u v), 0))
  fun
  | .vcmpEqI32 d a b => some (d, a, b, fun x y => (decide (x = y), 0))
  | .vcmpNeI32 d a b => some (d, a, b, fun x y => (!decide (x = y), 0))
  | .vcmpLtI32 d a b => some (d, a, b, fun x y => (x.slt y, 0))
  | .vcmpLeI32 d a b => some (d, a, b, fun x y => (!y.slt x, 0))
  | .vcmpLtN32 d a b => some (d, a, b, fun x y => (x.ult y, 0))
  | .vcmpLeN32 d a b => some (d, a, b, fun x y => (!y.ult x, 0))
  | .vcmpEqF32 d a b => fp d a b (fun c => c == 0) false false
  | .vcmpNeF32 d a b => fp d a b (fun c => c != 0) true false
  | .vcmpLtF32 d a b => fp d a b (fun c => decide (c < 0)) false true
  | .vcmpLeF32 d a b => fp d a b (fun c => decide (c ≤ 0)) false true
  | .vcmpUnF32 d a b => fp d a b (fun _ => false) true false
  | _ => none

/-- The predicate operations (R215). PNOT has one source, given twice. -/
def predicateRow : Instr → Option (BitVec 7 × BitVec 7 × BitVec 7 × (Bool → Bool → Bool))
  | .pand d a b => some (d, a, b, fun x y => x && y)
  | .por d a b => some (d, a, b, fun x y => x || y)
  | .pxor d a b => some (d, a, b, fun x y => Bool.xor x y)
  | .pandn d a b => some (d, a, b, fun x y => x && !y)
  | .pnot d a => some (d, a, a, fun x _ => !x)
  | _ => none

/-- The lane that each active lane reads in VSHFL, VPRM and VBCST, with the vector and scalar registers named beside va (R216). -/
def shuffleRow (w : Wave) : Instr → Option (BitVec 7 × BitVec 7 × List Nat × List Nat × (Nat → Nat))
  | .vshfl d a b => some (d, a, [b.toNat], [], fun l => (w.v b.toNat l &&& 63).toNat % w.env.wavew)
  | .vprmXor d a b => some (d, a, [], [b.toNat], fun l => l ^^^ ((w.s b.toNat &&& 63).toNat % w.env.wavew))
  | .vprmRot d a b => some (d, a, [], [b.toNat], fun l => (l + (w.s b.toNat &&& 63).toNat) % w.env.wavew)
  | .vbcst d a b => some (d, a, [], [b.toNat], fun _ => (w.s b.toNat &&& 63).toNat % w.env.wavew)
  | _ => none

/-- The floating-point reductions: whether rounding hints are accepted, the operation, the result for no lane (R217). -/
def fpReduceRow : Instr → Option (BitVec 7 × BitVec 7 × Bool × ElemOp × Word)
  | .vredF32 d a => some (d, a, true, opAdd, 0)
  | .vredminF32 d a => some (d, a, false, opMin, 0x7F800000)
  | .vredmaxF32 d a => some (d, a, false, opMax, 0xFF800000)
  | _ => none

/-- What the exact reductions of R217 say of their result `r` over the values of the active lanes. -/
def intReduceRow : Instr → Option (BitVec 7 × BitVec 7 × (List Word → DWord → Prop))
  | .vredI32 d a => some (d, a, fun xs r => r = (xs.foldl (· + ·) 0).signExtend 64)
  | .vredminI32 d a => some (d, a, fun xs r =>
      if xs = [] then r = 0x7FFFFFFF else (∃ x ∈ xs, r = x.signExtend 64) ∧ ∀ x ∈ xs, r.toInt ≤ x.toInt)
  | .vredmaxI32 d a => some (d, a, fun xs r =>
      if xs = [] then r = 0xFFFFFFFF80000000 else (∃ x ∈ xs, r = x.signExtend 64) ∧ ∀ x ∈ xs, x.toInt ≤ r.toInt)
  | .vredandB32 d a => some (d, a, fun xs r => ∀ k, r.getLsbD k = (decide (k < 32) && xs.all fun x => x.getLsbD k))
  | .vredorB32 d a => some (d, a, fun xs r => ∀ k, r.getLsbD k = xs.any fun x => x.getLsbD k)
  | _ => none

/-! ## What every group is checked for (R156, R160, R161, R164 to R170, R421) -/

/-- What a group's instruction accepts and names, family by family: the hints it accepts, the registers that must exist, whether it
must be its clause's last word, its lowest mode, and whether a lookout may execute it. The matrix instructions, whose mask is checked
before the group, are in `matrixForm`. -/
def groupForm : Instr → Option Form
  | .nop => some {}
  | .yield => some { terminal := true }
  | .exit => some { terminal := true, lookout := false }
  | .br _ | .brpAny _ _ | .brpAll _ _ | .brpNone _ _ | .bexz _ => some { live := true, terminal := true }
  | .call _ => some { live := true, terminal := true, ss := [127] }
  | .ret a | .jmpr a => some { live := true, terminal := true, ss := [a.toNat] }
  | .brsNz a _ | .brsZ a _ => some { live := true, terminal := true, ss := [a.toNat] }
  | .msplit d _ | .exmrd d => some { ss := [d.toNat] }
  | .melse a _ | .mjoin a | .exmwr a => some { ss := [a.toNat] }
  | .mpush a b => some { ss := [a.toNat, b.toNat], lookout := false }
  | .mpop d => some { ss := [d.toNat, d.toNat + 1] }
  | .sysc _ | .bkpt _ => some { lookout := false }
  | .hvc _ => some { lowest := .supervisor, lookout := false }
  | .rett _ => some { terminal := true }
  | .wdog a => some { ss := [a.toNat], lowest := .supervisor }
  | .prd d n => some
      (if n = 3 then { vs := [d.toNat], lowest := .supervisor }
       else if n = 5 then { vs := [d.toNat, d.toNat + 1], lowest := .supervisor }
       else { ss := [d.toNat], lowest := if 0x010 ≤ n.toNat then .hypervisor else .supervisor })
  | .pwr a n => some
      (if n = 3 then { vs := [a.toNat], lowest := .supervisor }
       else if n = 5 then { vs := [a.toNat, a.toNat + 1], lowest := .supervisor }
       else { ss := [a.toNat], lowest := if 0x010 ≤ n.toNat then .hypervisor else .supervisor })
  | .sadd d a b | .ssub d a b => some { ss := [d.toNat, a.toNat, b.toNat], sat := true }
  | .smul d a b | .smulh d a b | .smulhu d a b | .sand d a b | .sor d a b | .sxor d a b | .sshl d a b | .sshr d a b | .ssra d a b
  | .smin d a b | .smax d a b | .sminu d a b | .smaxu d a b | .scmpEq d a b | .scmpNe d a b | .scmpLt d a b | .scmpLe d a b
  | .scmpLtu d a b | .scmpLeu d a b | .sbfx d a b | .sbfxu d a b => some { ss := [d.toNat, a.toNat, b.toNat] }
  | .smov d a | .sclz d a | .sctz d a | .spopc d a | .sshli d a _ | .sshri d a _ | .ssrai d a _ => some { ss := [d.toNat, a.toNat] }
  | .saddi d a _ | .sandi d a _ | .sori d a _ | .sxori d a _ => some { ss := [d.toNat, a.toNat], himm := true }
  | .smovi d _ _ => some { ss := [d.toNat], himm := true }
  | .ssel d a b => some { ss := [d.toNat, a.toNat, b.toNat], counts := [1], extra := .scalar }
  | .sbfi d a b => some { ss := [d.toNat, a.toNat, b.toNat], counts := [0, 1], extra := .scalar }
  | .vaddI32 d a b | .vaddN32 d a b | .vsubI32 d a b | .vsubN32 d a b => some { vs := [d.toNat, a.toNat, b.toNat], sat := true }
  | .vmulI32 d a b | .vmulhI32 d a b | .vmulhN32 d a b | .vandB32 d a b | .vorB32 d a b | .vxorB32 d a b | .vshlB32 d a b
  | .vshrN32 d a b | .vshrI32 d a b | .vminI32 d a b | .vminN32 d a b | .vmaxI32 d a b | .vmaxN32 d a b | .vdot4I32 d a b
  | .vdot4N32 d a b | .vshfl d a b => some { vs := [d.toNat, a.toNat, b.toNat] }
  | .vmadI32 d a b => some { vs := [d.toNat, a.toNat, b.toNat], counts := [0, 1], extra := .vector }
  | .vselB32 d a b => some { vs := [d.toNat, a.toNat, b.toNat], counts := [1], extra := .predicate }
  | .vclzB32 d a | .vpopcB32 d a | .vabsI32 d a | .vshli d a _ | .vshri d a _ | .vsrai d a _ | .vmov d a | .vscanI32 d a
  | .vscanxI32 d a => some { vs := [d.toNat, a.toNat] }
  | .vaddi d a _ | .vandi d a _ | .vori d a _ | .vxori d a _ => some { vs := [d.toNat, a.toNat], himm := true }
  | .vmovi d _ _ => some { vs := [d.toNat], himm := true }
  | .vaddI64 d a b | .vaddN64 d a b | .vsubI64 d a b | .vsubN64 d a b =>
      some { vs := [d.toNat + 1, a.toNat + 1, b.toNat + 1], sat := true }
  | .vmulI64 d a b | .vandN64 d a b | .vorN64 d a b | .vxorN64 d a b | .vshlN64 d a b | .vshrN64 d a b | .vshrI64 d a b
  | .vminI64 d a b | .vminN64 d a b | .vmaxI64 d a b | .vmaxN64 d a b => some { vs := [d.toNat + 1, a.toNat + 1, b.toNat + 1] }
  | .vmulwI32 d a b | .vmulwN32 d a b => some { vs := [d.toNat + 1, a.toNat, b.toNat] }
  | .vaddsI32 d a b | .vsubsI32 d a b => some { vs := [d.toNat, a.toNat], ss := [b.toNat], sat := true }
  | .vmulsI32 d a b | .vandsB32 d a b | .vorsB32 d a b | .vxorsB32 d a b | .vshlsB32 d a b | .vshrsN32 d a b | .vshrsI32 d a b
  | .vminsI32 d a b | .vmaxsI32 d a b | .vprmXor d a b | .vprmRot d a b | .vbcst d a b =>
      some { vs := [d.toNat, a.toNat], ss := [b.toNat] }
  | .vaddsI64 d a b => some { vs := [d.toNat + 1, a.toNat + 1], ss := [b.toNat] }
  | .vaddF32 d a b | .vsubF32 d a b | .vmulF32 d a b | .vminF32 d a b | .vmaxF32 d a b | .vcpysF32 d a b | .vaddF16Bf16 d a b _
  | .vsubF16Bf16 d a b _ | .vmulF16Bf16 d a b _ | .vminF16Bf16 d a b _ | .vmaxF16Bf16 d a b _ | .vdivF32 d a b =>
      some (.fp [d.toNat, a.toNat, b.toNat] [])
  | .vabsF32 d a | .vnegF32 d a | .vclassF32 d a | .vabsF16Bf16 d a _ | .vnegF16Bf16 d a _ => some (.fp [d.toNat, a.toNat, a.toNat] [])
  | .vrintF32 d a | .vrcpF32 d a | .vrsqrtF32 d a | .vsqrtF32 d a | .vexp2F32 d a | .vlog2F32 d a | .vsinF32 d a | .vcosF32 d a
  | .vtanhF32 d a | .vcvtNarrowToF32 d a _ _ | .vcvtF32ToNarrow d a _ _ | .vscanF32 d a | .vscanxF32 d a =>
      some (.fp [d.toNat, a.toNat] [])
  | .vfmaF32 d a b | .vfmsF32 d a b | .vfnmaF32 d a b | .vfnmsF32 d a b | .vfmaF16Bf16 d a b _ | .vfmsF16Bf16 d a b _
  | .vfnmaF16Bf16 d a b _ | .vfnmsF16Bf16 d a b _ | .vdot2 d a b _ =>
      some { Form.fp [d.toNat, a.toNat, b.toNat] [] with counts := [0, 1], extra := .vector }
  | .vaddsF32 d a b | .vsubsF32 d a b | .vmulsF32 d a b | .vfmasF32 d a b | .vminsF32 d a b | .vmaxsF32 d a b =>
      some (.fp [d.toNat, a.toNat] [b.toNat])
  | .vcvtWide d a t _ _ src =>
      some (.fp [d.toNat + (if 5 ≤ t.toNat then 1 else 0), a.toNat + (if 5 ≤ src.toNat then 1 else 0)] [])
  | .vcmpEqI32 _ a b | .vcmpNeI32 _ a b | .vcmpLtI32 _ a b | .vcmpLeI32 _ a b | .vcmpLtN32 _ a b | .vcmpLeN32 _ a b
  | .vcmpEqF32 _ a b | .vcmpNeF32 _ a b | .vcmpLtF32 _ a b | .vcmpLeF32 _ a b | .vcmpUnF32 _ a b => some { vs := [a.toNat, b.toNat] }
  | .pand _ _ _ | .por _ _ _ | .pxor _ _ _ | .pandn _ _ _ | .pnot _ _ => some {}
  | .vredF32 d a => some { vs := [a.toNat], ss := [d.toNat], rm := true, sat := true }
  | .vredI32 d a | .vredminF32 d a | .vredmaxF32 d a | .vredminI32 d a | .vredmaxI32 d a | .vredandB32 d a | .vredorB32 d a =>
      some { vs := [a.toNat], ss := [d.toNat] }
  | .vmatch d a => some { vs := [d.toNat + 1, a.toNat] }
  | .srd d n => some (if n = 0 then { vs := [d.toNat] } else { ss := [d.toNat] })
  | .fpcrd d | .p2s d _ => some { ss := [d.toNat] }
  | .fpcwr a | .s2p _ a => some { ss := [a.toNat] }
  | .vmovs d a => some { vs := [d.toNat], ss := [a.toNat] }
  | .smovv d a b => some { vs := [a.toNat], ss := [d.toNat, b.toNat] }
  | .vins d a b => some { vs := [d.toNat], ss := [a.toNat, b.toNat] }
  | .vld d a b z _ => some { vs := dataRegs d.toNat (2 ^ z.toNat) ++ [a.toNat, a.toNat + 1], ss := [b.toNat] }
  | .vst d a b z _ => some { vs := dataRegs d.toNat (2 ^ z.toNat) ++ [a.toNat, a.toNat + 1], ss := [b.toNat], lookout := false }
  | .vldc d a z _ => some { vs := dataRegs d.toNat (2 ^ (z.toNat + 2)), ss := [a.toNat], himm := true, policy := true }
  | .vstc d a z _ => some { vs := dataRegs d.toNat (2 ^ (z.toNat + 2)), ss := [a.toNat], himm := true, policy := true, lookout := false }
  | .sld d a _ _ => some { ss := [d.toNat, a.toNat], himm := true, policy := true }
  | .sst d a _ _ => some { ss := [d.toNat, a.toNat], himm := true, policy := true, lookout := false }
  | .lld d a b z => some { vs := dataRegs d.toNat (2 ^ z.toNat) ++ [a.toNat], ss := [b.toNat] }
  | .lst d a b z => some { vs := dataRegs d.toNat (2 ^ z.toNat) ++ [a.toNat], ss := [b.toNat], lookout := false }
  | .slda d a _ _ _ => some { ss := [d.toNat, a.toNat], observers := true }
  | .sstr d a _ _ _ => some { ss := [d.toNat, a.toNat], observers := true, lookout := false }
  | .vlda d a _ z _ => some { vs := dataRegs d.toNat (if z = 1 then 8 else 4) ++ [a.toNat, a.toNat + 1], observers := true }
  | .vstr d a _ z _ =>
      some { vs := dataRegs d.toNat (if z = 1 then 8 else 4) ++ [a.toNat, a.toNat + 1], observers := true, lookout := false }
  | .vatom d a b w c => some
      { vs := dataRegs d.toNat (if w = 1 then 8 else 4) ++ dataRegs b.toNat (if w = 1 then 8 else 4) ++ [a.toNat, a.toNat + 1],
        counts := if c = 1 then [1] else [0], extra := if c = 1 then (if w = 1 then .vectorEven else .vector) else .none,
        policy := true, observers := true, stream := true, lookout := false }
  | .satom d a b _ c => some
      { ss := [d.toNat, a.toNat, b.toNat], counts := if c = 1 then [1] else [0], extra := if c = 1 then .scalar else .none,
        policy := true, observers := true, stream := true, lookout := false }
  | .xcopy d a b | .xcopyt d a b => some { ss := [d.toNat, a.toNat, b.toNat], stream := true, lookout := false }
  | .xgath d a b => some { vs := [a.toNat, a.toNat + 1], ss := [d.toNat, b.toNat], stream := true, lookout := false }
  | .pft a b => some { ss := [a.toNat, b.toNat] }
  | .look a b => some { vs := [a.toNat, a.toNat + 1], ss := [b.toNat] }
  | .waitc _ _ | .bar _ | .rbar _ | .fence _ | .fenceTc => some { terminal := true, lookout := false }
  | .tagwany a | .tagwall a => some { terminal := true, ss := [a.toNat], lookout := false }
  | .tagffr d a | .lwait d a => some { terminal := true, ss := [d.toNat, a.toNat], lookout := false }
  | .tagclr a => some { ss := [a.toNat], lookout := false }
  | .tagrd d | .chpoll d _ => some { ss := [d.toNat], lookout := false }
  | .mclose => some { lookout := false }
  | .send a n _ => some { vs := (List.range (n.toNat + 1)).map (a.toNat + ·), lookout := false }
  | .recv d n _ => some { terminal := true, vs := (List.range (n.toNat + 1)).map (d.toNat + ·), lookout := false }
  | .launch d a b | .tdef d a b => some { ss := [d.toNat, a.toNat, b.toNat], lookout := false }
  | .spawn _ a b => some { vs := [a.toNat, b.toNat, b.toNat + 1], lookout := false }
  | .xratom d a b => some { ss := [d.toNat, a.toNat, b.toNat], counts := [1, 2], extra := .scalar, stream := true, lookout := false }
  | .xcoll a b => some { ss := [a.toNat, b.toNat], stream := true, lookout := false }
  | .amsg d a _ => some { vs := [d.toNat, d.toNat + 1], ss := [a.toNat], stream := true, lookout := false }
  | .segq d a => some { ss := [d.toNat, a.toNat], lookout := false }
  | .ferry a => some { terminal := true, live := true, ss := [a.toNat], lookout := false }
  | _ => none

/-- The same for the matrix instructions, which no lookout may execute (R145, R344). -/
def matrixForm : Instr → Option Form
  | .mma _ _ r _ _ | .mmax _ _ r _ _ _ | .tcfg _ r | .tld _ r | .tst _ r | .amcpOut r | .amcpIn r | .amzero r =>
      some { ss := [r.toNat], lookout := false }
  | .mmas _ _ r _ _ => some { ss := [r.toNat], counts := [2], extra := .scalar, lookout := false }
  | .tzero _ | .txfer _ _ | .trecv _ _ => some { lookout := false }
  | _ => none

/-- The hint words, each as the encoding of chapter 06 lays it out (R166 to R170). -/
def hintWord : Instr → Option Word
  | .hsrc c x y z => some ((7 : BitVec 6) ++ (0 : BitVec 3) ++ c ++ x ++ y ++ z)
  | .hmod a b c d e f g h i j => some ((7 : BitVec 6) ++ (1 : BitVec 2) ++ a ++ b ++ c ++ d ++ e ++ f ++ g ++ h ++ i ++ j ++ (0 : BitVec 7))
  | .hlive b m => some ((7 : BitVec 6) ++ (2 : BitVec 2) ++ b ++ (0 : BitVec 1) ++ m)
  | .hsch a b c d e => some ((7 : BitVec 6) ++ (3 : BitVec 2) ++ a ++ b ++ c ++ d ++ e ++ (0 : BitVec 18))
  | .himm p => some ((8 : BitVec 6) ++ p)
  | _ => none

/-! ## Transfers (R225 to R229) -/

/-- The address of the word that issues plus four times a signed offset (R225). -/
def fromWord {n : Nat} (w : Wave) (o : BitVec n) : DWord := w.pos.pc + BitVec.ofNat 64 (4 * (w.pos.ridx + 1)) + 4 * o.signExtend 64

/-- The transfers without a link: whether taken, whether the target comes from a register, and the target (R226). -/
def transferRow (w : Wave) : Instr → Option (Prop × Bool × DWord)
  | .br o => some (True, false, fromWord w o)
  | .ret a => some (True, true, w.s a.toNat)
  | .jmpr a => some (True, true, w.s a.toNat)
  | .brsNz a o => some (w.s a.toNat ≠ 0, false, fromWord w o)
  | .brsZ a o => some (w.s a.toNat = 0, false, fromWord w o)
  | .brpAny p o => some (∃ l ∈ w.active, (w.pred p.toNat).getLsbD l = true, false, fromWord w o)
  | .brpAll p o => some (w.active ≠ [] ∧ ∀ l ∈ w.active, (w.pred p.toNat).getLsbD l = true, false, fromWord w o)
  | .brpNone p o => some (¬∃ l ∈ w.active, (w.pred p.toNat).getLsbD l = true, false, fromWord w o)
  | .bexz o => some (w.active = [], false, fromWord w o)
  | _ => none

/-- The rows of R227 that a target fails, in their order, with the cause of the trap: misaligned, undecodable, in no section of code,
the supervisor's section in user mode, the lookout section. -/
def targetRows (s : State) (indirect : Bool) (t : DWord) : List (Prop × Nat) :=
  let e := s.wave.env
  [(indirect = true ∧ t.toNat % 4 ≠ 0, 0x08),
   (s.undecodable e t = true, 0x10),
   (e.sectionAt t = none, 0x10),
   (∃ x, e.sectionAt t = some x ∧ x.isSupervisor = true ∧ s.wave.arch.mode = .user, 0x18),
   (∃ x, e.sectionAt t = some x ∧ x.isLookout = true, 0x18)]

/-- A target that passes every row: in hypervisor mode the monitor's region alone counts (R421), for a lookout its own section (R145);
in a ferry-mode grid the target lies in the pinned segment or the supervisor's section, so that it is no departure (row 6). -/
def reachable (s : State) (indirect : Bool) (t : DWord) : Prop :=
  if s.wave.lookoutOf.isSome = true then t.toNat % 4 = 0 ∧ s.wave.env.inSection Section.isLookout t = true
  else if s.wave.arch.mode = .hypervisor then (indirect = true → t.toNat % 4 = 0) ∧ inMonitor t = true
  else (∀ r ∈ targetRows s indirect t, ¬r.1) ∧ (s.wave.env.ferry = true → s.wave.env.inSupervisor t = true ∨ s.pinned t = true)

/-! ## Masks (R231) -/

/-- The mask instructions: the form, the scalar written with the old `exm` if any, and the new `exm` (R231). -/
def maskRow (w : Wave) : Instr → Option (Form × List Nat × DWord)
  | .msplit d p => some ({ ss := [d.toNat] }, [d.toNat], w.exm &&& w.pred p.toNat)
  | .melse a p => some ({ ss := [a.toNat] }, [], w.s a.toNat &&& ~~~(w.pred p.toNat) &&& w.lanes)
  | .mjoin a => some ({ ss := [a.toNat] }, [], w.s a.toNat &&& w.lanes)
  | .exmwr a => some ({ ss := [a.toNat] }, [], w.s a.toNat &&& w.lanes)
  | .exmrd d => some ({ ss := [d.toNat] }, [d.toNat], w.exm)
  | _ => none

/-! ## Traps (R424 to R432) -/

/-- The registers that a trap taken at supervisor level leaves, but for `rvsp` (R424, R428): `w` is the resume word or the handle. -/
def supervisorArch (a : Arch) (t : Trap) (w : DWord) (isOpaque replayed : Bool) : Arch :=
  { a with
    estat := BitVec.ofNat 64 (t.vector + a.mode.code * 8 + (if t.whole then 32 else 0) + (if t.boundary then 64 else 0) +
      (if isOpaque then 128 else 0) + (if a.ddepth then 256 else 0) + (if replayed then 512 else 0)),
    epc := w, emask := t.mask, ecause := t.causes, eaddr := t.addrs }

/-- What trap entry leaves alone in its wave (R428): everything but the registers, the place, the open group, and the notes of the
wave's scheduling. -/
def entryKeeps (w v : Wave) : Prop :=
  { v with arch := w.arch, pos := w.pos, status := w.status, hints := w.hints, replay := w.replay, badResume := w.badResume,
           fellX := w.fellX, pending := w.pending, issued := w.issued, fenceAt := w.fenceAt, svStart := w.svStart, svDepth := w.svDepth,
           entryDue := w.entryDue, readySince := w.readySince } = w

/-- The causes of R425 that SYSC, HVC and BKPT raise: whole-wave or of the active lanes, with the number. -/
def systemTrapRow (w : Wave) : Instr → Option (Form × Trap)
  | .sysc n => some ({ lookout := false },
      { whole := false, mask := maskOf w.active, causes := w.active.map fun l => (l, 0x30 ||| (n.setWidth 32 <<< 8)), addrs := [],
        boundary := false, hvc := none })
  | .hvc n => some ({ lowest := .supervisor, lookout := false },
      { whole := true, mask := w.exm, causes := (List.range w.env.wavew).map fun l => (l, 0x40), addrs := [], boundary := false,
        hvc := some n.toNat })
  | .bkpt n => some ({ lookout := false },
      { whole := true, mask := w.exm, causes := (List.range w.env.wavew).map fun l => (l, 0x38 ||| (n.setWidth 32 <<< 8)), addrs := [],
        boundary := false, hvc := none })
  | _ => none

/-- A wave with no long-latency instruction that is no lookout: where a trap is taken at once (R158, R428). -/
def atRest (s : State) : Prop := s.wave.lookoutOf = none ∧ s.wave.ll = []

/-- The conditions of the delegated level, with the places of the two entries of its frame (R427, R436). -/
def delegates (s : State) (t : Trap) (ps qs : List Place) : Prop :=
  t.vector = 4 ∧ s.wave.arch.mode = .user ∧ s.wave.arch.fpc.getLsbD 14 = true ∧ s.wave.arch.ddepth = false ∧
  s.wave.env.ferry = false ∧ s.wave.env.isHeader Section.isCode s.wave.arch.uhtv = true ∧
  s.reach .write 0 s.wave.arch.rvsp 16 = .ok ps ∧
  s.reach .write 0 (s.wave.setRvsp (s.wave.arch.rvsp + 16)).arch.rvsp 16 = .ok qs

/-- The resume word of a delegation record: the union of the trapping lanes' flags in bits [12:8] (R425, R436). -/
def recordWord (t : Trap) : DWord :=
  t.causes.foldl (fun r c => if c.2.toNat % 256 = 0x20 then r ||| (c.2.setWidth 64 &&& 0x1F00) else r) 0


/-! ## Loads, stores and atomics (R292 to R304) -/

/-- The vector loads, or the vector stores if `w` is set: data register, size in bytes, and the address that each lane forms
(R297, R300). -/
def vectorAccess (v : Wave) (store : Bool) : Instr → Option (Nat × Nat × (Nat → DWord))
  | .vld d a b z _ => if store then none else some (d.toNat, 2 ^ z.toNat, fun l => v.pair a.toNat l + v.s b.toNat)
  | .vst d a b z _ => if store then some (d.toNat, 2 ^ z.toNat, fun l => v.pair a.toNat l + v.s b.toNat) else none
  | .vldc d a z i => if store then none else
      some (d.toNat, 2 ^ (z.toNat + 2),
        fun l => v.s a.toNat + immediate v.group 9 i.toNat + BitVec.ofNat 64 (l * 2 ^ (z.toNat + 2)))
  | .vstc d a z i => if store then
      some (d.toNat, 2 ^ (z.toNat + 2),
        fun l => v.s a.toNat + immediate v.group 9 i.toNat + BitVec.ofNat 64 (l * 2 ^ (z.toNat + 2))) else none
  | .lld d a b z => if store then none else
      some (d.toNat, 2 ^ z.toNat, fun l => (1 : BitVec 32) <<< 29 ++ (v.v a.toNat l + (v.s b.toNat).setWidth 32))
  | .lst d a b z => if store then
      some (d.toNat, 2 ^ z.toNat, fun l => (1 : BitVec 32) <<< 29 ++ (v.v a.toNat l + (v.s b.toNat).setWidth 32)) else none
  | .vlda d a _ z _ => if store then none else some (d.toNat, if z = 1 then 8 else 4, fun l => v.pair a.toNat l)
  | .vstr d a _ z _ => if store then some (d.toNat, if z = 1 then 8 else 4, fun l => v.pair a.toNat l) else none
  | _ => none

/-- The scalar loads and stores in the same way (R297, R300). -/
def scalarAccess (v : Wave) (store : Bool) : Instr → Option (Nat × Nat × DWord)
  | .sld d a z i => if store then none else some (d.toNat, 2 ^ z.toNat, v.s a.toNat + immediate v.group 9 i.toNat)
  | .sst d a z i => if store then some (d.toNat, 2 ^ z.toNat, v.s a.toNat + immediate v.group 9 i.toNat) else none
  | .slda d a _ z _ => if store then none else some (d.toNat, if z = 1 then 8 else 4, v.s a.toNat)
  | .sstr d a _ z _ => if store then some (d.toNat, if z = 1 then 8 else 4, v.s a.toNat) else none
  | _ => none

/-- The active lanes that make their access; a lookout's load without a translation at hand is dropped instead (R145). -/
def lanesTaken (s : State) (acc : Access) (size : Nat) (addr : Nat → DWord) : List Nat :=
  s.wave.active.filter fun l => !(decide (acc = .read) && s.dropped l (addr l) size)

/-- The lanes whose access passes its checks, ascending, with the places of their bytes. -/
def lanesPassing (s : State) (acc : Access) (size : Nat) (addr : Nat → DWord) : List (Nat × List Place) :=
  (lanesTaken s acc size addr).filterMap fun l => match s.reach acc l (addr l) size with
    | .ok ps => some (l, ps)
    | .error _ => none

/-- The lanes whose access fails, with the cause. -/
def lanesFailing (s : State) (acc : Access) (size : Nat) (addr : Nat → DWord) : List (Nat × Nat) :=
  (lanesTaken s acc size addr).filterMap fun l => match s.reach acc l (addr l) size with
    | .ok _ => none
    | .error c => some (l, c)

/-- The trap of the lanes whose accesses fail: cause byte, write bit, address (R425, R426). -/
def accessTrap (write : Bool) (addr : Nat → DWord) (bad : List (Nat × Nat)) : Trap :=
  { whole := false, mask := maskOf (bad.map (·.1)),
    causes := bad.map fun b => (b.1, BitVec.ofNat 32 (b.2 % 256 + if write then 256 else 0)),
    addrs := (bad.map fun b => (b.1, addr b.1)).filter fun x => decide (x.2 ≠ 0), boundary := false, hvc := none }

/-- What follows when lanes have failed and the others have made of `s` the state `u`: a breach of the VI's allocation freezes the VI
with cause 2 and keeps the trap (R489), every other failure traps (R299); in hypervisor mode nothing is left of what the other lanes
have done (R447). -/
def afterFailures (s u : State) (bad : List (Nat × Nat)) (t : Trap) : State :=
  if bad.any (fun b => b.2 == 0x218) then ({ u with wave := { u.wave with pending := some t } } : State).freeze u.wave.env.vi 2
  else if s.wave.arch.mode = .hypervisor then s.takeTrap t
  else u.takeTrap t

/-- The elements that a load of `size` bytes with value `x` writes in lane l: whole 32-bit registers from `vd` up, a smaller value
zero-extended (R298). -/
def elementsOf (d l size x : Nat) : List RegWrite :=
  (List.range ((size + 3) / 4)).map fun k => .vec (d + k) l (BitVec.ofNat 32 (x / 2 ^ (32 * k)))

/-- The bytes that a store of `size` bytes takes from lane l: the low bytes of `vd`, or whole registers from `vd` up (R298). -/
def lanesBytes (w : Wave) (d l size : Nat) : List Byte :=
  bytesOf size ((List.range ((size + 3) / 4)).foldl (fun n k => n + (w.v (d + k) l).toNat * 2 ^ (32 * k)) 0)

/-- A load that consumes poison reports it for its reach (R467); nothing else is done about it when the load issues. -/
def consumedPoison (s : State) (ps : List Place) : List Happening :=
  if (∃ p ∈ ps, s.poisoned p = true) ∧ s.wave.lookoutOf = none then [.op (.poisonConsumed s.wave.env.grid s.wave.env.reach)] else []

/-- The state with a load in progress that has read some places: `race` are its elements whose sector its core's L1 did not hold, which
may yet take newer bytes (R291); `cs` is what the caches hold then. -/
def loaded (s : State) (ws : List RegWrite) (race : List (Nat × List Place)) (cs : List CachedLine) (ps : List Place) : State :=
  { s.loading ws race with caches := cs, agenda := consumedPoison s ps ++ s.agenda }

/-- What races are elements of the load, by their position, and not in the L1. -/
def raceOf (s : State) (ws : List RegWrite) (race : List (Nat × List Place)) (ps : List Place) : Prop :=
  ∀ r ∈ race, r.1 < ws.length ∧ (∀ p ∈ r.2, p ∈ ps) ∧ ∃ p ∈ r.2, s.inL1 p = false

/-- An instruction of the wave whose end has stored nothing but the bytes given, later ones over earlier ones; what the wave has
loaded is settled (R291). -/
def storesOnly (s t : State) (bs : List (Place × Byte)) : Prop :=
  s.onlyStores t ∧ (if bs = [] then s else s.calm).wave.sameElse t.wave ∧ s.wave.wentOn t.wave ∧
  t.wave.arch = { s.wave.arch with exm := s.wave.maskAfter } ∧ ∀ p, t.byte p = overlaid bs s.byte p

/-- What an atomic of `size` bytes finds at an address: private space is refused, and both rights are needed (R292, R304). -/
def atomicPlaces (s : State) (l : Nat) (a : DWord) (size : Nat) : Option (List Place) :=
  match s.reach .write l a size, s.reach .read l a size with
  | .ok ps, .ok _ => if a.toNat / 2 ^ 61 = 0 then none else some ps
  | _, _ => none

/-! ## Region-ending instructions, waits, barriers (R156, R321 to R323, R391 to R405, R457, R458) -/

/-- The wave stalls at its terminal instruction: nothing else has happened (R156). -/
def stalledAt (s : State) : State := { s with wave := { s.calm.wave with status := .stalled } }

/-- The same at a fence, which keeps the cycle in which it issued (R392). -/
def stalledAtFence (s : State) : State :=
  { s with wave := { s.calm.wave with status := .stalled, fenceAt := some (s.wave.fenceAt.getD s.now) } }

/-- Something that the quarantine holds from now on (R455). -/
def holding (s : State) (k : HeldKind) : State :=
  { s.calm with core := { s.core with held := s.core.held ++ [{ slot := s.wave.slot, at_ := s.now, kind := k }] } }

/-- Whether something is held for which a fence of the wave waits: a write or an atomic of the wave (R392, R394), or a write to a local
store that another wave of the core had made when the fence issued, which a load of this wave may have returned. -/
def wavesWriteHeld (s : State) : Prop :=
  ∃ h ∈ s.core.held,
    (h.slot = s.wave.slot ∧
      ((∃ p bs, h.kind = .write p bs) ∨ ∃ p a ll dst acq after sent, h.kind = .atomic p a ll dst acq after sent)) ∨
    (h.at_ ≤ s.wave.fenceAt.getD s.now ∧ ∃ c o bs, h.kind = .write (.store c o) bs)

/-- The tags that the current uncore cycle has set on the core looked at: a clear comes before them (R323). -/
def freshTags (s : State) : DWord := if s.core.tagsAt = s.uncore then s.core.tagsNew else 0

/-- The settings that a clear finds: those of earlier cycles, with what stood before a tag that this cycle has set again (R323). -/
def settledTags (s : State) : DWord := s.core.tagmap &&& ~~~(freshTags s &&& ~~~s.core.tagsWas)

/-- Tags cleared, the cleared settings held by the quarantine (R323, R455); a tag that this cycle has set stays set. -/
def tagsCleared (s : State) (m : DWord) : State :=
  let u := holding s (.tags (settledTags s &&& m))
  { u with core := { u.core with tagmap := s.core.tagmap &&& ~~~(m &&& ~~~(freshTags s)), tagsWas := s.core.tagsWas &&& ~~~m } }

/-- Whether an asynchronous operation of the wave is open that FENCE.TC waits for (R393). -/
def asyncOpen (s : State) : Prop :=
  ∃ o ∈ s.ops, o.core = s.wave.core ∧ o.slot = s.wave.slot ∧ o.orphan = false ∧ o.ended = false ∧
    ((∃ h p r, o.kind = .amsg h p r) → o.dst.toNat / 2 ^ 61 = 3)

/-! ## Asynchronous operations (R306 to R316) -/

/-- The operation that an instruction of the wave starts, before its engine has seen it. -/
def freshOp (s : State) (kind : AsyncKind) (counter : Option Nat) (stream : Nat) (tag : Option Nat) (src dst : DWord) (len : Nat)
    (pages : List Page) (home : Nat) (left out : List (Nat × Nat)) (policy : Nat) : AsyncOp :=
  { id := s.ids, kind := kind, core := s.wave.core, slot := s.wave.slot, env := s.wave.env, mode := s.wave.arch.mode,
    counter := counter, stream := stream, tag := tag, src := src, dst := dst, len := len, pages := pages, home := home, left := left,
    out := out, parts := [], started := false, status := none, ended := false, orphan := false, reply := none,
    policy := policy }

/-- The state with an operation started: numbered, counted, and held by the quarantine before its engine sees it (R307, R455). -/
def withOp (s : State) (o : AsyncOp) : State :=
  holding { s with ids := s.ids + 1, ops := s.ops ++ [o],
                   wave := match o.counter with
                     | none => s.wave
                     | some c => s.wave.setCounter c (s.wave.counter c + 1) } (.start s.ids)

/-- The counter that a parameter scalar names for an instruction whose own counter is `own` (R306). -/
def counterNamed (own : Nat) (x : DWord) : Option Nat :=
  if bitsN x.toNat 62 60 = 0 then some own else if bitsN x.toNat 62 60 = 1 then some 0 else if bitsN x.toNat 62 60 = 2 then some 2
  else if bitsN x.toNat 62 60 = 3 then some 3 else none

/-- Whether the fields that every parameter scalar shares hold values that R306 allows. -/
def paramGood (x : DWord) : Prop :=
  x.getLsbD 63 = false ∧ bitsN x.toNat 62 60 ≤ 4 ∧ bitsN x.toNat 59 48 = 0 ∧ bitsN x.toNat 35 32 = 0

/-- The tag and the stream of a parameter scalar (R168, R306). -/
def tagNamed (x : DWord) : Option Nat := if x.getLsbD 42 = true then some (bitsN x.toNat 41 36) else none
def streamNamed (h : Hints) (x : DWord) : Nat := h.stream.getD (bitsN x.toNat 44 43)

/-- Room in a counter (R307). -/
def counterRoom (w : Wave) (c : Option Nat) : Prop := ∀ n, c = some n → w.counter n < 63

/-! ## The matrix set (R133, R333, R336) -/

/-- The operation that a matrix word queues. -/
def queuedOp (s : State) (kind : MatrixKind) (a b : Nat) (origin : DWord) : MatrixOp :=
  { id := s.ids, slot := s.wave.slot, env := s.wave.env, kind := kind, ta := a, tb := b, tca := s.core.matrix.data.tc a,
    tcb := s.core.matrix.data.tc b, origin := origin, issuedAt := s.now, notBefore := s.now + 1, begunAt := none,
    issueSlot := s.wave.issueSlot }

/-- Where an operation enters the queue (R333): behind what is there, but before what a higher issue slot entered in the same cycle. -/
def queuePlace (q : List MatrixOp) (o : MatrixOp) : List MatrixOp :=
  (q.takeWhile fun x => !(x.issuedAt == o.issuedAt && decide (o.issueSlot < x.issueSlot))) ++
    o :: (q.dropWhile fun x => !(x.issuedAt == o.issuedAt && decide (o.issueSlot < x.issueSlot)))

/-- The state with the operation in the queue and in the wave's open batch. -/
def withQueued (s : State) (o : MatrixOp) : State :=
  { s with ids := s.ids + 1,
           wave := { s.wave with openBatch := { s.wave.openBatch with left := s.wave.openBatch.left ++ [o.id],
                                                                      size := s.wave.openBatch.size + 1 } },
           core := { s.core with matrix := { s.core.matrix with queue := queuePlace s.core.matrix.queue o } } }

/-- The local ranges of an operation can all be reached. -/
def reachesAll (o : MatrixOp) : Prop := ∀ r ∈ o.reads ++ o.writes, ∃ x, o.env.localRuns r.1 r.2 = .ok x

/-- The matrix words that queue an operation, with the operation and the conditions of their chapter on the operands. -/
def matrixRow (s : State) : Instr → Option (MatrixOp × Prop)
  | .mma a b r z t =>
      let o := queuedOp s (.mma (z == 1) (t == 1)) a.toNat b.toNat (s.wave.s r.toNat)
      some (o, o.mmaIllegal (s.core.matrix.data.tc (b.toNat + 1)) = false)
  | .mmas a b r z t =>
      let x := s.wave.s (s.wave.group.extra.headD 0)
      let y := s.wave.s (s.wave.group.extra.getD 1 0)
      let o := queuedOp s (.mmas (z == 1) (t == 1) x y) a.toNat b.toNat (s.wave.s r.toNat)
      some (o, o.mmaIllegal (s.core.matrix.data.tc (b.toNat + 1)) = false ∧ scaleLegal x = true ∧ scaleLegal y = true)
  | .mmax a b r z t m =>
      let o := queuedOp s (.mmax (z == 1) (t == 1) m.toNat) a.toNat b.toNat (s.wave.s r.toNat)
      some (o, o.mmaIllegal (s.core.matrix.data.tc (b.toNat + 1)) = false ∧ b.toNat % 2 = 0 ∧ m ≠ a ∧ m ≠ b ∧ m.toNat ≠ b.toNat + 1)
  | .tld a r =>
      let x := s.wave.s r.toNat
      some (queuedOp s (.tld x) a.toNat 0 0, x.toNat % 16 = 0 ∧ 2 ^ 61 ≤ x.toNat ∧ x.toNat < 2 ^ 61 + 2 ^ 22)
  | .tst a r =>
      let x := s.wave.s r.toNat
      some (queuedOp s (.tst x) a.toNat 0 0, x.toNat % 16 = 0 ∧ 2 ^ 61 ≤ x.toNat ∧ x.toNat < 2 ^ 61 + 2 ^ 22)
  | .tzero a => some (queuedOp s .tzero a.toNat 0 0, True)
  | .txfer a p =>
      some (queuedOp s (.txfer p.toNat) a.toNat 0 0,
        ∃ n, rillNeighbour s.wave.core p.toNat = some n ∧ ∃ r ∈ (s.coreAt n).residents, r.grid = s.wave.env.grid)
  | .trecv a p => some (queuedOp s (.trecv p.toNat) a.toNat 0 0, True)
  | .amcpOut r =>
      some (queuedOp s (.amcpOut (s.wave.s r.toNat)) 0 0 0, rectLegal (s.wave.s r.toNat) = true ∧ bitsN (s.wave.s r.toNat).toNat 21 0 % 16 = 0)
  | .amcpIn r =>
      some (queuedOp s (.amcpIn (s.wave.s r.toNat)) 0 0 0, rectLegal (s.wave.s r.toNat) = true ∧ bitsN (s.wave.s r.toNat).toNat 21 0 % 16 = 0)
  | .amzero r =>
      some (queuedOp s (.amzero (s.wave.s r.toNat)) 0 0 0, rectLegal (s.wave.s r.toNat) = true ∧ bitsN (s.wave.s r.toNat).toNat 21 0 = 0)
  | _ => none

/-! ## Launching and spawning (R113 to R125), ferries (R251 to R270) -/

/-- A LAUNCH that is turned away: the code in the destination, nothing launched (R122). -/
def launchRefused (s : State) (d a b : BitVec 7) (code : Nat) : Prop :=
  ∃ t, exec (.launch d a b) s = .next t ∧ ranToRegionEnd s t [d.toNat] [] [] ∧ t.wave.s d.toNat = 0x8000000000000000 + BitVec.ofNat 64 code

/-- The records of a queue that are written or held and not yet accepted fill it (R122). -/
def queueFull (s : State) (v : Vi) (q : Queue) : Prop :=
  (q.k + (s.heldLaunches v.vi q.q).length + 2 ^ 32 - q.qacc) % 2 ^ 32 = 2 ^ q.log

/-- The record as LAUNCH holds it: the sequence number and the parent link written over the program's (R113, R122). -/
def heldRecord (n link : Nat) (rec_ : List Byte) : List Byte :=
  bytesOf 4 n ++ (rec_.drop 4).take 52 ++ bytesOf 8 link ++ rec_.drop 64

/-- The travellers that a departing wave becomes, one for each active lane (R252, R253, R256). -/
def departing (s : State) (t : DWord) (seg team : Nat) : List Traveller :=
  s.wave.active.map fun l =>
    { grid := s.wave.env.grid, slot := s.wave.slot, entry := t.toNat - s.wave.env.image.toNat,
      lmask := BitVec.ofNat 16 s.wave.group.live.2, lbase := s.wave.group.live.1, spawn := false, seg := seg, preds := s.wave.predBits l,
      src := s.wave.core, team := team,
      regs := (liveRegs s.wave.group.live.1 s.wave.group.live.2).map fun r => (r, s.wave.v r l), offerAt := 0,
      departAt := s.now + 64, age := s.wave.age }

/-- The departure buffer once the travellers of a wave have joined it (R257): behind what is there, but before those of younger waves
that departed in the same core cycle. -/
def joined (s : State) (ts : List Traveller) : List Traveller :=
  let younger := fun x : Traveller => x.departAt == s.now + 64 && decide (s.wave.age < x.age)
  s.core.departure.takeWhile (fun x => !younger x) ++ ts ++ s.core.departure.dropWhile (fun x => !younger x)

/-! ## Channels (R406 to R411) -/

/-- A use of a channel that the capability table does not grant: a permission trap, and the VI freezes with cause 1 (R31, R97). -/
def denial (s : State) : State := (s.takeTrap (s.wave.wholeTrap 0x18 none)).freeze s.wave.env.vi 1

/-- The packet that SEND puts into the outgoing buffer (R409). -/
def sentPacket (s : State) (a : BitVec 7) (n : BitVec 2) (c : BitVec 6) : ChanPacket :=
  let e := Cells.read s.core.chtab c.toNat
  { vi := s.wave.env.vi, route := bitsN e.toNat 61 60, stop := bitsN e.toNat 59 57, ep := bitsN e.toNat 56 50, dch := bitsN e.toNat 49 44,
    sch := c.toNat, srcStop := chanStop s.core.id, srcEp := chanEp s.core.id, seq := (Cells.read s.core.chseq c.toNat).toNat,
    flits := n.toNat + 1,
    payload := ((List.range (n.toNat + 1)).map (a.toNat + ·)).flatMap fun r =>
      (List.range 16).flatMap fun l => bytesOf 4 (s.wave.v r l).toNat,
    offered := false, offerAt := 0 }

/-- The packets that wait in a receive queue of the core, in order. -/
def waitingOn (s : State) (c : BitVec 6) : List ChanPacket := (s.core.rxq.filter fun x => x.1 == c.toNat).map (·.2)

/-- What CHPOLL answers (R411). -/
def pollAnswer (s : State) (c : BitVec 6) : DWord :=
  let e := Cells.read s.core.chtab c.toNat
  if e.getLsbD 63 = false ∨ e.getLsbD 62 = false then 0x8000000000000000
  else match waitingOn s c with
    | [] => 0
    | p :: ps => BitVec.ofNat 64 (p.srcStop * 2 ^ 25 + p.srcEp * 2 ^ 16 + p.flits * 2 ^ 8 + (ps.length + 1))

/-! ## Keepers (R287 to R289) -/

/-- The handler goes on behind its instruction, changed as given. -/
def handlerGoesOn (s : State) (r : KeeperRun) (len : Nat) : State :=
  { s with keeper := { s.keeper with run := some { r with pc := r.pc + BitVec.ofNat 32 len, count := r.count + 1 } } }

/-- The handler ends with an error kind: nothing is written, and the reply is held (R289). -/
def handlerAborts (s : State) (r : KeeperRun) (kind : Nat) : State :=
  { s with keeper := { s.keeper with
      run := none,
      held := s.keeper.held ++ [{ msg := r.msg, kind := kind, status := 0, reply := [], lines := [], writes := [],
                                  at_ := s.sliceTime s.keeper.slice }] } }

/-! ## Steps, reset and encodings -/

/-- Words of the spec's own examples with the instructions that its assembly lines give (chapters 06, 07, 08, 09, 11 and 12). -/
noncomputable def exampleWords : List (Word × Instr) :=
  [(0x70400000, .vldc 8 0 0 0), (0x64488003, .vmov 9 8), (0x04400000, .exit), (0x20180002, .himm 0x180002), (0x28A3CE00, .smovi 20 0x3C 0),
   (0x58497493, .vcvtF32ToNarrow 9 23 0x24 3), (0x64080000, .srd 1 0), (0x34181201, .vandi 3 1 1), (0x5C003001, .vcmpNeI32 0 3 0),
   (0x5C081082, .vcmpLtI32 1 1 4), (0x14500000, .msplit 10 0), (0x14000067, .bexz 3), (0x1400A001, .melse 10 0), (0x1400A183, .mpush 10 12),
   (0x1400A002, .mjoin 10), (0x14500004, .mpop 10), (0x70100800, .vstc 2 0 0 0), (0x34284804, .vshli 5 4 4), (0x301010A0, .vaddI32 2 1 5),
   (0x1E040001, .hlive 2 1), (0x080003F6, .br 1014), (0x88014184, .look 20 12), (0x8C400700, .tagwall 14), (0x8C000001, .waitc 0 1),
   (0xA0000440, .txfer 0 1), (0xA0008600, .amcpOut 16), (0xA0006800, .tcfg 0 13), (0xA0005100, .tld 0 10)]

/-! ## Start-up and tenants (R26, R33, R95, R97, R399) -/

/-- The bytes of the firmware image of a number where step 4 loads them in the control memory of the package that the record names
(R26). -/
noncomputable def firmwareCells (s : State) (r : ConfigRecord) (n : Nat) : List (Place × Byte) :=
  let bs := Config.firmwareImage n s.platform.flash
  (List.range bs.length).map fun i => (Place.mem (2 ^ 40 + r.pkg * 2 ^ 35 + (Config.firmwareBase n + i) % 2 ^ 35), bs.getD i 0)

/-- What is left of memory when the package loses its state: the host's own, which is no state of the device (R22, R36). -/
def hostMemoryOf (s t : State) : Prop := ∀ c, c ∈ t.mem ↔ c ∈ s.mem ∧ isHostKey c.1 = true

/-- No write of the host is held back, so that a further access of it is not (R399). -/
def noHostWrite (s : State) : Prop := ∀ r ∈ s.hub.hostHeld, r.control = true ∨ r.write = false

/-- The state with an access of the host held back. -/
def hostWaits (s : State) (r : HostRequest) : State := { s with hub := { s.hub with hostHeld := s.hub.hostHeld ++ [r] } }

/-! ## The launch engine's events (R102 to R139, R245, R246, R476 to R482) -/

/-- The state with a queue of a VI replaced. -/
def withQueue (s : State) (v : Vi) (x : Queue) : State :=
  { s with vis := s.vis.map fun y =>
      if y.vi = v.vi then { v with queues := v.queues.map fun z => if z.q = x.q then x else z } else y }

/-- No two waves of a reach start in one slot. -/
def slotsApart (s : State) (g : Grid) (x : Reach) : Prop :=
  ∀ u ∈ x.teams, ∀ v ∈ x.teams, ∀ k < g.record.waves, ∀ l < g.record.waves,
    u.coreOf k = v.coreOf l → (s.coreAt (u.coreOf k)).slotOf g u k = (s.coreAt (v.coreOf l)).slotOf g v l → u = v ∧ k = l

/-- A wave of a reach stands in its slot as R136 starts it. -/
def startsAs (s t : State) (g : Grid) (x : Reach) (u : TeamState) (k : Nat) (st : WaveStatus) : Prop :=
  ∃ w, t.waveAt ⟨u.coreOf k, (s.coreAt (u.coreOf k)).slotOf g u k⟩ = some w ∧ w.status = st ∧ w.env = s.envFor g x u k ∧
    w.arch = w.env.startArch (lowMask g.record.width) ∧ w.pos = .at (g.record.image + BitVec.ofNat 64 g.record.entry)

/-- The reach of a grid is running. -/
def runs (t : State) (grid n : Nat) : Prop :=
  ∃ g x, t.gridAt grid = some g ∧ g.reachAt n = some x ∧ x.phase = .running

/-! ## Waves between instructions (R140 to R158, R310, R403, R430, R439, R442, R455) -/

/-- The wave looked at may begin its next clause (R140, R141, R430): it stands between clauses with no trap due, its VI runs it, its
clause is at hand, its core has a free issue slot and no wave that comes first. -/
def mayBegin (s : State) : Prop :=
  s.wave.between = true ∧ s.wave.boundaryDue = false ∧ s.wave.readySince ≤ s.now ∧ (s.wave.fellX = true ∨ s.needsFill = false) ∧
  s.wave.lookoutOver = false ∧
  (∃ v, s.viAt s.wave.env.vi = some v ∧ (v.phase = .active ∨ s.wave.arch.mode = .hypervisor)) ∧ s.chosenNext = true

/-- A fetch that fails at an address (R150). -/
def fetchTrap (s : State) (c : Nat) (a : DWord) : State :=
  s.takeTrap (s.wave.wholeTrap (BitVec.ofNat 32 (c % 256 + 2 ^ 9)) (some a))

/-- The wave takes a boundary trap with a cause word (R428, R430). -/
def boundaryTaken (s : State) (c : Word) : State := s.enterTrap { s.wave.wholeTrap c none with boundary := true }

/-- A wave of a VI that runs, at a clause boundary or a stalled terminal instruction, with no long-latency instruction in progress and
nothing that comes first under R430. -/
def atBoundary (s : State) : Prop :=
  (s.wave.status = .ready ∨ s.wave.status = .stalled) ∧ s.wave.stop = none ∧ s.wave.pending = none ∧ s.wave.waitInv = none ∧
  s.wave.lookoutOf = none ∧ s.wave.ll = [] ∧ s.wave.pos.skip = false ∧
  ∃ v, s.viAt s.wave.env.vi = some v ∧ (v.phase = .active ∨ s.wave.arch.mode = .hypervisor)

/-- The terminal instructions at which a wave can stall (R156). -/
def canStall : Instr → Bool
  | .rett _ | .waitc _ _ | .tagwany _ | .tagwall _ | .tagffr _ _ | .fence _ | .fenceTc | .bar _ | .rbar _ | .recv _ _ _ | .lwait _ _
  | .br _ | .call _ | .ret _ | .jmpr _ | .brsNz _ _ | .brsZ _ _ | .brpAny _ _ | .brpAll _ _ | .brpNone _ _ | .bexz _ | .ferry _ => true
  | _ => false

/-! ## Keepers' messages (R286, R287) -/

/-- How a handler starts (R287): the payload at the start of the scratch, the target and the sender in x10 to x12, every other register
zero, the pc at the code, the target's line selected. -/
def handlerStarted (m : KeeperMsg) (a : DWord) (code : List Byte) (lines : List Nat) (l : Nat) : KeeperRun :=
  { msg := m, scratch := Cells.writeList [] 0 m.payload,
    regs := Cells.write (Cells.write (Cells.write [] 10 (m.target.setWidth 32)) 11 ((m.target >>> 32).setWidth 32)) 12 (BitVec.ofNat 32 m.src),
    pc := a.setWidth 32, codeBase := a.setWidth 32, code := code, lines := lines, writes := [], line := l, lineVa := m.target, count := 0 }

/-- The message ends with an error kind before its handler has run. -/
def messageFails (s : State) (m : KeeperMsg) (kind : Nat) : State :=
  { s with keeper := { s.keeper with
      run := none,
      held := s.keeper.held ++ [{ msg := m, kind := kind, status := 0, reply := [], lines := [], writes := [], at_ := s.sliceTime s.keeper.slice }] } }

/-- The word writes of a handler, byte by byte (R7, R289). -/
def wordBytes (ws : List (Nat × Word)) : List (Place × Byte) :=
  ws.flatMap fun w => (List.range 4).map fun i => (Place.mem (w.1 + i), (bytesOf 4 w.2.toNat).getD i 0)

/-! ## The end of operations (R307 to R310, R326, R334 to R338, R350 to R352, R375, R383) -/

/-- The operation has ended with a status (R307, R308, R310): its tag is set, its counter counts down by the ended operations at the
head of its order, a failure is told to its wave, no request of it is awaited; memory is as it was. -/
def ends (s t : State) (o : AsyncOp) (st : OpStatus) : Prop :=
  t.mem = s.mem ∧ (∀ r ∈ t.fabric.requests, r.op ≠ o.id) ∧
  (t.coreAt o.core).tagmap = (match o.tag with
    | some k => (s.coreAt o.core).tagmap ||| laneBit k
    | none => (s.coreAt o.core).tagmap) ∧
  ∀ w c, o.orphan = false → o.counter = some c → s.waveAt ⟨o.core, o.slot⟩ = some w →
    ∃ x, t.waveAt ⟨o.core, o.slot⟩ = some x ∧
      x.counter c = w.counter c - ((s.counted o.core o.slot c).takeWhile fun y => y.ended || y.id == o.id).length ∧
      x.failures = w.failures ++ (if st = .success then [] else [{ status := st, counter := o.counter, stream := o.stream }])

/-- The wave of an operation, if it has not ended, takes the elements written and nothing else of its registers changes. -/
def lands (s t : State) (o : AsyncOp) (ws : List RegWrite) : Prop :=
  ∀ w, o.orphan = false → s.waveAt ⟨o.core, o.slot⟩ = some w →
    ∃ x, t.waveAt ⟨o.core, o.slot⟩ = some x ∧ x.arch = ws.foldl Arch.land w.arch

/-! ## Packets (R33, R355 to R373, R470, R472) -/

/-- A packet is taken in: one kept here is served again, one for this package itself needs no link, one that comes over its port or out
of the reorder buffer has the expected number of its channel and a good header from a member that is not lost. `u` is the state in which
it is served, `after` what follows: the next packet of the channel. -/
def takes (s : State) (p : FabPacket) (u : State) (after : State → State) : Prop :=
  if p ∈ s.fabric.heldIn then u = { s with fabric := { s.fabric with heldIn := s.fabric.heldIn.erase p } } ∧ ∀ t, after t = t
  else if p.src = s.pkg then u = s ∧ ∀ t, after t = t
  else
    p.dst = s.pkg ∧ p.src ∉ s.fabric.lost ∧ headerGood p = true ∧ p.seq = s.fabric.expected p.src p.vc ∧
    (∀ t, after t = t.deliverNext p.src p.vc) ∧
    if p ∈ s.fabric.reorder then
      u = { s with fabric := Fabric.accept { s.fabric with reorder := s.fabric.reorder.erase p } p.src p.vc }
    else
      ∃ x, s.portAt p.port = some x ∧ x.authentic p = true ∧ x.accepts p = true ∧ (p.relayed = true ∨ x.peer = p.src) ∧
        u = { s with fabric := Fabric.accept { s.fabric with ports := s.fabric.ports.map fun z =>
          if z.n = x.n then { x with rxCount := x.rxCount + 1 } else z } p.src p.vc }

/-- The home has taken a request (R366, R367): with a mirror the change and the packets that depend on it wait for the mirror's answer;
without one the entry stands and, unless an owner was asked to forward the line, the request is served. -/
def homeTakes (u t : State) (line : Nat) (entry : DirEntry) (data : Option (List Byte)) (sends : List FabPacket) : Prop :=
  match u.mirrorPkg with
  | some _ => ∃ x, t.txnAt line = some x ∧ x.phase = .mirroring ∧ x.acks = [] ∧ x.entry = entry ∧ x.data = data ∧ x.sends = sends
  | none =>
    (t.dirEntry line).st = entry.st ∧ (entry.st ≠ .invalid → t.dirEntry line = entry) ∧
    if sends.any (·.op == opForwardedRead) then ∃ x, t.txnAt line = some x ∧ x.phase = .forwarding ∧ x.sends = []
    else t.txnAt line = none

/-- The packages whose copies a request for ownership or an atomic of `keep` invalidates (R366). -/
def recalled (u : State) (line : Nat) (keep : Option Nat) : List Nat :=
  let e := u.dirEntry line
  (List.range 16).filter fun x => (e.sharers.getLsbD x || (e.st != .invalid && e.st != .shared && e.owner == x)) &&
    x != u.pkg && some x != keep && !u.fabric.lost.contains x

/-- The home serves a request for the line (R365, R366, R473). -/
def homeFree (u : State) (line : Nat) : Prop :=
  u.servesLine (lineKey line) = true ∧ u.txnAt line = none ∧ u.keeperHolds (lineKey line) = false

/-- A request waits for acknowledgements (R366). -/
def collects (t : State) (line : Nat) (entry : DirEntry) (acks : List Nat) : Prop :=
  ∃ x, t.txnAt line = some x ∧ x.phase = .collecting ∧ x.acks = acks ∧ x.entry = entry

/-- The type of the answer to a tensor request (R356). -/
def replyType : Instr → Option (FabPacket × Nat)
  | .tensorRead p => if p.op = 0x20 then some (p, 0x30) else none
  | .tensorWrite p => if p.op = 0x21 then some (p, 0x31) else none
  | .remoteAtomic p => if p.op = 0x22 then some (p, 0x32) else none
  | .collectiveData p => if p.op = 0x23 then some (p, 0x33) else none
  | _ => none

/-- What a tensor request needs of its home: the access, its bytes, and the kind that a fault record names (R368, R370, R375). -/
def requestNeeds : Instr → Option (FabPacket × Access × Nat × Nat)
  | .tensorRead p => if p.op = 0x20 then some (p, .read, p.len, 0) else none
  | .tensorWrite p => if p.op = 0x21 then some (p, .write, p.len, 1) else none
  | .remoteAtomic p => if p.op = 0x22 then some (p, .write, (atomicOf p.opnd).size, 2) else none
  | _ => none

/-- The packets that answer a request of this package. -/
def answerOf : Instr → Option FabPacket
  | .readData p => if p.op = 0x30 then some p else none
  | .writeCompletion p => if p.op = 0x31 then some p else none
  | .atomicResult p => if p.op = 0x32 then some p else none
  | .collectiveAcknowledgement p => if p.op = 0x33 then some p else none
  | _ => none

/-- A port carries packets of the links' own channel (R364). -/
def carries (x : Port) : Prop := x.state = .unlocked ∨ x.state = .locked ∨ x.state = .running

/-- The state with a port replaced. -/
def withPort (s : State) (x : Port) : State :=
  { s with fabric := { s.fabric with ports := s.fabric.ports.map fun z => if z.n = x.n then x else z } }

/-- The port is training anew, at the highest speed (R361). -/
def trains (s : State) (n peer tries : Nat) : Prop :=
  ∃ y, s.portAt n = some y ∧ y.state = .training ∧ y.peer = peer ∧ y.tries = tries ∧ y.speed = 2 ∧ y.finished = false ∧
    y.runCommanded = false ∧ y.peerRun = false

/-! ## The ring and channels (R406 to R419) -/

/-- The ring without the first waiting message of a source, which has had its turn at the stop. -/
def withoutFirst (r : Ring) (stop source : Nat) : Ring :=
  { r with waiting := dropWaiting stop source r.waiting, turn := (stop, source) :: r.turn.filter (·.1 != stop) }

/-- A message whole in the shared slots of a stop, as it lies there after a shared move or an injection in this cycle: its flits come in
one by one from the next cycle on. -/
def arrivedAt (s : State) (m : RingMsg) (stop : Nat) : RingPos :=
  { msg := m, flitsAt := List.replicate (m.flits + 1) stop, sharedAt := stop, arrived := s.uncore + 1,
    times := (List.range (m.flits + 1)).map fun i => s.uncore + 1 + i }

/-- A move on the ring changes nothing else, and takes the link out of a stop for some cycles. -/
def movesOn (s t : State) (stop : Nat) (ccw : Bool) (cycles : Nat) : Prop :=
  t = { s with ring := t.ring } ∧ t.ring.waiting = s.ring.waiting ∧ t.ring.ejected = s.ring.ejected ∧ t.ring.turn = s.ring.turn ∧
  ∀ now, s.uncore ≤ now → now < s.uncore + cycles → t.ring.linkFree now stop ccw = false

/-- A slot of a stop that has emptied now is not counted free before the next cycle. -/
def countedLater (s t : State) (stop : Nat) (p : RingPos) : Prop :=
  t.ring.uncounted s.uncore stop p.msg.ccw p.msg.cls (if p.inShared stop then none else some (crossed p.msg stop)) ≠ 0

/-- The packets of an outgoing buffer with one of them marked. -/
def marked (out : List ChanPacket) (ch seq : Nat) (offered : Bool) (at_ : Nat → Nat) : List ChanPacket :=
  out.map fun q => if q.sch = ch ∧ q.seq = seq then { q with offered := offered, offerAt := at_ q.offerAt } else q

/-- The packet that an endpoint sends with a value of `CPSEND` (R409, R413): the flits of `CPOUT`, through its channel entry. -/
def endpointPacket (ep : Nat) (e : Endpoint) (ch n : Nat) : ChanPacket :=
  let t := Cells.read e.chtab ch
  { vi := e.vi.getD 0, route := chRoute t, stop := chStop t, ep := chEp t, dch := chDch t, sch := ch, srcStop := if ep < 16 then 3 else 7,
    srcEp := ep % 16, seq := (Cells.read e.chseq ch).toNat, flits := n, payload := Cells.readList e.cpout 0 (64 * n),
    offered := false, offerAt := 0 }

/-! ## Quarantine, strikes, poison, pre-emption and halts (R443, R447 to R468) -/

/-- What a core does with the next due item of its quarantine: the item has left the queue. -/
def releasedFrom (s : State) (core : Nat) (h : Held) : State :=
  s.setCore { s.coreAt core with held := (s.coreAt core).held.erase h }

/-- A wave of a team on a core that a strike report restarts: it waits at no barrier. -/
def restarts (s : State) (core : Nat) (w : Wave) : Prop :=
  w ∈ s.allWaves ∧ w.core = core ∧ w.lookoutOf = none ∧ (w.status ≠ .absent ∧ w.status ≠ .exited) ∧ w.arrival = none

/-! ## Returns, atomics and stalled words, to their end (R156, R303, R304, R432) -/

/-- Where a wave stands after a return with registers `arch` to the resume word `w` under `m`, a replay (`r` = 1) under `rmask & m`: every
byte reads as before. -/
def returned (s : State) (hub : Hub) (arch : Arch) (m w rmask : DWord) (r : BitVec 1) (t : State) : Prop :=
  let at_ := ({ s with hub := hub, wave := { s.wave with arch := arch } } : State).resumeAt w (r == 0)
  t.hub = hub ∧ t.wave.status = .ready ∧ t.wave.hints = [] ∧ t.wave.pos = at_.1 ∧ t.wave.fellX = at_.2 ∧
  t.wave.readySince = s.now + 12 ∧
  t.wave.arch = { arch with exm := (if r = 1 then rmask &&& m else m) &&& s.wave.lanes } ∧
  t.wave.replay = (if r = 1 then some (m &&& s.wave.lanes) else none) ∧ ∀ p, t.byte p = s.byte p

/-- The entry that RETT pops, or the one below it, can be read now: its mask and its word (R235). -/
def popped (s : State) (n : Nat) (m w : DWord) : Prop :=
  16 * n ≤ s.wave.arch.rvsp.toNat % 2 ^ 60 ∧ s.entryBlocked (s.wave.arch.rvsp - BitVec.ofNat 64 (16 * n)) = false ∧
  s.entryAt (s.wave.arch.rvsp - BitVec.ofNat 64 (16 * n)) = .ok (m, w)

/-- The registers with `n` entries popped. -/
def poppedArch (s : State) (n : Nat) : Arch := (s.wave.setRvsp (s.wave.arch.rvsp - BitVec.ofNat 64 (16 * n))).arch

/-- A held atomic is due on its core and nothing keeps it: it is the first of the queue, its time has come, its bytes are at hand, and it is
performed by this package. -/
def atomicDue (u : State) (core : Nat) (h : Held) (p : Place) : Prop :=
  (u.coreAt core).held.head? = some h ∧ h.at_ + 64 ≤ u.coreTime core ∧ (∀ x, (u.coreAt core).struck = some x → h.at_ < x) ∧
  u.heldUp h.kind = false ∧ u.goesHome h = none ∧ u.placeGone p = false

/-- What the release of a held atomic does in every state in which it is due: one step that reads the old value and writes the new one at
its bytes, no other byte changing, and writes the old value among the elements of the instruction `ll` of its wave, which awaits one step
fewer. -/
def performed (core : Nat) (h : Held) (p : Place) (a : AtomicOp) (ll : Nat) (dst : List RegWrite) : Prop :=
  ∀ (u : State) (w : Wave) (l : LongOp), atomicDue u core h p → u.waveAt ⟨core, h.slot⟩ = some w → w.ll.find? (·.id == ll) = some l →
    let ps := Machine.atomicPlaces p a
    let old := BitVec.ofNat 64 (numOf (ps.map u.released))
    ∃ v x, exec (.quarantineRelease core) u = .next v ∧ v.waveAt ⟨core, h.slot⟩ = some x ∧
      x.ll.find? (·.id == ll) = some { l with left := l.left - 1, writes := l.writes ++ fillOld dst old } ∧
      ∀ q, v.released q = match a.newValue old with
        | some y => overlaid (ps.zip (bytesOf a.size y.toNat)) u.released q
        | none => u.released q

/-- The wait of a stalled word is over (R321, R322, R391 to R393, R402, R403). -/
def waitOver (u : State) : Instr → Prop
  | .waitc c n => u.clears { terminal := true, lookout := false } ∧ u.wave.counter c.toNat < n.toNat
  | .tagwany a => u.clears { terminal := true, ss := [a.toNat], lookout := false } ∧
      (u.wave.s a.toNat = 0 ∨ u.core.tagmap &&& u.wave.s a.toNat ≠ 0)
  | .tagwall a => u.clears { terminal := true, ss := [a.toNat], lookout := false } ∧
      u.core.tagmap &&& u.wave.s a.toNat = u.wave.s a.toNat
  | .fence m => u.clears { terminal := true, lookout := false } ∧ m ≠ 0 ∧ ¬wavesWriteHeld u
  | .fenceTc => u.clears { terminal := true, lookout := false } ∧ ¬wavesWriteHeld u ∧ ¬asyncOpen u
  | .bar b => u.clears { terminal := true, lookout := false } ∧ u.wave.env.ferry = false ∧
      ∃ r, u.wave.arrival = some { reachLevel := false, number := b.toNat, released := r, complete := true }
  | .rbar b => u.clears { terminal := true, lookout := false } ∧ u.wave.env.ferry = false ∧
      ∃ r, u.wave.arrival = some { reachLevel := true, number := b.toNat, released := r, complete := true }
  | _ => False

end Sys2Proof.Claims

section

open Sys2Proof Sys2Proof.Machine Sys2Proof.Claims

/-- The scalar integer instructions (R184, R189 to R193): every two-source one of 0x09 and 0x0B completes with its result in sd, whatever
`exm` holds, the one-source and immediate ones likewise, SSEL and SBFI with their HSRC register, the bit-field instructions bit by bit;
nothing else changes. -/
def Obligations.ScalarResults : Prop :=
  (∀ (i : Instr) (s : State) (d a b : BitVec 7) (m : Bool) (f : DWord → DWord → DWord),
    scalarRow s.wave.group i = some (d, a, b, m, f) →
    s.clears { ss := [d.toNat, a.toNat, b.toNat], sat := m } →
    ∃ t, exec i s = .next t ∧ t.wave.s d.toNat = f (s.wave.s a.toNat) (s.wave.s b.toNat) ∧ s.ran t [d.toNat] [] [] false) ∧
  (∀ (i : Instr) (s : State) (d a : BitVec 7) (f : DWord → DWord),
    scalarUnaryRow i = some (d, a, f) → s.clears { ss := [d.toNat, a.toNat] } →
    ∃ t, exec i s = .next t ∧ t.wave.s d.toNat = f (s.wave.s a.toNat) ∧ s.ran t [d.toNat] [] [] false) ∧
  (∀ (i : Instr) (s : State) (d a : BitVec 7) (n : BitVec 9) (f : DWord → DWord → DWord),
    scalarImmRow i = some (d, a, n, f) → s.clears { ss := [d.toNat, a.toNat], himm := true } →
    ∃ t, exec i s = .next t ∧ t.wave.s d.toNat = f (s.wave.s a.toNat) (immediate s.wave.group 9 n.toNat) ∧
      s.ran t [d.toNat] [] [] false) ∧
  (∀ (s : State) (d i : BitVec 7) (j : BitVec 9), s.clears { ss := [d.toNat], himm := true } →
    ∃ t, exec (.smovi d i j) s = .next t ∧ t.wave.s d.toNat = immediate s.wave.group 16 (i ++ j).toNat ∧
      s.ran t [d.toNat] [] [] false) ∧
  (∀ (s : State) (d a b : BitVec 7) (c : Nat), s.wave.group.extra = [c] →
    s.clears { ss := [d.toNat, a.toNat, b.toNat], counts := [1], extra := .scalar } →
    ∃ t, exec (.ssel d a b) s = .next t ∧
      t.wave.s d.toNat = (if s.wave.s c = 0 then s.wave.s b.toNat else s.wave.s a.toNat) ∧ s.ran t [d.toNat] [] [] false) ∧
  (∀ (s : State) (d a b : BitVec 7), s.clears { ss := [d.toNat, a.toNat, b.toNat] } →
    (∃ t, exec (.sbfx d a b) s = .next t ∧ s.ran t [d.toNat] [] [] false ∧
      ∀ k, k < 64 → (t.wave.s d.toNat).getLsbD k =
        let (p, hi) := bitField (s.wave.s b.toNat)
        (s.wave.s a.toNat).getLsbD (if k ≤ hi - p then p + k else hi)) ∧
    (∃ t, exec (.sbfxu d a b) s = .next t ∧ s.ran t [d.toNat] [] [] false ∧
      ∀ k, k < 64 → (t.wave.s d.toNat).getLsbD k =
        let (p, hi) := bitField (s.wave.s b.toNat)
        (decide (k ≤ hi - p) && (s.wave.s a.toNat).getLsbD (p + k)))) ∧
  (∀ (s : State) (d a b : BitVec 7), s.clears { ss := [d.toNat, a.toNat, b.toNat], counts := [0, 1], extra := .scalar } →
    ∃ t, exec (.sbfi d a b) s = .next t ∧ s.ran t [d.toNat] [] [] false ∧
      ∀ k, k < 64 → (t.wave.s d.toNat).getLsbD k =
        let (p, hi) := bitField (s.wave.s b.toNat)
        if p ≤ k ∧ k ≤ hi then (s.wave.s a.toNat).getLsbD (k - p)
        else (s.wave.s (s.wave.group.extra.headD d.toNat)).getLsbD k)

/-- The two-source vector integer instructions on 32-bit lanes complete with their results in the active lanes of vd, the other
operand a vector register or the low word of a scalar (R194, R196, R199). -/
def Obligations.VectorLaneResults : Prop :=
  (∀ (i : Instr) (s : State) (d a b : BitVec 7) (m : Bool) (f : Word → Word → Word → Word),
    vecRow i = some (d, a, b) → laneOp s.wave.group i = some (m, f) →
    s.clears { vs := [d.toNat, a.toNat, b.toNat], sat := m } →
    ∃ t, exec i s = .next t ∧
      lanesAre s.wave t.wave d.toNat (fun l => f (s.wave.v a.toNat l) (s.wave.v b.toNat l) (s.wave.v d.toNat l)) ∧
      s.ran t [] [d.toNat] [] false) ∧
  (∀ (i : Instr) (s : State) (d a b : BitVec 7) (m : Bool) (f : Word → Word → Word → Word),
    vecScalarRow i = some (d, a, b) → laneOp s.wave.group i = some (m, f) →
    s.clears { vs := [d.toNat, a.toNat], ss := [b.toNat], sat := m } →
    ∃ t, exec i s = .next t ∧
      lanesAre s.wave t.wave d.toNat
        (fun l => f (s.wave.v a.toNat l) ((s.wave.s b.toNat).extractLsb' 0 32) (s.wave.v d.toNat l)) ∧
      s.ran t [] [d.toNat] [] false)

/-- The one-source and immediate vector integer instructions, VMAD with its addend from the HSRC register or vd, and VSEL with
its HSRC predicate, complete with their results in the active lanes (R189, R194, R195, R197). -/
def Obligations.VectorOtherLaneResults : Prop :=
  (∀ (i : Instr) (s : State) (d a : BitVec 7) (f : Word → Word),
    vecUnaryRow i = some (d, a, f) → s.clears { vs := [d.toNat, a.toNat] } →
    ∃ t, exec i s = .next t ∧ lanesAre s.wave t.wave d.toNat (fun l => f (s.wave.v a.toNat l)) ∧ s.ran t [] [d.toNat] [] false) ∧
  (∀ (i : Instr) (s : State) (d a : BitVec 7) (n : BitVec 9) (f : Word → Word → Word),
    vecImmRow i = some (d, a, n, f) → s.clears { vs := [d.toNat, a.toNat], himm := true } →
    ∃ t, exec i s = .next t ∧
      lanesAre s.wave t.wave d.toNat (fun l => f (s.wave.v a.toNat l) ((immediate s.wave.group 9 n.toNat).extractLsb' 0 32)) ∧
      s.ran t [] [d.toNat] [] false) ∧
  (∀ (s : State) (d i : BitVec 7) (j : BitVec 9), s.clears { vs := [d.toNat], himm := true } →
    ∃ t, exec (.vmovi d i j) s = .next t ∧
      lanesAre s.wave t.wave d.toNat (fun _ => (immediate s.wave.group 16 (i ++ j).toNat).extractLsb' 0 32) ∧
      s.ran t [] [d.toNat] [] false) ∧
  (∀ (s : State) (d a b : BitVec 7), s.clears { vs := [d.toNat, a.toNat, b.toNat], counts := [0, 1], extra := .vector } →
    ∃ t, exec (.vmadI32 d a b) s = .next t ∧
      lanesAre s.wave t.wave d.toNat (fun l =>
        s.wave.v a.toNat l * s.wave.v b.toNat l + s.wave.v (s.wave.group.extra.headD d.toNat) l) ∧
      s.ran t [] [d.toNat] [] false) ∧
  (∀ (s : State) (d a b : BitVec 7) (p : Nat), s.wave.group.extra = [p] →
    s.clears { vs := [d.toNat, a.toNat, b.toNat], counts := [1], extra := .predicate } →
    ∃ t, exec (.vselB32 d a b) s = .next t ∧
      lanesAre s.wave t.wave d.toNat (fun l =>
        if (s.wave.pred p).getLsbD l then s.wave.v a.toNat l else s.wave.v b.toNat l) ∧
      s.ran t [] [d.toNat] [] false)

/-- The instructions on register pairs, the widening products and VADDS.I64 complete with their 64-bit results in the pair of
vd, in the active lanes (R185, R198, R199). -/
def Obligations.VectorPairResults : Prop :=
  (∀ (i : Instr) (s : State) (d a b : BitVec 7) (m : Bool) (f : DWord → DWord → DWord),
    pairRow s.wave.group i = some (d, a, b, m, f) →
    s.clears { vs := [d.toNat + 1, a.toNat + 1, b.toNat + 1], sat := m } →
    ∃ t, exec i s = .next t ∧ pairsAre s.wave t.wave d.toNat (fun l => f (s.wave.pair a.toNat l) (s.wave.pair b.toNat l)) ∧
      s.ran t [] [d.toNat, d.toNat + 1] [] false) ∧
  (∀ (s : State) (d a b : BitVec 7), s.clears { vs := [d.toNat + 1, a.toNat, b.toNat] } →
    (∃ t, exec (.vmulwI32 d a b) s = .next t ∧
      pairsAre s.wave t.wave d.toNat (fun l => (s.wave.v a.toNat l).signExtend 64 * (s.wave.v b.toNat l).signExtend 64) ∧
      s.ran t [] [d.toNat, d.toNat + 1] [] false) ∧
    (∃ t, exec (.vmulwN32 d a b) s = .next t ∧
      pairsAre s.wave t.wave d.toNat (fun l => (s.wave.v a.toNat l).setWidth 64 * (s.wave.v b.toNat l).setWidth 64) ∧
      s.ran t [] [d.toNat, d.toNat + 1] [] false)) ∧
  (∀ (s : State) (d a b : BitVec 7), s.clears { vs := [d.toNat + 1, a.toNat + 1], ss := [b.toNat] } →
    ∃ t, exec (.vaddsI64 d a b) s = .next t ∧
      pairsAre s.wave t.wave d.toNat (fun l => s.wave.pair a.toNat l + s.wave.s b.toNat) ∧
      s.ran t [] [d.toNat, d.toNat + 1] [] false)

/-- Rounding follows IEEE 754-2019 in each mode (R78): a magnitude m × 2^e counted in units of 2^(e + k) is exact when the discarded
part is zero, else one of the two neighbours; RNE takes the nearer, and the even one at a tie; RTZ the smaller; RUP and RDN the one
in their direction. -/
def Obligations.RoundingFollowsItsMode : Prop :=
  ∀ (rm : Rm) (neg : Bool) (m k : Nat) (e : Int), 0 < k →
    let r := roundUnits rm neg m e (e + k)
    (r.2 = false ↔ m % 2 ^ k = 0) ∧ (r.2 = false → r.1 * 2 ^ k = m) ∧
    (rm = .rne → 2 * (r.1 * 2 ^ k) ≤ 2 * m + 2 ^ k ∧ 2 * m ≤ 2 * (r.1 * 2 ^ k) + 2 ^ k ∧
      (2 * (m % 2 ^ k) = 2 ^ k → r.1 % 2 = 0)) ∧
    (rm = .rtz ∨ (rm = .rup ∧ neg = true) ∨ (rm = .rdn ∧ neg = false) → r.1 * 2 ^ k ≤ m ∧ m < (r.1 + 1) * 2 ^ k) ∧
    ((rm = .rup ∧ neg = false) ∨ (rm = .rdn ∧ neg = true) → m ≤ r.1 * 2 ^ k ∧ r.1 * 2 ^ k < m + 2 ^ k)

/-- The floating-point instructions that may trap in some lanes (R83, R200 to R206, R209, R212, R213, R218): without an enabled flag
every active lane is written and its flags enter FLAGS; otherwise the other lanes complete and the trapping lanes keep their
destination, do not enter FLAGS, and form one trap. -/
def Obligations.FloatingPointLanes : Prop :=
  ∀ (i : Instr) (s : State) (f : Form) (d : BitVec 7) (res : Nat → LaneRes),
    fpRow s.wave s.wave.group i = some (f, d, res) → s.clears f →
    fpOutcome i s [d.toNat] [] (fun l => (res l).flags) (putLanes d.toNat fun l => (res l).out)

/-- The correctly rounded functions of 0x14 (R188, R207): with every trap enable zero, each issues as a long-latency instruction that
will write the active lanes of vd and raise their flags, and no register changes yet; with an enable set it completes or traps
before the next word. -/
def Obligations.FloatingPointFunctions : Prop :=
  ∀ (i : Instr) (s : State) (d : BitVec 7) (srcs : List Nat) (res : Nat → LaneRes),
    fpFunctionRow s.wave s.wave.group i = some (d, srcs, res) → s.clears (.fp (d.toNat :: srcs) []) →
    (fpcTrapEn s.wave.arch.fpc = 0 →
      ∃ t ws, exec i s = .next t ∧ (s.inProgress 0 ws).ran t [] [] [] false ∧
        (∀ l x, RegWrite.vec d.toNat l x ∈ ws ↔ l ∈ s.wave.active ∧ x = (res l).out) ∧
        (∀ r l x, RegWrite.vec r l x ∈ ws → r = d.toNat) ∧ (∀ r x, RegWrite.scal r x ∉ ws) ∧
        (∀ x, RegWrite.flags x ∈ ws ↔ s.wave.active ≠ [] ∧ x = raisedBy (fun l => (res l).flags) s.wave.active)) ∧
    (fpcTrapEn s.wave.arch.fpc ≠ 0 →
      fpOutcome i s [d.toNat] [] (fun l => (res l).flags) (putLanes d.toNat fun l => (res l).out))

/-- The rows that copy bits complete in every active lane, whatever `fpc` holds (R65, R201, R203, R204). -/
def Obligations.FloatingPointBitCopies : Prop :=
  ∀ (i : Instr) (s : State) (d a b : BitVec 7) (f : Word → Word → Word),
    fpBitsRow i = some (d, a, b, f) → s.clears (.fp [d.toNat, a.toNat, b.toNat] []) →
    ∃ t, exec i s = .next t ∧ lanesAre s.wave t.wave d.toNat (fun l => f (s.wave.v a.toNat l) (s.wave.v b.toNat l)) ∧
      s.ran t [] [d.toNat] [] false

/-- The wide form of VCVT (R210, R211): a 64-bit destination writes its pair, a 16-bit one replaces its half of the lane and keeps the
other half, a 32-bit one the lane; lanes trap as in R83. -/
def Obligations.WideConversions : Prop :=
  ∀ (s : State) (d a : BitVec 7) (t : BitVec 3) (h g : BitVec 1) (src : BitVec 3),
    s.clears (.fp [d.toNat + (if 5 ≤ t.toNat then 1 else 0), a.toNat + (if 5 ≤ src.toNat then 1 else 0)] []) →
    let r := wideResult s.wave s.wave.group a t src h
    (5 ≤ t.toNat → fpOutcome (.vcvtWide d a t h g src) s [d.toNat, d.toNat + 1] [] (fun l => (r l).2)
      (putPairs d.toNat fun l => BitVec.ofNat 64 (r l).1)) ∧
    (t = 1 ∨ t = 2 → fpOutcome (.vcvtWide d a t h g src) s [d.toNat] [] (fun l => (r l).2)
      (putLanes d.toNat fun l =>
        if g = 0 then BitVec.ofNat 32 ((s.wave.v d.toNat l).toNat / 2 ^ 16 * 2 ^ 16 + (r l).1)
        else BitVec.ofNat 32 ((s.wave.v d.toNat l).toNat % 2 ^ 16 + (r l).1 * 2 ^ 16))) ∧
    (t = 0 ∨ t = 3 ∨ t = 4 → fpOutcome (.vcvtWide d a t h g src) s [d.toNat] [] (fun l => (r l).2)
      (putLanes d.toNat fun l => BitVec.ofNat 32 (r l).1))

/-- The compares write one predicate bit per completed active lane and keep the others (R214); the predicate operations likewise,
and raise nothing (R215). -/
def Obligations.ComparesAndPredicates : Prop :=
  (∀ (i : Instr) (s : State) (d a b : BitVec 7) (f : Word → Word → Bool × FpFlags),
    compareRow s.wave i = some (d, a, b, f) → s.clears { vs := [a.toNat, b.toNat] } →
    fpOutcome i s [] [d.toNat] (fun l => (f (s.wave.v a.toNat l) (s.wave.v b.toNat l)).2)
      (putPred d.toNat fun l => (f (s.wave.v a.toNat l) (s.wave.v b.toNat l)).1)) ∧
  (∀ (i : Instr) (s : State) (d a b : BitVec 7) (f : Bool → Bool → Bool),
    predicateRow i = some (d, a, b, f) → s.clears {} →
    ∃ t, exec i s = .next t ∧
      putPred d.toNat (fun l => f (bitOf (s.wave.pred a.toNat) l) (bitOf (s.wave.pred b.toNat) l)) s.wave t.wave (· ∈ s.wave.active) ∧
      s.ran t [] [] [d.toNat] false)

/-- VSHFL, VPRM.XOR, VPRM.ROT and VBCST write the chosen source lane into each active lane, whatever `exm` holds for the source lane
(R216); VSCAN.I32 and VSCANX.I32 the sum modulo 2^32 over the active lanes of the prefix (R218); VMATCH the mask of the active lanes
with the same value (R219). -/
def Obligations.CrossLaneResults : Prop :=
  (∀ (i : Instr) (s : State) (d a : BitVec 7) (vs ss : List Nat) (src : Nat → Nat),
    shuffleRow s.wave i = some (d, a, vs, ss, src) → s.clears { vs := d.toNat :: a.toNat :: vs, ss := ss } →
    ∃ t, exec i s = .next t ∧ lanesAre s.wave t.wave d.toNat (fun l => s.wave.v a.toNat (src l)) ∧ s.ran t [] [d.toNat] [] false) ∧
  (∀ (s : State) (d a : BitVec 7), s.clears { vs := [d.toNat, a.toNat] } →
    (∃ t, exec (.vscanI32 d a) s = .next t ∧ s.ran t [] [d.toNat] [] false ∧
      lanesAre s.wave t.wave d.toNat fun l =>
        ((s.wave.active.filter (· ≤ l)).map fun m => s.wave.v a.toNat m).foldl (· + ·) 0) ∧
    (∃ t, exec (.vscanxI32 d a) s = .next t ∧ s.ran t [] [d.toNat] [] false ∧
      lanesAre s.wave t.wave d.toNat fun l =>
        ((s.wave.active.filter (· < l)).map fun m => s.wave.v a.toNat m).foldl (· + ·) 0)) ∧
  (∀ (s : State) (d a : BitVec 7), s.clears { vs := [d.toNat + 1, a.toNat] } →
    ∃ t, exec (.vmatch d a) s = .next t ∧ s.ran t [] [d.toNat, d.toNat + 1] [] false ∧
      ∀ l, l < 64 → if l ∈ s.wave.active then
          ∀ m, (t.wave.pair d.toNat l).getLsbD m = decide (m ∈ s.wave.active ∧ s.wave.v a.toNat m = s.wave.v a.toNat l)
        else t.wave.pair d.toNat l = s.wave.pair d.toNat l)

/-- The VRED family writes its reduction of the active lanes to sd, whatever `exm` holds (R93, R217): the floating-point forms take
the root of the tree over the 64 lane positions with the union of its flags, and trap as a whole, sd kept, when an enabled flag is
raised. -/
def Obligations.Reductions : Prop :=
  (∀ (i : Instr) (s : State) (d a : BitVec 7) (P : List Word → DWord → Prop),
    intReduceRow i = some (d, a, P) → s.clears { vs := [a.toNat], ss := [d.toNat] } →
    ∃ t, exec i s = .next t ∧ P (s.wave.active.map fun l => s.wave.v a.toNat l) (t.wave.s d.toNat) ∧ s.ran t [d.toNat] [] [] false) ∧
  (∀ (i : Instr) (s : State) (d a : BitVec 7) (m : Bool) (g : ElemOp) (z : Word),
    fpReduceRow i = some (d, a, m, g, z) → s.clears { vs := [a.toNat], ss := [d.toNat], rm := m, sat := m } →
    let env := s.wave.fpEnv s.wave.group
    let r := treeNode (s.wave.leaf a.toNat env.ftz) (fun x y => lane32 env g [x, y]) 6 0
    (r.2 &&& fpcTrapEn s.wave.arch.fpc = 0 →
      ∃ t, exec i s = .next t ∧ t.wave.s d.toNat = (r.1.getD z).setWidth 64 ∧
        t.wave.arch.fpc = s.wave.arch.fpc ||| r.2.setWidth 64 ∧ s.ran t [d.toNat] [] [] true) ∧
    (r.2 &&& fpcTrapEn s.wave.arch.fpc ≠ 0 →
      exec i s = .next (s.takeTrap (s.wave.wholeTrap (0x20 ||| (r.2.setWidth 32 <<< 8)) none))))

/-- The special reads and the moves of 0x19 (R127, R220 to R222). FPCRD and FPCWR hold while an earlier instruction that can raise
flags has not completed. -/
def Obligations.SpecialReadsAndMoves : Prop :=
  (∀ (s : State) (d : BitVec 7), s.clears { vs := [d.toNat] } →
    ∃ t, exec (.srd d 0) s = .next t ∧ lanesAre s.wave t.wave d.toNat (fun l => BitVec.ofNat 32 l) ∧ s.ran t [] [d.toNat] [] false) ∧
  (∀ (s : State) (d n : BitVec 7), s.clears { ss := [d.toNat] } → n ≠ 0 → n.toNat ≤ 7 →
    ∃ t, exec (.srd d n) s = .next t ∧ s.ran t [d.toNat] [] [] false ∧
      let e := s.wave.env
      let x : Nat := t.wave.s d.toNat |>.toNat
      (n = 1 → x = e.waveid % 2 ^ 64) ∧ (n = 2 → x = e.team % 2 ^ 64) ∧ (n = 3 → x = s.wave.core % 2 ^ 64) ∧
      (n = 4 → x = e.wavew % 2 ^ 64) ∧
      (n = 5 → x = e.team % e.gx % 2 ^ 64) ∧ (n = 6 → x = e.team / e.gx % e.gy % 2 ^ 64) ∧
      (n = 7 → x = e.team / e.gx / e.gy % 2 ^ 64)) ∧
  (∀ (s : State) (d : BitVec 7), s.clears { ss := [d.toNat] } →
    (s.wave.flagsPending = false →
      ∃ t, exec (.fpcrd d) s = .next t ∧ t.wave.s d.toNat = s.wave.arch.fpc ∧ s.ran t [d.toNat] [] [] false) ∧
    (s.wave.flagsPending = true → exec (.fpcrd d) s = .next { s with wave := { s.wave with issued := true } }) ∧
    (∀ p : BitVec 7, ∃ t, exec (.p2s d p) s = .next t ∧ t.wave.s d.toNat = s.wave.pred p.toNat ∧ s.ran t [d.toNat] [] [] false)) ∧
  (∀ (s : State) (a : BitVec 7), s.clears { ss := [a.toNat] } →
    (s.wave.flagsPending = false →
      ∃ t, exec (.fpcwr a) s = .next t ∧ t.wave.arch.fpc = ((s.wave.s a.toNat).extractLsb' 0 15).setWidth 64 ∧ s.ran t [] [] [] true) ∧
    (s.wave.flagsPending = true → exec (.fpcwr a) s = .next { s with wave := { s.wave with issued := true } }) ∧
    (∀ p : BitVec 7, ∃ t, exec (.s2p p a) s = .next t ∧ t.wave.pred p.toNat = s.wave.s a.toNat &&& s.wave.lanes ∧
      s.ran t [] [] [p.toNat] false)) ∧
  (∀ (s : State) (d a : BitVec 7), s.clears { vs := [d.toNat], ss := [a.toNat] } →
    ∃ t, exec (.vmovs d a) s = .next t ∧ lanesAre s.wave t.wave d.toNat (fun _ => (s.wave.s a.toNat).extractLsb' 0 32) ∧
      s.ran t [] [d.toNat] [] false) ∧
  (∀ (s : State) (d a b : BitVec 7), s.clears { vs := [a.toNat], ss := [d.toNat, b.toNat] } →
    ∃ t, exec (.smovv d a b) s = .next t ∧ s.ran t [d.toNat] [] [] false ∧
      t.wave.s d.toNat = (s.wave.v a.toNat ((s.wave.s b.toNat &&& 63).toNat % s.wave.env.wavew)).setWidth 64) ∧
  (∀ (s : State) (d a b : BitVec 7), s.clears { vs := [d.toNat], ss := [a.toNat, b.toNat] } →
    ∃ t, exec (.vins d a b) s = .next t ∧ s.ran t [] [d.toNat] [] false ∧
      ∀ l, l < 64 → t.wave.v d.toNat l =
        if l ∈ s.wave.active ∧ l = (s.wave.s b.toNat &&& 63).toNat % s.wave.env.wavew then (s.wave.s a.toNat).extractLsb' 0 32
        else s.wave.v d.toNat l)

/-- An instruction group that breaks R156, R160, R161, R164 or R421 traps the whole wave before it has any effect: with an illegal-
instruction cause, or a privileged-instruction cause when only the mode is too low; a matrix instruction first needs the full mask
(R243). A lookout that meets an instruction that it may not execute ends and leaves nothing behind (R145). -/
def Obligations.IllegalGroupsTrapFirst : Prop :=
  (∀ (i : Instr) (s : State) (f : Form), groupForm i = some f →
    (f.refuses s.wave = some 0x01 ∨ f.refuses s.wave = some 0x04 ∨ f.refuses s.wave = none) ∧
    (∀ c, f.refuses s.wave = some c → exec i s = .next (s.takeTrap (s.wave.wholeTrap (BitVec.ofNat 32 c) none))) ∧
    (f.refuses s.wave = none → s.wave.lookoutOf.isSome = true → f.lookout = false →
      exec i s = .next { s with wave := s.wave.endLookout })) ∧
  (∀ (i : Instr) (s : State) (f : Form), matrixForm i = some f →
    (s.wave.exm ≠ s.wave.lanes → exec i s = .next (s.takeTrap (s.wave.wholeTrap 0x03 none))) ∧
    (s.wave.exm = s.wave.lanes → ∀ c, f.refuses s.wave = some c →
      exec i s = .next (s.takeTrap (s.wave.wholeTrap (BitVec.ofNat 32 c) none))) ∧
    (s.wave.exm = s.wave.lanes → f.refuses s.wave = none → s.wave.lookoutOf.isSome = true →
      exec i s = .next { s with wave := s.wave.endLookout }))

/-- A hint word joins the group of the next non-hint word of its clause and has no other effect (R164); as the last word of a clause it
traps. -/
def Obligations.HintWordsJoinTheGroup : Prop :=
  ∀ (i : Instr) (s : State) (x : Word), hintWord i = some x →
    (s.wave.lastWord = false → exec i s = .next { s with wave := { s.wave with
      hints := s.wave.hints ++ [x], pos := { s.wave.pos with ridx := s.wave.pos.ridx + 1 }, status := .inClause } }) ∧
    (s.wave.lastWord = true → exec i s = .next (s.takeTrap (s.wave.wholeTrap 0x01 none)))

/-- Transfers (R226 to R229): not taken, a transfer goes on to the fall-through clause; taken with a target that passes its checks, it
goes to the target and changes no register but CALL's s127, the return point.
A taken transfer whose target fails R227 traps the whole wave with the cause of the first failing row and the target as the
address, and changes no register (R226, R227); in hypervisor mode a target outside the monitor's region stops the wave as a trap does
there (R421, R447); a lookout that leaves its section ends (R145). -/
def Obligations.Transfers : Prop :=
  ((∀ (i : Instr) (s : State) (f : Form) (taken : Prop) (ind : Bool) (t : DWord),
    transferRow s.wave i = some (taken, ind, t) → groupForm i = some f → s.clears f →
    (¬taken → ∃ u, exec i s = .next u ∧ s.ran u [] [] [] false) ∧
    (taken → reachable s ind t →
      ∃ u, exec i s = .next u ∧ s.kept u [] [] [] false ∧ u.wave.arch.exm = s.wave.maskAfter ∧ u.wave.wentTo t)) ∧
  (∀ (s : State) (o : BitVec 21), s.clears { live := true, terminal := true, ss := [127] } → reachable s false (fromWord s.wave o) →
    ∃ u, exec (.call o) s = .next u ∧ s.kept u [127] [] [] false ∧ u.wave.arch.exm = s.wave.maskAfter ∧
      u.wave.s 127 = s.wave.pos.pc + BitVec.ofNat 64 (4 * (hdrLen s.wave.pos.header + 2)) ∧ u.wave.wentTo (fromWord s.wave o))) ∧
  (∀ (i : Instr) (s : State) (f : Form) (taken : Prop) (ind : Bool) (t : DWord),
    transferRow s.wave i = some (taken, ind, t) → groupForm i = some f → s.clears f → taken →
    (s.wave.lookoutOf = none → s.wave.arch.mode ≠ .hypervisor →
      ∀ (k : Nat) (r : Prop × Nat), (targetRows s ind t)[k]? = some r → r.1 → (∀ (j : Nat) (q : Prop × Nat), j < k → (targetRows s ind t)[j]? = some q → ¬q.1) →
        exec i s = .next (s.takeTrap (s.wave.wholeTrap (BitVec.ofNat 32 r.2) (some t)))) ∧
    (s.wave.lookoutOf = none → s.wave.arch.mode = .hypervisor → ¬reachable s ind t →
      exec i s = .next (s.takeTrap (s.wave.wholeTrap 0x10 (some t)))) ∧
    (s.wave.lookoutOf.isSome = true → ¬reachable s ind t → exec i s = .next { s with wave := s.wave.endLookout }))

/-- MSPLIT, MELSE, MJOIN, EXMRD and EXMWR (R231): the new `exm` governs the next word, unless the group is replayed, when the mask that
the replay restores does (R432).
NOP does nothing but issue; YIELD makes the wave the youngest on its core at its clause's end; EXIT ends the wave: it issues
nothing further and its exit is held by the quarantine (R240, R241, R455). -/
def Obligations.MasksNopYieldExit : Prop :=
  (∀ (i : Instr) (s : State) (f : Form) (ds : List Nat) (m : DWord), maskRow s.wave i = some (f, ds, m) → s.clears f →
    ∃ t, exec i s = .next t ∧ s.kept t ds [] [] false ∧ s.wave.wentOn t.wave ∧ (∀ d ∈ ds, t.wave.s d = s.wave.exm) ∧
      t.wave.exm = match s.wave.replay with
        | some r => r &&& s.wave.lanes
        | none => m) ∧
  ((∀ s : State, s.clears {} → ∃ t, exec .nop s = .next t ∧ s.ran t [] [] [] false) ∧
  (∀ s : State, s.clears { terminal := true } →
    ∃ t, exec .yield s = .next t ∧ s.ran { t with wave := { t.wave with yielded := s.wave.yielded } } [] [] [] false ∧
      t.core.nextAge = (if s.core.ageAt = s.now then s.core.nextAge else s.core.nextAge + 1) ∧ t.core.ageAt = s.now ∧
      t.wave.age = t.core.nextAge * 8192 + 6144 + s.wave.issueSlot) ∧
  (∀ s : State, s.clears { terminal := true, lookout := false } →
    ∃ t, exec .exit s = .next t ∧ t.wave = { s.calm.wave with status := .exiting, hints := [], issued := false } ∧
      t.core.held = s.core.held ++ [{ slot := s.wave.slot, at_ := s.now, kind := .exit }] ∧
      { t with wave := s.wave, core := { t.core with held := s.core.held } } = s))

/-- MPUSH (R233, R237): with room, sa and sb go to the sixteen bytes at `rvsp` and `rvsp` rises by 16, every other byte reading as
before; a resume word of kind 11 is an illegal instruction; a place that cannot be written traps with the cause of its check, nothing
done.
MPOP (R236, R237): with an entry that may be popped, sd takes the mask, the next scalar the resume word, and `rvsp` falls by 16; an
empty stack is a translation trap; kind 11 is illegal, kind 10 privileged below hypervisor mode. -/
def Obligations.ReconvergenceStack : Prop :=
  (∀ (s : State) (a b : BitVec 7), s.clears { ss := [a.toNat, b.toNat], lookout := false } →
    ((s.wave.s b.toNat).toNat % 4 = 3 → exec (.mpush a b) s = .next (s.takeTrap (s.wave.wholeTrap 0x01 none))) ∧
    ((s.wave.s b.toNat).toNat % 4 ≠ 3 →
      (∀ ps, s.reach .write 0 s.wave.arch.rvsp 16 = .ok ps →
        ∃ t, exec (.mpush a b) s = .next t ∧ s.onlyStores t ∧ s.calm.wave.sameElse t.wave ∧ s.wave.wentOn t.wave ∧
          t.wave.arch = { s.wave.arch with exm := s.wave.maskAfter, rvsp := (s.wave.setRvsp (s.wave.arch.rvsp + 16)).arch.rvsp } ∧
          ∀ p, t.byte p = overlaid (ps.zip (bytesOf 8 (s.wave.s a.toNat).toNat ++ bytesOf 8 (s.wave.s b.toNat).toNat)) s.byte p) ∧
      (∀ c, s.reach .write 0 s.wave.arch.rvsp 16 = .error c → c ≠ causePartition →
        exec (.mpush a b) s = .next (s.takeTrap (s.wave.wholeTrap (BitVec.ofNat 32 (c % 256 + 256)) (some s.wave.arch.rvsp)))))) ∧
  (∀ (s : State) (d : BitVec 7), s.clears { ss := [d.toNat, d.toNat + 1] } →
    (s.wave.arch.rvsp.toNat % 2 ^ 60 < 16 →
      exec (.mpop d) s = .next (s.takeTrap (s.wave.wholeTrap 0x10 (some s.wave.arch.rvsp)))) ∧
    (16 ≤ s.wave.arch.rvsp.toNat % 2 ^ 60 → s.entryBlocked (s.wave.arch.rvsp - 16) = false →
      ∀ m w, s.entryAt (s.wave.arch.rvsp - 16) = .ok (m, w) →
        (w.toNat % 4 = 3 → exec (.mpop d) s = .next (s.takeTrap (s.wave.wholeTrap 0x01 none))) ∧
        (w.toNat % 4 = 2 → s.wave.arch.mode ≠ .hypervisor → exec (.mpop d) s = .next (s.takeTrap (s.wave.wholeTrap 0x04 none))) ∧
        (w.toNat % 4 ≠ 3 → (w.toNat % 4 = 2 → s.wave.arch.mode = .hypervisor) →
          ∃ t, exec (.mpop d) s = .next t ∧ s.onlyWave t ∧ s.wave.sameElse t.wave ∧ s.wave.wentOn t.wave ∧
            t.wave.s d.toNat = m ∧ t.wave.s (d.toNat + 1) = w ∧
            (∀ r, r ≠ d.toNat → r ≠ d.toNat + 1 → t.wave.s r = s.wave.s r) ∧
            t.wave.arch = { s.wave.arch with exm := s.wave.maskAfter, sregs := t.wave.arch.sregs,
                                             rvsp := (s.wave.setRvsp (s.wave.arch.rvsp - 16)).arch.rvsp } ∧
            ∀ p, t.byte p = s.byte p)))

/-- SYSC, HVC and BKPT trap as R434, R435 and R441 say; SYSC with no active lane does nothing but end its region (R242, R434, R455). -/
def Obligations.SystemInstructionsTrap : Prop :=
  (∀ (i : Instr) (s : State) (f : Form) (t : Trap), systemTrapRow s.wave i = some (f, t) → s.clears f →
    ((∀ n, i ≠ .hvc n) → s.wave.arch.mode ≠ .hypervisor) → ((∃ n, i = .sysc n) → s.wave.active ≠ []) →
    exec i s = .next (s.takeTrap t)) ∧
  (∀ (s : State) (n : BitVec 21), s.clears { lookout := false } → s.wave.arch.mode = .hypervisor →
    exec (.sysc n) s = .next (s.takeTrap (s.wave.wholeTrap 0x01 none)) ∧
    exec (.bkpt n) s = .next (s.takeTrap (s.wave.wholeTrap 0x01 none))) ∧
  (∀ (s : State) (n : BitVec 21), s.clears { lookout := false } → s.wave.arch.mode ≠ .hypervisor → s.wave.active = [] →
    ∃ t, exec (.sysc n) s = .next t ∧ t.wave.entries.length = s.wave.entries.length + 1 ∧
      s.ran { t with wave := { t.wave with entries := s.wave.entries, entryDue := s.wave.entryDue } } [] [] [] false)

/-- Trap entry at supervisor level (R424, R427, R428, R433): the entry pushed at `rvsp`, in ferry mode an opaque one whose block holds the
mask and the resume word, the supervisor's registers written, the depth and the mode changed, `exm` the trapping lanes, and the wave at
the vector of the lowest cause.
Trap entry at the delegated level (R427, R428, R436, R437): the record and the entry pushed, the supervisor's registers written all the
same, the mode and the depth kept, `ddepth` 1, and the wave at `uhtv`. -/
def Obligations.SupervisorTrapEntry : Prop :=
  (∀ (s : State) (t : Trap) (ps : List Place), atRest s →
    s.wave.arch.mode ≠ .hypervisor → (s.wave.arch.mode = .user ∨ s.wave.arch.sdepth < 3) → t.hvc = none →
    (¬∃ xs ys, delegates s t xs ys) →
    s.wave.env.isHeader Section.isSupervisor (s.wave.arch.evec + BitVec.ofNat 64 (64 * t.vector)) = true →
    s.reach .write 0 s.wave.arch.rvsp 16 = .ok ps →
    let m := s.wave.replay.getD s.wave.exm
    let w := s.wave.resumePoint
    let n := s.wave.core * 32 + s.wave.slot
    let b := s.freeBlock n
    let e := if s.wave.env.ferry then BitVec.ofNat 64 (n * 2 ^ 10 + b * 4 + 2) else w
    let u := s.takeTrap t
    entryKeeps s.wave u.wave ∧ ({ s with hub := u.hub } : State).onlyStores u ∧
    u.hub = (if s.wave.env.ferry then { s.hub with blocks := s.hub.blocks ++
      [{ slotNo := n, home := n, block := b, m := m, w := w, emask := t.mask, ecause := [], eaddr := [], mode := s.wave.arch.mode,
         hyper := false }] } else s.hub) ∧
    u.wave.status = .ready ∧ u.wave.hints = [] ∧ u.wave.replay = none ∧ u.wave.pending = none ∧ u.wave.readySince = s.now + 12 ∧
    u.wave.pos = .at (s.wave.arch.evec + BitVec.ofNat 64 (64 * t.vector)) ∧
    u.wave.arch = { supervisorArch s.wave.arch t e s.wave.env.ferry s.wave.replay.isSome with
      rvsp := (s.wave.setRvsp (s.wave.arch.rvsp + 16)).arch.rvsp, sdepth := s.wave.arch.sdepth + 1, mode := .supervisor, exm := t.mask } ∧
    ∀ p, u.byte p = overlaid (ps.zip (bytesOf 8 m.toNat ++ bytesOf 8 e.toNat)) s.byte p) ∧
  (∀ (s : State) (t : Trap) (ps qs : List Place), atRest s → t.hvc = none → delegates s t ps qs →
    let m := s.wave.replay.getD s.wave.exm
    let w := s.wave.resumePoint
    let u := s.takeTrap t
    entryKeeps s.wave u.wave ∧ s.onlyStores u ∧
    u.wave.status = .ready ∧ u.wave.hints = [] ∧ u.wave.replay = none ∧ u.wave.pending = none ∧ u.wave.readySince = s.now + 12 ∧
    u.wave.pos = .at s.wave.arch.uhtv ∧
    u.wave.arch = { supervisorArch s.wave.arch t w false s.wave.replay.isSome with
      rvsp := (s.wave.setRvsp ((s.wave.setRvsp (s.wave.arch.rvsp + 16)).arch.rvsp + 16)).arch.rvsp, ddepth := true, exm := t.mask } ∧
    ∀ p, u.byte p = overlaid (ps.zip (bytesOf 8 t.mask.toNat ++ bytesOf 8 (recordWord t).toNat) ++
      qs.zip (bytesOf 8 m.toNat ++ bytesOf 8 w.toNat)) s.byte p)

/-- Trap entry at hypervisor level (R424, R427, R428, R433): for HVC, for a trap nested beyond depth 3, for a vector outside the
supervisor's section, and for a push that fails. An opaque block keeps what the wave was, `hstat` names the cause, `hepc` the block, and
the supervisor's registers are untouched. -/
def Obligations.HypervisorTrapEntry : Prop :=
  ∀ (s : State) (t : Trap), atRest s → s.wave.arch.mode ≠ .hypervisor → (¬∃ xs ys, delegates s t xs ys) →
    ∀ code esc, ((∃ n, t.hvc = some n) ∧ code = 0x40 ∧ esc = 0 ∨
        t.hvc = none ∧ s.wave.arch.mode = .supervisor ∧ 3 ≤ s.wave.arch.sdepth ∧ code = 0x41 ∧ esc = t.code ∨
        t.hvc = none ∧ (s.wave.arch.mode = .user ∨ s.wave.arch.sdepth < 3) ∧ code = 0x43 ∧ esc = 0 ∧
          s.wave.env.isHeader Section.isSupervisor (s.wave.arch.evec + BitVec.ofNat 64 (64 * t.vector)) = false ∨
        t.hvc = none ∧ (s.wave.arch.mode = .user ∨ s.wave.arch.sdepth < 3) ∧ code = 0x42 ∧ esc = t.code ∧
          s.wave.env.isHeader Section.isSupervisor (s.wave.arch.evec + BitVec.ofNat 64 (64 * t.vector)) = true ∧
          ∃ c, s.reach .write 0 s.wave.arch.rvsp 16 = .error c) →
    let b := s.freeBlock (s.wave.core * 32 + s.wave.slot)
    let h := BitVec.ofNat 64 ((s.wave.core * 32 + s.wave.slot) * 2 ^ 10 + b * 4 + 2)
    let u := s.takeTrap t
    entryKeeps s.wave u.wave ∧ ({ s with hub := u.hub, vis := u.vis } : State).onlyStores u ∧
    u.hub = { s.hub with blocks := s.hub.blocks ++
      [{ slotNo := s.wave.core * 32 + s.wave.slot, home := s.wave.core * 32 + s.wave.slot, block := b,
         m := s.wave.replay.getD s.wave.exm, w := s.wave.resumePoint, emask := t.mask, ecause := t.causes, eaddr := t.addrs,
         mode := s.wave.arch.mode, hyper := true }] } ∧
    (s.reach .write 0 s.wave.arch.rvsp 16 = .error 0x218 → u.vis = (s.freeze s.wave.env.vi 2).vis) ∧
    (s.reach .write 0 s.wave.arch.rvsp 16 ≠ .error 0x218 → u.vis = s.vis) ∧
    u.wave.pos = .at Config.monitorEntry ∧ u.wave.status = .ready ∧ u.wave.readySince = s.now + 12 ∧
    u.wave.arch = { s.wave.arch with
      hstat := BitVec.ofNat 64 (code + esc * 2 ^ 8 + s.wave.arch.mode.code * 2 ^ 16 + t.hvc.getD 0 * 2 ^ 18), hepc := h,
      mode := .hypervisor, exm := t.mask, rvsp := u.wave.arch.rvsp } ∧
    (∀ ps, s.reach .write 0 s.wave.arch.rvsp 16 = .ok ps →
      u.wave.arch.rvsp = (s.wave.setRvsp (s.wave.arch.rvsp + 16)).arch.rvsp ∧
      ∀ p, u.byte p = overlaid (ps.zip (bytesOf 8 (s.wave.replay.getD s.wave.exm).toNat ++ bytesOf 8 h.toNat)) s.byte p) ∧
    (∀ c, s.reach .write 0 s.wave.arch.rvsp 16 = .error c → u.wave.arch.rvsp = s.wave.arch.rvsp ∧ ∀ p, u.byte p = s.byte p)

/-- A cause met in hypervisor mode stops the wave and tells the partition monitor (R447); a trap met while a long-latency instruction
cannot complete is kept until it has (R428). -/
def Obligations.TrapsThatWaitOrStop : Prop :=
  (∀ (s : State) (t : Trap), atRest s → s.wave.arch.mode = .hypervisor →
    s.takeTrap t = ({ s with wave := { s.wave with status := .stopped, hints := [], pending := none } } : State).tell
      (.waveStopped ⟨s.wave.core, s.wave.slot⟩)) ∧
  (∀ (s : State) (t : Trap), s.wave.lookoutOf = none → s.wave.ll ≠ [] → (∀ o ∈ s.wave.ll, o.left ≠ 0) →
    s.takeTrap t = { s with wave := { s.wave with pending := some t } })

/-- RETT from supervisor mode (R432): the top entry is popped, the depth and the mode restored; without replay the wave goes on after the
group named with the entry's mask, with replay the group issues again for the lanes of `emask` alone and the mask returns after it. An
entry of another kind than a trap return is illegal.
RETT where it traps (R432): in user mode outside a delegated handler, on an empty stack, and from a handle that names no live block of
the wave's slot; and RETT from hypervisor mode, which restores the mode that the block holds and frees the block (R433). -/
def Obligations.TrapReturns : Prop :=
  (∀ (s : State) (r : BitVec 1), s.clears { terminal := true } → s.wave.arch.mode = .supervisor →
    16 ≤ s.wave.arch.rvsp.toNat % 2 ^ 60 → s.entryBlocked (s.wave.arch.rvsp - 16) = false →
    ∀ m w, s.entryAt (s.wave.arch.rvsp - 16) = .ok (m, w) →
      (w.toNat % 4 = 1 →
        ∃ t, exec (.rett r) s = .next t ∧ t.wave.status = .ready ∧ t.wave.hints = [] ∧
          t.wave.arch = { s.wave.arch with
            rvsp := (s.wave.setRvsp (s.wave.arch.rvsp - 16)).arch.rvsp, sdepth := s.wave.arch.sdepth - 1,
            mode := if s.wave.arch.sdepth - 1 = 0 then .user else .supervisor,
            exm := (if r = 1 then s.wave.arch.emask &&& m else m) &&& s.wave.lanes } ∧
          (t.wave.replay = if r = 1 then some (m &&& s.wave.lanes) else none) ∧
          (∀ p, t.byte p = s.byte p) ∧
          (resumeMid w = false → resumeIdx w = 0 → r = 1 → t.wave.pos.pc = resumeAddr w ∧ t.wave.pos.ridx = 0)) ∧
      (w.toNat % 4 = 0 ∨ w.toNat % 4 = 3 → exec (.rett r) s = .next (s.takeTrap (s.wave.wholeTrap 0x01 none)))) ∧
  (∀ (s : State) (r : BitVec 1), s.clears { terminal := true } →
    (s.wave.arch.mode = .user → s.wave.arch.ddepth = false → exec (.rett r) s = .next (s.takeTrap (s.wave.wholeTrap 0x04 none))) ∧
    (s.wave.arch.mode ≠ .user → s.wave.arch.rvsp.toNat % 2 ^ 60 < 16 →
      exec (.rett r) s = .next (s.takeTrap (s.wave.wholeTrap 0x10 (some s.wave.arch.rvsp)))) ∧
    (s.wave.arch.mode = .hypervisor → 16 ≤ s.wave.arch.rvsp.toNat % 2 ^ 60 → s.entryBlocked (s.wave.arch.rvsp - 16) = false →
      ∀ m w, s.entryAt (s.wave.arch.rvsp - 16) = .ok (m, w) → w.toNat % 4 = 2 →
        (s.blockOf w = none → exec (.rett r) s = .next (s.takeTrap (s.wave.wholeTrap 0x04 none))) ∧
        (∀ b, s.blockOf w = some b →
          ∃ t, exec (.rett r) s = .next t ∧ t.hub.blocks = s.hub.blocks.filter (fun x => decide (x ≠ b)) ∧ t.wave.status = .ready ∧
            t.wave.arch = { s.wave.arch with
              rvsp := (s.wave.setRvsp (s.wave.arch.rvsp - 16)).arch.rvsp, mode := b.mode,
              exm := (if r = 1 then b.emask &&& b.m else b.m) &&& s.wave.lanes })))

/-- PRD, PWR and WDOG (R422, R423, R431, R439): every readable register's value, `ecause` and `eaddr` in every lane of the wave, a
write-only register as zero; every writable wave register with the bits that it keeps; a read-only register as a privileged
instruction. -/
def Obligations.PrivilegedRegisters : Prop :=
  (∀ (s : State) (d : BitVec 7) (n : BitVec 12) (f : Form), groupForm (.prd d n) = some f → s.clears f →
    (n = 3 → ∃ t, exec (.prd d n) s = .next t ∧ s.ran t [] [d.toNat] [] false ∧
      ∀ l, l < 64 → t.wave.v d.toNat l = if l < s.wave.env.wavew then Cells.read s.wave.arch.ecause l else s.wave.v d.toNat l) ∧
    (n = 5 → ∃ t, exec (.prd d n) s = .next t ∧ s.ran t [] [d.toNat, d.toNat + 1] [] false ∧
      ∀ l, l < 64 → t.wave.pair d.toNat l = if l < s.wave.env.wavew then Cells.read s.wave.arch.eaddr l else s.wave.pair d.toNat l) ∧
    (n ≠ 3 → n ≠ 5 → ∃ t, exec (.prd d n) s = .next t ∧ s.ran t [d.toNat] [] [] false ∧
      let a := s.wave.arch
      let x := t.wave.s d.toNat
      (n = 0x000 → a.sdepth ≤ 3 →
        x.toNat = a.mode.code + 4 * a.sdepth + (if a.ddepth then 16 else 0) + (if a.sstep then 32 else 0)) ∧
      (n = 0x001 → x = a.estat) ∧ (n = 0x002 → x = a.epc) ∧ (n = 0x004 → x = a.emask) ∧ (n = 0x006 → x = a.evec) ∧
      (n = 0x007 → x = a.uhtv) ∧ (n = 0x008 → x = a.wdog) ∧ (n = 0x009 → x = a.rvsp) ∧
      (n = 0x00B → x = BitVec.ofNat 64 s.core.chsel) ∧ (n = 0x00C → x = Cells.read s.core.chtab s.core.chsel) ∧
      (n = 0x010 → x = a.hstat) ∧ (n = 0x011 → x = a.hepc) ∧ (n = 0x00A ∨ n = 0x00D ∨ n = 0x012 → x = 0))) ∧
  (∀ (s : State) (a : BitVec 7) (n : BitVec 12) (f : Form), groupForm (.pwr a n) = some f → s.clears f →
    let x := s.wave.s a.toNat
    let wrote := fun (g : Arch → Arch) => ∃ t, exec (.pwr a n) s = .next t ∧ s.onlyWave t ∧ s.wave.sameElse t.wave ∧
      s.wave.wentOn t.wave ∧ t.wave.arch = { g s.wave.arch with exm := s.wave.maskAfter } ∧ ∀ p, t.byte p = s.byte p
    (n = 0x000 → wrote fun r => { r with sstep := x.getLsbD 5 }) ∧
    (n = 0x004 → wrote fun r => { r with emask := x &&& s.wave.lanes }) ∧
    (n = 0x006 → wrote fun r => { r with evec := x &&& 0xFFFFFFFFFFFFFFC0 }) ∧
    (n = 0x007 → wrote fun r => { r with uhtv := x }) ∧
    (n = 0x009 → wrote fun r => { r with rvsp := (x &&& 0x0FFFFFFFFFFFFFF0) ||| 0x1000000000000000 }) ∧
    (n = 0x00B → ∃ t, exec (.pwr a n) s = .next t ∧ t.core.chsel = x.toNat % 64 ∧
      s.ran { t with core := { t.core with chsel := s.core.chsel } } [] [] [] false) ∧
    (n = 0x00C → ∃ t, exec (.pwr a n) s = .next t ∧
      (let bad := chValid x = true ∧ (chLegal x = false ∨ (chReceives x = true ∧ 64 < chDepths s.core.chtab s.core.chsel + chDepth x))
       (bad → Cells.read t.core.chtab s.core.chsel = x &&& 0x7FFFFF0000000000) ∧
       (¬bad → Cells.read t.core.chtab s.core.chsel = x &&& 0xFFFFFF0000000000)) ∧
      (∀ i, i ≠ s.core.chsel → Cells.read t.core.chtab i = Cells.read s.core.chtab i) ∧
      s.ran { t with core := { t.core with chtab := s.core.chtab, rxq := s.core.rxq } } [] [] [] false) ∧
    (n = 0x001 ∨ n = 0x002 ∨ n = 0x003 ∨ n = 0x005 ∨ n = 0x008 ∨ n = 0x010 ∨ n = 0x011 →
      exec (.pwr a n) s = .next (s.takeTrap (s.wave.wholeTrap 0x04 none)))) ∧
  (∀ (s : State) (a : BitVec 7), s.clears { ss := [a.toNat], lowest := .supervisor } →
    ((s.wave.s a.toNat).toNat < 2 ^ 48 →
      ∃ t, exec (.wdog a) s = .next t ∧ s.onlyWave t ∧ s.wave.sameElse t.wave ∧ s.wave.wentOn t.wave ∧
        t.wave.arch = { s.wave.arch with wdog := s.wave.s a.toNat, exm := s.wave.maskAfter } ∧ ∀ p, t.byte p = s.byte p) ∧
    (2 ^ 48 ≤ (s.wave.s a.toNat).toNat → exec (.wdog a) s = .next (s.takeTrap (s.wave.wholeTrap 0x01 none))))

/-- The vector loads (R297 to R301): every active lane that passes its checks takes the bytes at its places into a long-latency
instruction in progress, which writes `vd` when it completes; the lanes that fail trap, or freeze the VI. Nothing else changes but what
the caches hold. -/
def Obligations.VectorLoads : Prop :=
  ∀ (i : Instr) (s : State) (f : Form) (d size : Nat) (addr : Nat → DWord),
    i.WellFormed = true → vectorAccess s.wave false i = some (d, size, addr) → groupForm i = some f → s.clears f →
    let good := lanesPassing s .read size addr
    let bad := lanesFailing s .read size addr
    let ps := good.flatMap (·.2)
    let ws := good.flatMap fun g => elementsOf d g.1 size (s.load g.2)
    (s.blocked ps = true → ∃ t, exec i s = .next t ∧ t.wave = { s.wave with issued := true } ∧ t.core = s.core ∧ t.mem = s.mem) ∧
    (s.blocked ps = false → ∃ race cs, raceOf s ws race ps ∧
      (bad = [] → ∃ t, exec i s = .next t ∧ (loaded s ws race cs ps).ran t [] [] [] false) ∧
      (bad ≠ [] → s.wave.lookoutOf = none →
        exec i s = .next (afterFailures s (loaded s ws race cs ps) bad (accessTrap false addr bad))))

/-- The vector stores (R294, R297 to R301): the bytes of each active lane that passes its checks are stored at its places, lane after
lane, and every other byte reads as before; the lanes that fail trap, or freeze the VI. A store behind an atomic of the wave that
acquires waits (R305). -/
def Obligations.VectorStores : Prop :=
  ∀ (i : Instr) (s : State) (f : Form) (d size : Nat) (addr : Nat → DWord),
    i.WellFormed = true → vectorAccess s.wave true i = some (d, size, addr) → groupForm i = some f → s.clears f →
    let bad := lanesFailing s .write size addr
    let bs := (lanesPassing s .write size addr).flatMap fun g => g.2.zip (lanesBytes s.wave d g.1 size)
    (s.acquiring = true → exec i s = .next { s with wave := { s.wave with issued := true } }) ∧
    (s.acquiring = false → bad = [] → ∃ t, exec i s = .next t ∧ storesOnly s t bs) ∧
    (s.acquiring = false → bad ≠ [] → s.wave.lookoutOf = none →
      ∃ u, exec i s = .next (afterFailures s u bad (accessTrap true addr bad)) ∧ s.onlyStores u ∧
        u.wave = (if bs = [] then s else s.calm).wave ∧ ∀ p, u.byte p = overlaid bs s.byte p)

/-- The scalar loads and stores (R297 to R301): one access of the wave, zero-extended into `sd` by a load in progress, or the low bytes
of `sd` stored and every other byte as before; a failing access traps the whole wave, or freezes the VI. A lookout's load without a
translation at hand does nothing (R145); a store behind an atomic of the wave that acquires waits (R305). -/
def Obligations.ScalarLoadsAndStores : Prop :=
  (∀ (i : Instr) (s : State) (f : Form) (d size : Nat) (a : DWord),
    i.WellFormed = true → scalarAccess s.wave false i = some (d, size, a) → groupForm i = some f → s.clears f →
    (s.dropped 0 a size = true → ∃ t, exec i s = .next t ∧ s.ran t [] [] [] false) ∧
    (∀ ps, s.dropped 0 a size = false → s.reach .read 0 a size = .ok ps →
      (s.blocked ps = true → ∃ t, exec i s = .next t ∧ t.wave = { s.wave with issued := true } ∧ t.core = s.core ∧ t.mem = s.mem) ∧
      (s.blocked ps = false →
        ∃ t race cs, exec i s = .next t ∧
          (let ws := [.scal d (BitVec.ofNat 64 (s.load ps))]
           raceOf s ws race ps ∧ (loaded s ws race cs ps).ran t [] [] [] false))) ∧
    (∀ c, s.dropped 0 a size = false → s.reach .read 0 a size = .error c → c ≠ 0x218 →
      exec i s = .next (s.takeTrap (s.wave.wholeTrap (BitVec.ofNat 32 (c % 256)) (some a))))) ∧
  (∀ (i : Instr) (s : State) (f : Form) (d size : Nat) (a : DWord),
    i.WellFormed = true → scalarAccess s.wave true i = some (d, size, a) → groupForm i = some f → s.clears f →
    (∀ ps, s.reach .write 0 a size = .ok ps →
      (s.acquiring = true → exec i s = .next { s with wave := { s.wave with issued := true } }) ∧
      (s.acquiring = false → ∃ t, exec i s = .next t ∧ storesOnly s t (ps.zip (bytesOf size (s.wave.s d).toNat)))) ∧
    (∀ c, s.reach .write 0 a size = .error c → c ≠ 0x218 →
      exec i s = .next (s.takeTrap (s.wave.wholeTrap (BitVec.ofNat 32 (c % 256 + 256)) (some a))))) ∧
  (∀ (i : Instr) (s : State) (f : Form) (store : Bool) (d size : Nat) (a : DWord),
    i.WellFormed = true → scalarAccess s.wave store i = some (d, size, a) → groupForm i = some f → s.clears f → s.wave.lookoutOf = none →
    s.reach (if store then .write else .read) 0 a size = .error 0x218 →
    let t := s.wave.wholeTrap (BitVec.ofNat 32 (0x18 + if store then 256 else 0)) (some a)
    exec i s = .next (({ s with wave := { s.wave with pending := some t } } : State).freeze s.wave.env.vi 2))

/-- The checks of an access (R46, R293): a misaligned address fails as misaligned before anything else; an address whose space bits name
no space, or which lies past the end of its space, fails as a translation fault. -/
def Obligations.AccessChecks : Prop :=
  ∀ (s : State) (acc : Access) (l : Nat) (a : DWord) (size : Nat), 0 < size →
    (a.toNat % size ≠ 0 → s.reach acc l a size = .error 0x08) ∧
    (a.toNat % size = 0 → (4 ≤ a.toNat / 2 ^ 61 ∨ (a.toNat / 2 ^ 61 = 1 ∧ 2 ^ 22 ≤ a.toNat % 2 ^ 61) ∨
        (a.toNat / 2 ^ 61 = 2 ∧ 2 ^ 48 ≤ a.toNat % 2 ^ 61) ∨ (a.toNat / 2 ^ 61 = 3 ∧ 2 ^ 44 ≤ a.toNat % 2 ^ 61)) →
      s.reach acc l a size = .error 0x10) ∧
    (∀ ps, s.reach acc l a size = .ok ps → ps.length = size)

/-- The atomics (R302 to R305): with no acquiring atomic of the wave held, one step for each active lane, or one for the wave, is held by
the quarantine, to be performed at its release in lane order; the instruction is in progress until all of them have written their old
values. It ends its region. -/
def Obligations.AtomicsAreHeld : Prop :=
  (∀ (s : State) (d a b : BitVec 7) (w : BitVec 1) (c : BitVec 4) (f : Form) (at_ : Nat → List Place),
    groupForm (.vatom d a b w c) = some f → s.clears f → s.acquiring = false →
    (∀ l ∈ s.wave.active, atomicPlaces s l (s.wave.pair a.toNat l) (if w = 1 then 8 else 4) = some (at_ l)) →
    let rd := fun r l => if w = 1 then s.wave.pair r l else (s.wave.v r l).setWidth 64
    let regs := if w = 1 then [d.toNat, d.toNat + 1] else [d.toNat]
    ∃ t, exec (.vatom d a b w c) s = .next t ∧
      t.wave.ll = (let u := s.inProgress s.wave.active.length []
                   if s.wave.active = [] then u else u.calm).wave.ll ∧ s.wave.wentOn t.wave ∧
      t.wave.arch = { s.wave.arch with exm := s.wave.maskAfter } ∧ t.wave.entries.length = s.wave.entries.length + 1 ∧
      (∀ l ∈ s.wave.active, ∃ h ∈ t.core.held, h.slot = s.wave.slot ∧ h.at_ = s.now ∧ ∃ after acq,
        h.kind = .atomic ((at_ l).headD (.mem 0))
          { op := c.toNat, size := if w = 1 then 8 else 4, b := rd b.toNat l, e := rd (s.wave.group.extra.headD 0) l } s.ids
          (regs.map fun r => .vec r l 0) acq after none) ∧
      t.core.held.length = s.core.held.length + s.wave.active.length ∧ t.core.held.take s.core.held.length = s.core.held ∧
      t.mem = s.mem ∧ t.core.store = s.core.store) ∧
  (∀ (s : State) (d a b : BitVec 7) (w : BitVec 1) (c : BitVec 4) (f : Form) (ps : List Place),
    groupForm (.satom d a b w c) = some f → s.clears f → s.acquiring = false →
    atomicPlaces s 0 (s.wave.s a.toNat) (if w = 1 then 8 else 4) = some ps →
    let rd := fun r => if w = 1 then s.wave.s r else s.wave.s r &&& 0xFFFFFFFF
    ∃ t after acq, exec (.satom d a b w c) s = .next t ∧
      t.wave.ll = (s.inProgress 1 []).calm.wave.ll ∧ s.wave.wentOn t.wave ∧
      t.wave.arch = { s.wave.arch with exm := s.wave.maskAfter } ∧ t.wave.entries.length = s.wave.entries.length + 1 ∧
      (let op : AtomicOp := { op := c.toNat, size := if w = 1 then 8 else 4, b := rd b.toNat, e := rd (s.wave.group.extra.headD 0) }
       t.core.held = s.core.held ++
        [{ slot := s.wave.slot, at_ := s.now, kind := .atomic (ps.headD (.mem 0)) op s.ids [.scal d.toNat 0] acq after none,
           policy := s.wave.group.policy.getD 0 }]) ∧
      t.mem = s.mem ∧ t.core.store = s.core.store)

/-- RETT, the atomics and the word at which a wave is stalled, to the end of their effect (R156, R303, R304, R393, R432): RETT in each of
its forms returns to the entry that it pops; what VATOM or SATOM has given to the quarantine is performed at its release, the old value
going to the destination; a stalled wave whose wait is over executes its word and goes on. -/
def Obligations.ReturnsAtomicsAndStalledWordsComplete : Prop :=
  (∀ (s : State) (r : BitVec 1) (m w : DWord), s.clears { terminal := true } → popped s 1 m w →
    (s.wave.arch.mode = .supervisor → w.toNat % 4 = 1 →
      ∃ t, exec (.rett r) s = .next t ∧
        returned s s.hub { poppedArch s 1 with sdepth := s.wave.arch.sdepth - 1, mode := if s.wave.arch.sdepth - 1 = 0 then .user else .supervisor }
          m w s.wave.arch.emask r t) ∧
    (∀ q x, s.wave.arch.mode = .user → s.wave.arch.ddepth = true → w.toNat % 4 = 1 → popped s 2 q x →
      ∃ t, exec (.rett r) s = .next t ∧ returned s s.hub { poppedArch s 2 with ddepth := false } m w q r t) ∧
    (∀ b, s.wave.arch.mode = .user → s.wave.arch.ddepth = true → w.toNat % 4 = 2 → s.blockOf w = some b →
      ∃ t, exec (.rett r) s = .next t ∧
        returned s { s.hub with blocks := s.hub.blocks.filter fun x => decide (x ≠ b) }
          { poppedArch s 1 with sdepth := s.wave.arch.sdepth - 1, mode := if s.wave.arch.sdepth - 1 = 0 then .user else .supervisor }
          b.m b.w s.wave.arch.emask r t) ∧
    (∀ b, s.wave.arch.mode = .supervisor → w.toNat % 4 = 2 → s.blockOf w = some b →
      ∃ t, exec (.rett r) s = .next t ∧
        returned s { s.hub with blocks := s.hub.blocks.filter fun x => decide (x ≠ b) }
          { poppedArch s 1 with sdepth := s.wave.arch.sdepth - 1, mode := if s.wave.arch.sdepth - 1 = 0 then .user else .supervisor }
          b.m b.w s.wave.arch.emask r t) ∧
    (∀ b, s.wave.arch.mode = .hypervisor → w.toNat % 4 = 2 → s.blockOf w = some b →
      ∃ t, exec (.rett r) s = .next t ∧
        returned s { s.hub with blocks := s.hub.blocks.filter fun x => decide (x ≠ b) } { poppedArch s 1 with mode := b.mode }
          b.m b.w b.emask r t)) ∧
  (∀ (s : State) (d a b : BitVec 7) (w : BitVec 1) (c : BitVec 4) (f : Form) (at_ : Nat → List Place),
    groupForm (.vatom d a b w c) = some f → s.clears f → s.acquiring = false →
    (∀ l ∈ s.wave.active, atomicPlaces s l (s.wave.pair a.toNat l) (if w = 1 then 8 else 4) = some (at_ l)) →
    let rd := fun r l => if w = 1 then s.wave.pair r l else (s.wave.v r l).setWidth 64
    let op := fun l => ({ op := c.toNat, size := if w = 1 then 8 else 4, b := rd b.toNat l,
                          e := rd (s.wave.group.extra.headD 0) l } : AtomicOp)
    let dst := fun l => (if w = 1 then [d.toNat, d.toNat + 1] else [d.toNat]).map fun r => RegWrite.vec r l 0
    ∃ t, exec (.vatom d a b w c) s = .next t ∧ s.wave.wentOn t.wave ∧
      (∃ o ∈ t.wave.ll, o.id = s.ids ∧ o.left = s.wave.active.length) ∧
      ∀ l ∈ s.wave.active, ∃ h ∈ t.core.held, h.slot = s.wave.slot ∧ h.at_ = s.now ∧
        (∃ acq after, h.kind = .atomic ((at_ l).headD (.mem 0)) (op l) s.ids (dst l) acq after none) ∧
        performed s.core.id h ((at_ l).headD (.mem 0)) (op l) s.ids (dst l)) ∧
  (∀ (s : State) (d a b : BitVec 7) (w : BitVec 1) (c : BitVec 4) (f : Form) (ps : List Place),
    groupForm (.satom d a b w c) = some f → s.clears f → s.acquiring = false →
    atomicPlaces s 0 (s.wave.s a.toNat) (if w = 1 then 8 else 4) = some ps →
    let rd := fun r => if w = 1 then s.wave.s r else s.wave.s r &&& 0xFFFFFFFF
    let op : AtomicOp := { op := c.toNat, size := if w = 1 then 8 else 4, b := rd b.toNat, e := rd (s.wave.group.extra.headD 0) }
    ∃ t h, exec (.satom d a b w c) s = .next t ∧ s.wave.wentOn t.wave ∧
      (∃ o ∈ t.wave.ll, o.id = s.ids ∧ o.left = 1) ∧
      t.core.held = s.core.held ++ [h] ∧ h.slot = s.wave.slot ∧ h.at_ = s.now ∧
      (∃ acq after, h.kind = .atomic (ps.headD (.mem 0)) op s.ids [.scal d.toNat 0] acq after none) ∧
      performed s.core.id h (ps.headD (.mem 0)) op s.ids [.scal d.toNat 0]) ∧
  (∀ (s u : State) (r : WaveRef) (i : Instr) (v : Vi), s.focus r = some u → u.wave.status = .stalled → u.wave.stop = none →
    u.wave.pending = none → u.viAt u.wave.env.vi = some v → (v.phase = .active ∨ u.wave.arch.mode = .hypervisor) →
    encode i = some (u.wave.pos.words.getD u.wave.pos.ridx 0) → waitOver u i →
    ∃ t, exec (.terminalInstructionComplete r) s = .next t ∧
      u.ran { t with wave := { t.wave with arrival := u.wave.arrival } } [] [] [] false ∧
      ((∃ b, i = .bar b ∨ i = .rbar b) → t.wave.arrival = none))

/-- WAITC, the tag instructions, FENCE, FENCE.TC, BAR, RBAR and MCLOSE (R321 to R323, R336, R391 to R393, R402, R403): where the wait is
over the instruction runs with its result and changes nothing else; where it is not, the wave stalls. -/
def Obligations.WaitsAndTags : Prop :=
  (∀ (s : State) (c : BitVec 2) (n : BitVec 6), s.clears { terminal := true, lookout := false } →
    (s.wave.counter c.toNat < n.toNat → ∃ t, exec (.waitc c n) s = .next t ∧ s.ran t [] [] [] false) ∧
    (n.toNat ≤ s.wave.counter c.toNat → exec (.waitc c n) s = .next (stalledAt s))) ∧
  (∀ (s : State) (a : BitVec 7), s.clears { terminal := true, ss := [a.toNat], lookout := false } →
    let m := s.wave.s a.toNat
    ((m = 0 ∨ s.core.tagmap &&& m ≠ 0) → ∃ t, exec (.tagwany a) s = .next t ∧ s.ran t [] [] [] false) ∧
    (m ≠ 0 → s.core.tagmap &&& m = 0 → exec (.tagwany a) s = .next (stalledAt s)) ∧
    (s.core.tagmap &&& m = m → ∃ t, exec (.tagwall a) s = .next t ∧ s.ran t [] [] [] false) ∧
    (s.core.tagmap &&& m ≠ m → exec (.tagwall a) s = .next (stalledAt s))) ∧
  (∀ (s : State) (d a : BitVec 7), s.clears { terminal := true, ss := [d.toNat, a.toNat], lookout := false } →
    let m := s.wave.s a.toNat
    (m = 0 → ∃ t, exec (.tagffr d a) s = .next t ∧ ranToRegionEnd s t [d.toNat] [] [] ∧ t.wave.s d.toNat = 64) ∧
    let old := settledTags s
    (m ≠ 0 → old &&& m = 0 → exec (.tagffr d a) s = .next (stalledAt s)) ∧
    (∀ k, k < 64 → (old &&& m).getLsbD k = true → (∀ j, j < k → (old &&& m).getLsbD j = false) →
      ∃ t, exec (.tagffr d a) s = .next t ∧ t.wave.s d.toNat = BitVec.ofNat 64 k ∧ (∀ p, t.byte p = s.byte p) ∧
        ranToRegionEnd (tagsCleared s (1 <<< k)) t [d.toNat] [] [])) ∧
  (∀ (s : State) (a : BitVec 7), s.clears { ss := [a.toNat], lookout := false } →
    (∃ t, exec (.tagclr a) s = .next t ∧ (∀ p, t.byte p = s.byte p) ∧
      ranToRegionEnd (tagsCleared s (s.wave.s a.toNat)) t [] [] []) ∧
    ∃ t, exec (.tagrd a) s = .next t ∧ s.ran t [a.toNat] [] [] false ∧ t.wave.s a.toNat = s.core.tagmap) ∧
  (∀ (s : State) (m : BitVec 5), s.clears { terminal := true, lookout := false } →
    (m = 0 → exec (.fence m) s = .next (s.takeTrap (s.wave.wholeTrap 0x01 none))) ∧
    (m ≠ 0 → ¬wavesWriteHeld s → ∃ t, exec (.fence m) s = .next t ∧ s.ran t [] [] [] false) ∧
    (m ≠ 0 → wavesWriteHeld s → exec (.fence m) s = .next (stalledAtFence s)) ∧
    (¬wavesWriteHeld s → ¬asyncOpen s → ∃ t, exec .fenceTc s = .next t ∧ s.ran t [] [] [] false) ∧
    (wavesWriteHeld s ∨ asyncOpen s → exec .fenceTc s = .next (stalledAtFence s))) ∧
  (∀ (s : State) (b : BitVec 4) (reach : Bool), s.clears { terminal := true, lookout := false } →
    let i := if reach then Instr.rbar b else Instr.bar b
    (s.wave.env.ferry = true → exec i s = .next (s.takeTrap (s.wave.wholeTrap 0x01 none))) ∧
    (s.wave.env.ferry = false → s.wave.arrival = none →
      ∃ es, exec i s = .next (let u := holding s .arrive
        { u with wave := { s.calm.wave with
            status := .stalled, entries := s.wave.entries ++ [es],
            arrival := some { reachLevel := reach, number := b.toNat, released := false, complete := false } } })) ∧
    (∀ r, s.wave.env.ferry = false → s.wave.arrival = some { reachLevel := reach, number := b.toNat, released := r, complete := false } →
      exec i s = .next (stalledAt s)) ∧
    (∀ r, s.wave.env.ferry = false → s.wave.arrival = some { reachLevel := reach, number := b.toNat, released := r, complete := true } →
      ∃ t, exec i s = .next t ∧ t.wave.arrival = none ∧
        s.ran { t with wave := { t.wave with arrival := s.wave.arrival } } [] [] [] false)) ∧
  (∀ s : State, s.clears { lookout := false } → s.wave.ocm < 63 → (∀ b ∈ s.wave.batches.head?, b.left ≠ []) → s.wave.openBatch.left ≠ [] →
    ∃ t, exec .mclose s = .next t ∧
      ranToRegionEnd { s with wave := { s.wave with
        ocm := s.wave.ocm + 1, openBatch := .empty,
        batches := s.wave.batches ++ [{ s.wave.openBatch with closedAt := s.now }] } } t [] [] [])

/-- XCOPY, XCOPYT, XGATH, XRATOM, XCOLL and AMSG on legal operands (R306 to R316, R325, R374 to R378): one operation with the operands'
fields starts, its counter counts it, the quarantine holds it, and the wave goes on into a new region with its registers unchanged;
XRATOM is in progress until its result arrives. -/
def Obligations.AsynchronousOperationsStart : Prop :=
  (∀ (s : State) (d a b : BitVec 7) (f : Form) (ss sd : Side), groupForm (.xcopy d a b) = some f → s.clears f →
    let x := s.wave.s b.toNat
    let n := bitsN x.toNat 31 0
    paramGood x → x.getLsbD 47 = false → 0 < n → n ≤ 2 ^ 24 → s.side (s.wave.s a.toNat) = .ok ss → s.side (s.wave.s d.toNat) = .ok sd →
    ¬(ss = .store ∧ sd = .store) → ¬(ss.isRemote = true ∧ sd.isRemote = true) →
    (ss.isRemote = false → s.checkRange .read (s.wave.s a.toNat) n = .ok ()) →
    (sd.isRemote = false → s.checkRange .write (s.wave.s d.toNat) n = .ok ()) → counterRoom s.wave (counterNamed 0 x) →
    ∃ t pages, exec (.xcopy d a b) s = .next t ∧ (∀ p, t.byte p = s.byte p) ∧
      ranToRegionEnd (withOp s (freshOp s .copy (counterNamed 0 x) (streamNamed s.wave.group x) (tagNamed x) (s.wave.s a.toNat)
        (s.wave.s d.toNat) n pages (s.sidePkg sd) [(0, n)] [] (bitsN x.toNat 46 45))) t [] [] []) ∧
  (∀ (s : State) (d a b : BitVec 7) (f : Form) (sn st : Side) (td : TDesc), groupForm (.xcopyt d a b) = some f → s.clears f →
    let x := s.wave.s b.toNat
    let y := s.wave.s a.toNat
    let back := x.getLsbD 47
    let tile : Tile := { d := td, cols := bitsN x.toNat 15 0, rows := bitsN x.toNat 31 16, c0 := bitsN y.toNat 39 16,
                         r0 := bitsN y.toNat 63 40, near := s.wave.s d.toNat }
    let nacc := if back then Access.read else Access.write
    let tacc := if back then Access.write else Access.read
    paramGood x → tile.cols ≠ 0 → tile.rows ≠ 0 → s.side tile.near = .ok sn → sn.isRemote = false →
    s.tensor (bitsN y.toNat 15 0) (if back then 1 else 0) = .got td → s.side td.base = .ok st → tile.rows * tile.q ≤ 2 ^ 24 →
    tile.near.toNat % 16 = 0 → s.checkRange nacc tile.near (tile.rows * tile.q) = .ok () →
    (∀ r ∈ tile.rowRanges, s.checkSide st tacc r.1 r.2 = .ok ()) → counterRoom s.wave (counterNamed 0 x) →
    ∃ t pages, exec (.xcopyt d a b) s = .next t ∧ (∀ p, t.byte p = s.byte p) ∧
      ranToRegionEnd (withOp s (freshOp s (.copyT td.bytes tile.cols tile.rows tile.c0 tile.r0 back) (counterNamed 0 x)
        (streamNamed s.wave.group x) (tagNamed x) td.base tile.near (tile.units back) pages (if back then s.sidePkg st else s.pkg)
        (if tile.units back = 0 then [] else [(0, tile.units back)]) [] (bitsN x.toNat 46 45))) t [] [] []) ∧
  (∀ (s : State) (d a b : BitVec 7) (f : Form) (sd : Side), groupForm (.xgath d a b) = some f → s.clears f →
    let x := s.wave.s b.toNat
    let k := bitsN x.toNat 31 0
    let good := s.wave.active.map fun l => (l, s.wave.pair a.toNat l)
    (s.wave.active = [] → ∃ t, exec (.xgath d a b) s = .next t ∧ ranToRegionEnd s t [] [] []) ∧
    (s.wave.active ≠ [] → paramGood x → x.getLsbD 47 = false → k ≤ 4 → s.side (s.wave.s d.toNat) = .ok sd → sd.isRemote = false →
      (s.wave.s d.toNat).toNat % 2 ^ k = 0 →
      (∀ g ∈ good, s.gatherLane (2 ^ k) (s.wave.s d.toNat) g.1 g.2 = .ok g) → counterRoom s.wave (counterNamed 2 x) →
      ∃ t pages, exec (.xgath d a b) s = .next t ∧ (∀ p, t.byte p = s.byte p) ∧
        ranToRegionEnd (withOp s (freshOp s (.gather (2 ^ k) good) (counterNamed 2 x) (streamNamed s.wave.group x) (tagNamed x) 0
          (s.wave.s d.toNat) (2 ^ k * good.length) pages s.pkg [(0, 2 ^ k * good.length)] [] (bitsN x.toNat 46 45))) t [] [] [])) ∧
  (∀ (s : State) (d a b : BitVec 7) (f : Form) (m : Member) (ps : List Place), groupForm (.xratom d a b) = some f → s.clears f →
    let c := s.wave.s (s.wave.group.extra.headD 0)
    let op := atomicOf [c, s.wave.s b.toNat, s.wave.s (s.wave.group.extra.getD 1 0)]
    xratomLegal c s.wave.group.extra.length = true → s.xratomTarget (s.wave.s a.toNat) op.size = .ok (m, ps) →
    ∃ t pages, exec (.xratom d a b) s = .next t ∧ (∀ p, t.byte p = s.byte p) ∧
      (let u := s.inProgress 1 []
       ranToRegionEnd (withOp u (freshOp u (.xratom op d.toNat s.ids) none (s.wave.group.stream.getD 0) none (s.wave.s a.toNat)
         (s.wave.s a.toNat) op.size pages m.pkg [(0, 1)] [] 0)) t [] [] [])) ∧
  (∀ (s : State) (a b : BitVec 7) (f : Form) (ps : List Place) (own : Nat), groupForm (.xcoll a b) = some f → s.clears f →
    let x := s.wave.s b.toNat
    let n := bitsN x.toNat 31 0
    let c : Coll := { desc := withDet (ps.map s.byte) s.wave.env.det, count := n, own := own }
    paramGood x → x.getLsbD 47 = false → 0 < n → n ≤ 2 ^ 24 → (s.wave.s a.toNat).toNat % 64 = 0 → spaceOf (s.wave.s a.toNat) = 2 →
    s.places s.wave.env s.wave.arch.mode .read 0 (s.wave.s a.toNat) 64 = .ok ps → s.blocked ps = false →
    s.ownIndex s.wave.env.vi = some own → c.legal (((s.viAt s.wave.env.vi).map (·.view)).getD []) = true → s.collRanges c = none →
    counterRoom s.wave (counterNamed 3 x) →
    ∃ t o, exec (.xcoll a b) s = .next t ∧ ranToRegionEnd (withOp s o) t [] [] [] ∧ o.kind = .collective c.desc n [] ∧
      o.counter = counterNamed 3 x ∧ o.tag = tagNamed x ∧ o.policy = bitsN x.toNat 46 45 ∧ o.src = c.src ∧ o.dst = c.dst ∧ o.started = false ∧ o.ended = false) ∧
  (∀ (s : State) (d a : BitVec 7) (h : BitVec 6) (f : Form) (key : Nat), groupForm (.amsg d a h) = some f → s.clears f →
    d.toNat % 2 = 0 → s.messageTarget (s.wave.s a.toNat) = .ok key → s.wave.ocx < 63 →
    ∃ t pages, exec (.amsg d a h) s = .next t ∧ (∀ p, t.byte p = s.byte p) ∧
      ranToRegionEnd (withOp s (freshOp s
        (.amsg h.toNat ((List.range 16).flatMap fun l => bytesOf 4 (s.wave.v d.toNat l).toNat) d.toNat) (some 0)
        (s.wave.group.stream.getD 0) none (BitVec.ofNat 64 key) (s.wave.s a.toNat) 0 pages s.pkg [] [] 0)) t [] [] [])

/-- The matrix words on legal operands (R133, R330, R333, R336, R339 to R350): with the set held by the wave's team and room in queue and
batch, the operation joins the queue and the wave's open batch and captures its configurations; TCFG writes its configuration at once;
the wave's registers are unchanged. -/
def Obligations.MatrixWordsQueue : Prop :=
  (∀ (i : Instr) (s : State) (f : Form) (o : MatrixOp) (ok : Prop), matrixForm i = some f → matrixRow s i = some (o, ok) →
    s.wave.full = true → s.clears f → s.core.matrix.holder = some (s.wave.env.grid, s.wave.env.team) → ok → reachesAll o →
    s.core.matrix.queue.length < 16 → s.wave.openBatch.size < 64 →
    ∃ t, exec i s = .next t ∧ ranToRegionEnd (withQueued s o) t [] [] [] ∧ ∀ p, t.byte p = s.byte p) ∧
  (∀ (s : State) (a : BitVec 4) (r : BitVec 7), s.wave.full = true → s.clears { ss := [r.toNat], lookout := false } →
    s.core.matrix.holder = some (s.wave.env.grid, s.wave.env.team) →
    (tcLegal (s.wave.s r.toNat) = false → exec (.tcfg a r) s = .next (s.takeTrap (s.wave.wholeTrap 0x01 none))) ∧
    (tcLegal (s.wave.s r.toNat) = true →
      ∃ t, exec (.tcfg a r) s = .next t ∧ t.core.matrix.data.tc a.toNat = s.wave.s r.toNat ∧
        (∀ b, b ≠ a.toNat → t.core.matrix.data.tc b = s.core.matrix.data.tc b) ∧
        t.core.matrix.data.tiles = s.core.matrix.data.tiles ∧ t.core.matrix.data.accum = s.core.matrix.data.accum ∧
        s.ran { t with core := { t.core with matrix := s.core.matrix } } [] [] [] false)) ∧
  (∀ (i : Instr) (s : State) (f : Form), matrixForm i = some f → s.wave.full = true → s.clears f →
    (∃ h, s.core.matrix.holder = some h ∧ h ≠ (s.wave.env.grid, s.wave.env.team) ∧ s.teamIdle h.1 h.2 = false) →
    (∀ a b r z t m, i ≠ .mmax a b r z t m) → ∃ t, exec i s = .next t ∧ t.wave = { s.wave with issued := true } ∧ t.core = s.core)

/-- LAUNCH, LWAIT, SPAWN, TDEF, SEGQ, FERRY, PFT and LOOK (R113 to R125, R252, R269, R270, R318, R319): each decision of LAUNCH with its
code, the accepted record, its parent link, its sequence number and its lineage (R104); the other instructions' results; every register but the
destination unchanged. -/
def Obligations.LaunchesAndFerries : Prop :=
  (∀ (s : State) (d a b : BitVec 7) (ps : List Place) (v : Vi) (g : Grid) (f : Form), groupForm (.launch d a b) = some f → s.clears f →
    let sa := s.wave.s a.toNat
    let sb := s.wave.s b.toNat
    let q := bitsN sb.toNat 4 0
    sa.toNat % 128 = 0 → spaceOf sa = 2 → s.granted s.wave.env.vi s.wave.arch.mode 1 q 2 = true →
    s.places s.wave.env s.wave.arch.mode .read 0 sa 128 = .ok ps → s.blocked ps = false →
    s.viAt s.wave.env.vi = some v → s.gridAt s.wave.env.grid = some g →
    (v.queueAt q = none → launchRefused s d a b 1) ∧
    (∀ u, v.queueAt q = some u →
      (32 ≤ sb.toNat ∨ v.desc.qcount ≤ q ∨ u.deviceFed = false → launchRefused s d a b 1) ∧
      (sb.toNat < 32 → q < v.desc.qcount → u.deviceFed = true →
        (u.qst ≠ 1 → launchRefused s d a b 5) ∧
        (u.qst = 1 → 8 ≤ g.depth → launchRefused s d a b 3) ∧
        (u.qst = 1 → g.depth < 8 → queueFull s v u → launchRefused s d a b 2) ∧
        (u.qst = 1 → g.depth < 8 → ¬queueFull s v u →
          let rec_ := ps.map s.byte
          let n := s.nextLaunch s.wave.env.vi u.q u.k
          let addr := u.base + BitVec.ofNat 64 (128 * (n % 2 ^ u.log))
          let line := fun m : Nat => ({ vi := s.wave.env.vi, q := u.q, seq := m, ancestors := g.id :: g.ancestors } : Lineage)
          (bitsN (fieldAt rec_ 5 1) 3 3 = 1 →
            ∃ t, exec (.launch d a b) s = .next t ∧ t.wave.s d.toNat = BitVec.ofNat 64 (u.q * 2 ^ 32 + n) ∧
              (let w := holding s (.launch s.wave.env.vi u.q n addr (heldRecord n ((g.depth + 1) * 2 ^ 48) rec_) none)
               ranToRegionEnd { w with launch := { s.launch with lineage := s.launch.lineage ++ [line n] } } t [d.toNat] [] [])) ∧
          (bitsN (fieldAt rec_ 5 1) 3 3 = 0 → s.teamEntry g s.wave.env.team = none → launchRefused s d a b 4) ∧
          (∀ e, bitsN (fieldAt rec_ 5 1) 3 3 = 0 → s.teamEntry g s.wave.env.team = some e →
            ∃ t, exec (.launch d a b) s = .next t ∧ t.wave.s d.toNat = BitVec.ofNat 64 (u.q * 2 ^ 32 + n) ∧
              (let link := 2 ^ 63 + (g.depth + 1) * 2 ^ 48 + e.gen % 2 ^ 32 * 2 ^ 16 + e.index
               let w := holding s (.launch s.wave.env.vi u.q n addr (heldRecord n link rec_) (some e.index))
               ranToRegionEnd { w with
                 launch := { s.launch.setEntry { e with outstanding := e.outstanding + 1 } with
                   lineage := s.launch.lineage ++ [line n] },
                 grids := s.grids.map fun x =>
                   if x.id = g.id then g.mapTeam s.wave.env.team fun y => { y with entry := some e.index } else x } t
                 [d.toNat] [] [])))))) ∧
  (∀ (s : State) (d a : BitVec 7), s.clears { terminal := true, ss := [d.toNat, a.toNat], lookout := false } →
    let c := s.children s.wave.env.grid s.wave.env.team
    (c.1 ≤ (s.wave.s a.toNat).toNat →
      ∃ t, exec (.lwait d a) s = .next t ∧ s.ran t [d.toNat] [] [] false ∧ t.wave.s d.toNat = BitVec.ofNat 64 c.2) ∧
    ((s.wave.s a.toNat).toNat < c.1 → exec (.lwait d a) s = .next (stalledAt s))) ∧
  (∀ (s : State) (d a b : BitVec 7) (f : Form), groupForm (.spawn d a b) = some f → s.clears f →
    (∀ l ∈ s.wave.active, s.wave.env.spawnEntry (s.wave.v a.toNat l).toNat = true) →
    (s.wave.env.ferry = true → ∃ g, s.gridAt s.wave.env.grid = some g) →
    ∃ t u ls, exec (.spawn d a b) s = .next t ∧
      (s.wave.env.ferry = false → (u, ls) = s.spawnBins a.toNat b.toNat s.wave.active) ∧
      (∀ g, s.wave.env.ferry = true → s.gridAt s.wave.env.grid = some g → (u, ls) = s.spawnFerry g a.toNat b.toNat s.wave.active) ∧
      ranToRegionEnd u t [] [] [d.toNat] ∧ (∀ l ∈ ls, l ∈ s.wave.active) ∧
      t.wave.pred d.toNat = ((s.wave.pred d.toNat &&& ~~~(maskOf s.wave.active)) ||| maskOf ls) &&& s.wave.lanes) ∧
  (∀ (s : State) (d a b : BitVec 7), s.clears { ss := [d.toNat, a.toNat, b.toNat], lookout := false } →
    let e := (s.wave.s a.toNat).toNat % 2 ^ 32
    let n := (s.wave.s b.toNat).toNat
    let bin := s.core.binAt s.wave.env.grid s.wave.env.team e
    let gives := fun (c : Core) (x : DWord) =>
      ∃ t, exec (.tdef d a b) s = .next t ∧ t.wave.s d.toNat = x ∧ ({ s with core := c } : State).ran t [d.toNat] [] [] false
    (bin = none → n = 0 ∨ s.core.freeBin = none → gives s.core 0xFFFFFFFFFFFFFFFF) ∧
    (∀ i, bin = none → n ≠ 0 → s.core.freeBin = some i →
      gives { s.core with bins := s.core.bins ++ [{ index := i, grid := s.wave.env.grid, team := s.wave.env.team, entry := e,
                                                    reload := min 65535 (max 64 n), sticky := true, markedReady := false, left := none,
                                                    lanes := [] }] } (BitVec.ofNat 64 i)) ∧
    (∀ x, bin = some x →
      (n ≠ 0 → gives (s.core.setBin { x with reload := min 65535 (max 64 n), sticky := true }) (BitVec.ofNat 64 x.index)) ∧
      (n = 0 → x.lanes = [] → gives (s.core.dropBin x.index) (BitVec.ofNat 64 x.index)) ∧
      (n = 0 → x.lanes ≠ [] → gives (s.core.setBin { x with sticky := false, markedReady := true }) (BitVec.ofNat 64 x.index)))) ∧
  (∀ (s : State) (d a : BitVec 7), s.clears { ss := [d.toNat, a.toNat], lookout := false } →
    (s.wave.env.ferry = false → exec (.segq d a) s = .next (s.takeTrap (s.wave.wholeTrap 0x01 none))) ∧
    (s.wave.env.ferry = true → ∃ t, exec (.segq d a) s = .next t ∧
      (s.inProgress 0 [.scal d.toNat (s.segmentWord (s.wave.s a.toNat))]).ran t [] [] [] false)) ∧
  (∀ (s : State) (a : BitVec 7) (seg j : Nat) (g : Grid), s.clears { terminal := true, live := true, ss := [a.toNat], lookout := false } →
    (s.wave.env.ferry = false → exec (.ferry a) s = .next (s.takeTrap (s.wave.wholeTrap 0x01 none))) ∧
    (s.wave.env.ferry = true → (∀ r ∈ targetRows s true (s.wave.s a.toNat), ¬r.1) → s.wave.arch.mode = .user → s.wave.ll = [] →
      s.wave.env.segmentOf (s.wave.s a.toNat) = some seg → s.gridAt s.wave.env.grid = some g → s.landingTeam g seg = some j →
      s.core.departure.length + (s.net.filter fun t => t.src == s.core.id).length + s.wave.active.length ≤ 256 →
      exec (.ferry a) s = .next (let u := holding s .exit
        { u with wave := { s.wave with status := .exiting, hints := [], issued := false },
                 core := { u.core with departure := joined s (departing s (s.wave.s a.toNat) seg j) } }))) ∧
  (∀ (s : State) (a b : BitVec 7) (td : TDesc), s.clears { ss := [a.toNat, b.toNat] } →
    let x := s.wave.s b.toNat
    (s.wave.s a.toNat).toNat < 2 ^ 16 → x.toNat < 2 ^ 6 → bitsN x.toNat 1 0 ≤ 1 → bitsN x.toNat 3 2 ≤ 2 →
    s.tensor (s.wave.s a.toNat).toNat 0 = .got td →
    let away := ∃ m, s.viewOf s.wave.env.vi (td.base.toNat / 2 ^ 40 % 16) = some m ∧ m.pkg ≠ s.pkg
    (away → ∃ t, exec (.pft a b) s = .next t ∧ s.ran t [] [] [] false) ∧
    (¬away → s.core.prefetches.length < 16 → ∃ t, exec (.pft a b) s = .next t ∧
      ({ s with core := { s.core with prefetches := s.core.prefetches ++
        [{ prio := bitsN x.toNat 5 4, level := bitsN x.toNat 1 0, cls := bitsN x.toNat 3 2, env := s.wave.env, mode := s.wave.arch.mode,
           desc := td.bytes }] } } : State).ran t [] [] [] false)) ∧
  (∀ (s : State) (a b : BitVec 7), s.clears { vs := [a.toNat, a.toNat + 1], ss := [b.toNat] } →
    let x := (s.wave.s b.toNat).toNat
    let good := x < 16 ∧ bitsN x 1 0 ≤ 2 ∧ bitsN x 3 2 ≤ 2
    (s.wave.active = [] ∨ good →
      ∃ t cs, exec (.look a b) s = .next t ∧ ({ s with caches := cs } : State).ran t [] [] [] false) ∧
    (s.wave.active ≠ [] → ¬good → exec (.look a b) s = .next (s.takeTrap (s.wave.wholeTrap 0x01 none))))

/-- SEND, RECV and CHPOLL (R406 to R411): through a granted, valid entry of the right direction a packet enters the outgoing buffer with
the registers' bytes and the next sequence number, the head packet of a queue goes to the registers, the queue is polled; without the
grant the VI freezes, through another entry the wave traps. -/
def Obligations.ChannelInstructions : Prop :=
  (∀ (s : State) (a : BitVec 7) (n : BitVec 2) (c : BitVec 6) (f : Form), groupForm (.send a n c) = some f → s.clears f →
    let ok := s.granted s.wave.env.vi s.wave.arch.mode 2 c.toNat 1
    let e := Cells.read s.core.chtab c.toNat
    let p := sentPacket s a n c
    (ok = false → exec (.send a n c) s = .next (denial s)) ∧
    (ok = true → e.getLsbD 63 = false ∨ e.getLsbD 62 = true → exec (.send a n c) s = .next (s.takeTrap (s.wave.wholeTrap 0x18 none))) ∧
    (ok = true → e.getLsbD 63 = true → e.getLsbD 62 = false → s.core.outgoing.length < 8 →
      ∃ t, exec (.send a n c) s = .next t ∧ (∀ q, t.byte q = s.byte q) ∧
        (let u := holding s (.send p)
         ranToRegionEnd { u with core := { u.core with
           outgoing := s.core.outgoing ++ [p],
           chseq := Cells.write s.core.chseq c.toNat (Cells.read s.core.chseq c.toNat + 1) } } t [] [] []))) ∧
  (∀ (s : State) (d : BitVec 7) (n : BitVec 2) (c : BitVec 6) (f : Form), groupForm (.recv d n c) = some f → s.clears f →
    let ok := s.granted s.wave.env.vi s.wave.arch.mode 2 c.toNat 0
    let e := Cells.read s.core.chtab c.toNat
    (ok = false → exec (.recv d n c) s = .next (denial s)) ∧
    (ok = true → e.getLsbD 63 = false ∨ e.getLsbD 62 = false → exec (.recv d n c) s = .next (s.takeTrap (s.wave.wholeTrap 0x18 none))) ∧
    (ok = true → e.getLsbD 63 = true → e.getLsbD 62 = true → waitingOn s c = [] → exec (.recv d n c) s = .next (stalledAt s)) ∧
    (∀ p ps, ok = true → e.getLsbD 63 = true → e.getLsbD 62 = true → waitingOn s c = p :: ps → s.olderReceiver c.toNat = false →
      ∃ t q, exec (.recv d n c) s = .next t ∧ (∀ x, t.byte x = s.byte x) ∧
        (q.filter fun x => x.1 == c.toNat).map (·.2) = ps ∧ (q.filter fun x => x.1 != c.toNat) = (s.core.rxq.filter fun x => x.1 != c.toNat) ∧
        (let ws := (List.range (n.toNat + 1)).flatMap fun j => (List.range 16).map fun l =>
          RegWrite.vec (d.toNat + j) l (if j < p.flits then BitVec.ofNat 32 (fieldAt p.payload (64 * j + 4 * l) 4) else 0)
         let u := (holding s (.take c.toNat p)).inProgress 0 ws
         ranToRegionEnd { u with core := { u.core with rxq := q } } t [] [] []))) ∧
  (∀ (s : State) (d : BitVec 7) (c : BitVec 6) (f : Form), groupForm (.chpoll d c) = some f → s.clears f →
    let ok := s.granted s.wave.env.vi s.wave.arch.mode 2 c.toNat 0
    (ok = false → exec (.chpoll d c) s = .next (denial s)) ∧
    (ok = true → ∃ t, exec (.chpoll d c) s = .next t ∧ (s.inProgress 0 [.scal d.toNat (pollAnswer s c)]).ran t [] [] [] false))

/-- The instructions of a keeper's handler (R287 to R289): KSEL selects a line, KLW, KSW and KFADD read and write words of the current
line, KEND ends the handler and holds its reply and writes, a base instruction executes; a wrong offset, an illegal word and the 257th
instruction abort. Nothing changes but the keeper, and what the caches hold by a read; a line outside the VI's allocation freezes the VI
(R489). -/
def Obligations.KeeperInstructions : Prop :=
  (∀ (s : State) (r : KeeperRun) (i : Instr), s.keeper.run = some r → 256 ≤ r.count →
    ((∃ b a d, i = .ksel b a d ∨ i = .klw b a d ∨ i = .ksw b a d ∨ i = .kfadd b a d ∨ i = .kend b a d) ∨ ∃ w, i = .keeperBaseInstruction w) →
    exec i s = .next (handlerAborts s r 2)) ∧
  (∀ (s : State) (r : KeeperRun) (b a d : BitVec 5) (l : Nat), s.keeper.run = some r → r.count < 256 →
    let addr : DWord := r.reg b.toNat ++ r.reg a.toNat
    (s.keeperLine r.msg s.keeper.slice .read addr = .ok l → l ∈ r.lines →
      exec (.ksel b a d) s = .next (handlerGoesOn s { r with line := l, lineVa := addr } 4)) ∧
    (s.keeperLine r.msg s.keeper.slice .read addr = .ok l → l ∉ r.lines → r.lines.length < 4 →
      s.atHand false (128 * l) = true → s.keeperHolds (128 * l) = false →
      exec (.ksel b a d) s = .next (handlerGoesOn s { r with line := l, lineVa := addr, lines := r.lines ++ [l] } 4)) ∧
    (s.keeperLine r.msg s.keeper.slice .read addr = .ok l → l ∉ r.lines → 4 ≤ r.lines.length →
      exec (.ksel b a d) s = .next (handlerAborts s r 5)) ∧
    (s.keeperLine r.msg s.keeper.slice .read addr = .error .line → exec (.ksel b a d) s = .next (handlerAborts s r 3)) ∧
    (s.keeperLine r.msg s.keeper.slice .read addr = .error .breach →
      exec (.ksel b a d) s = .next (handlerAborts (s.freeze r.msg.vi 2) r 3))) ∧
  (∀ (s : State) (r : KeeperRun) (b a d : BitVec 5), s.keeper.run = some r → r.count < 256 →
    let o := (r.reg a.toNat).toNat % 128
    let key := 128 * r.line + o
    let old := s.lineWord r key
    (o % 4 ≠ 0 → exec (.klw b a d) s = .next (handlerAborts s r 3) ∧ exec (.ksw b a d) s = .next (handlerAborts s r 3) ∧
      exec (.kfadd b a d) s = .next (handlerAborts s r 3)) ∧
    (o % 4 = 0 → s.poisoned (.mem key) = false →
      (∃ cs, exec (.klw b a d) s = .next (handlerGoesOn { s with caches := cs } (r.setReg d.toNat old) 4)) ∧
      (∀ x, s.keeperLine r.msg s.keeper.slice .write r.lineVa = .error x →
        let u := if x = .breach then s.freeze r.msg.vi 2 else s
        exec (.ksw b a d) s = .next (handlerAborts u r 3) ∧ exec (.kfadd b a d) s = .next (handlerAborts u r 3)) ∧
      (∀ l, s.keeperLine r.msg s.keeper.slice .write r.lineVa = .ok l → s.atHand true key = true →
        exec (.ksw b a d) s = .next (handlerGoesOn s { r with writes := r.writes ++ [(key, r.reg b.toNat)] } 4) ∧
        ∃ sum cs, exec (.kfadd b a d) s = .next (handlerGoesOn { s with caches := cs }
            (({ r with writes := r.writes ++ [(key, sum)] } : KeeperRun).setReg d.toNat old) 4) ∧
          sum = BitVec.ofNat 32 (Fmt.f32.finish .plain (sumExact .rne [Fmt.f32.decode old.toNat, Fmt.f32.decode (r.reg b.toNat).toNat])).code))) ∧
  (∀ (s : State) (r : KeeperRun) (b a d : BitVec 5), s.keeper.run = some r → r.count < 256 →
    exec (.kend b a d) s = .next { s with keeper := { s.keeper with
      run := none,
      held := s.keeper.held ++ [{ msg := r.msg, kind := 0, status := (r.reg a.toNat).toNat % 256, reply := Cells.readList r.scratch 64 64,
                                  lines := r.lines, writes := r.writes, at_ := s.sliceTime s.keeper.slice }] } }) ∧
  (∀ (s : State) (r : KeeperRun) (w : Word), s.keeper.run = some r → r.count < 256 →
    (rvDecode w = none → exec (.keeperBaseInstruction w) s = .next (handlerAborts s r 4)) ∧
    (∀ i, rvDecode w = some i → r.exec i (rvLength w) = none → exec (.keeperBaseInstruction w) s = .next (handlerAborts s r 4)) ∧
    (∀ i q, rvDecode w = some i → r.exec i (rvLength w) = some q →
      exec (.keeperBaseInstruction w) s = .next { s with keeper := { s.keeper with run := some q } } ∧ q.count = r.count + 1 ∧
        q.msg = r.msg ∧ q.lines = r.lines ∧ q.writes = r.writes ∧ q.reg 0 = r.reg 0))

/-- An unassigned word is an illegal instruction, a matrix word first needing the full mask (R160, R171, R243); PWR to `pincmd`, `tlbinv`
and `capinv` (R281, R444, R445) starts what the register starts (a pin once the lines of its table are at hand), keeping every register
of the wave, or is denied or traps. -/
def Obligations.IllegalWordsAndCommandRegisters : Prop :=
  (∀ (s : State) (w : Word),
    ((bitsN w.toNat 31 26 = 0x27 ∨ bitsN w.toNat 31 26 = 0x28) → s.wave.exm ≠ s.wave.lanes →
      exec (.illegalInstruction w) s = .next (s.takeTrap (s.wave.wholeTrap 0x03 none))) ∧
    ((bitsN w.toNat 31 26 ≠ 0x27 ∧ bitsN w.toNat 31 26 ≠ 0x28) ∨ s.wave.exm = s.wave.lanes →
      exec (.illegalInstruction w) s = .next (s.takeTrap (s.wave.wholeTrap 0x01 none)))) ∧
  (∀ (s : State) (a : BitVec 7) (f : Form), groupForm (.pwr a 0x00A) = some f → s.clears f →
    let x := s.wave.s a.toNat
    let ok := s.granted s.wave.env.vi s.wave.arch.mode 3 (bitsN x.toNat 2 0) 1
    (ok = false → exec (.pwr a 0x00A) s = .next (denial s)) ∧
    (ok = true → (∀ v, s.viAt s.wave.env.vi = some v → s.tableReady v true 0x10400 512 = true) →
      ∃ t, exec (.pwr a 0x00A) s = .next t ∧ (s.pinCommand s.wave.env.vi x).ran t [] [] [] false ∧
      t.wave.arch = { s.wave.arch with exm := s.wave.maskAfter })) ∧
  (∀ (s : State) (a : BitVec 7) (f : Form) (v : Vi), groupForm (.pwr a 0x00D) = some f → s.clears f → s.viAt s.wave.env.vi = some v →
    let x := s.wave.s a.toNat
    let mine := v.desc.asidBase ≤ x.toNat % 2 ^ 16 ∧ x.toNat % 2 ^ 16 < v.desc.asidBase + v.desc.asidCnt
    (mine → exec (.pwr a 0x00D) s = .next { s with wave := { s.wave with issued := true, waitInv := some (false, x) } }) ∧
    (¬mine → exec (.pwr a 0x00D) s = .next (s.takeTrap (s.wave.wholeTrap 0x18 none)))) ∧
  (∀ (s : State) (a : BitVec 7) (f : Form), groupForm (.pwr a 0x012) = some f → s.clears f →
    let x := s.wave.s a.toNat
    (x.toNat < 64 → exec (.pwr a 0x012) s = .next { s with wave := { s.wave with issued := true, waitInv := some (true, x) } }) ∧
    (64 ≤ x.toNat → exec (.pwr a 0x012) s = .next (s.takeTrap (s.wave.wholeTrap 0x01 none))))

/-- Example words of the spec decode to the instructions that it writes beside them; a word of no row, and one whose operands break the
limits of its row, do not decode. -/
def Obligations.ExampleWordsDecode : Prop :=
  (∀ x ∈ exampleWords, decodeWord x.1 = .ok x.2) ∧
  (∀ i, decodeWord 0 ≠ .ok i) ∧ (∀ i, decodeWord 0xFFFFFFFF ≠ .ok i) ∧
  decodeTableWord 32 0x0000100B = some (.klw 0 0 0) ∧ decodeTableWord 16 0 = none

/-- Decoding the word of a well-formed instruction gives the instruction back, for every row that has a word and every value of its
operands; the words of a keeper's own instructions by the keeper's decoder. -/
def Obligations.DecodingUndoesEncoding : Prop :=
  ∀ (i : Instr) (w : Word), i.WellFormed = true → encode i = some w →
    decodeTableWord 32 w.toNat = some i ∧
    ((∀ b a d, i ≠ .ksel b a d ∧ i ≠ .klw b a d ∧ i ≠ .ksw b a d ∧ i ≠ .kfadd b a d ∧ i ≠ .kend b a d) → decodeWord w = .ok i)

/-- What decodes is well formed, and encodes to the word that it was decoded from: no word stands for two instructions. -/
def Obligations.EncodingUndoesDecoding : Prop :=
  ∀ (i : Instr) (w : Word), decodeWord w = .ok i → i.WellFormed = true ∧ encode i = some w

/-- One step: when the next happening is the issue of the next word of a wave that may issue, the step is the meaning of the instruction
that the word decodes to, after the region entry that is due (R457); a word that decodes to nothing is an illegal instruction; an event
of the agenda is its meaning; with nothing waiting the device goes on by itself. A word placed for fetching is the next to issue. -/
def Obligations.StepRunsTheDecodedWord : Prop :=
  (∀ (s : State) (rest : List Happening) (i : Instr), s.agenda = .issue :: rest → s.wave.mayIssue = true →
    decodeWord (s.wave.pos.words.getD s.wave.pos.ridx 0) = .ok i →
    step s = Machine.settled (exec i (State.enterDue { s with agenda := rest }))) ∧
  (∀ (s : State) (rest : List Happening) (e : DecodeError), s.agenda = .issue :: rest → s.wave.mayIssue = true →
    decodeWord (s.wave.pos.words.getD s.wave.pos.ridx 0) = .error e →
    step s = Machine.settled (exec (.illegalInstruction (s.wave.pos.words.getD s.wave.pos.ridx 0)) (State.enterDue { s with agenda := rest }))) ∧
  (∀ (s : State) (rest : List Happening) (i : Instr), s.agenda = .op i :: rest →
    step s = Machine.settled (exec i { s with agenda := rest })) ∧
  (∀ (s : State) (rest : List Happening) (r : KeeperRun) (i : Instr), s.agenda = .keeper :: rest → s.keeper.run = some r →
    r.codeBase.toNat ≤ r.pc.toNat → r.pc.toNat < r.codeBase.toNat + r.code.length →
    decodeKeeper (fieldAt r.code (r.pc.toNat - r.codeBase.toNat) 4) = some i →
    step s = Machine.settled (exec i { s with agenda := rest })) ∧
  (∀ s : State, s.agenda = [] → step s = .next (s.goOn State.issueWord State.issueKeeper).settle) ∧
  (∀ (s : State) (w : Word) (i : Instr), isKeeperWord w.toNat = false → decodeWord w = .ok i → ∃ u : State,
    step (s.withFetchWord 32 w.toNat) = Machine.settled (exec i u) ∧ u.wave.arch = s.wave.arch ∧ u.mem = s.mem ∧ u.core = s.core)

/-- After reset (R22, R26): the device is off, memory reads zero and lists nothing, no VI, no grid, no operation, no message and no wave
exists, every port is untrained and every power block unpowered at operating point 0; the registers of the wave looked at are those of
a wave's start (R136). That unlisted memory reads zero is the model's choice (log entry 7). -/
def Obligations.ResetState : Prop :=
  let s := State.reset
  s.mem = [] ∧ (∀ p, s.byte p = 0) ∧ s.vis = [] ∧ s.grids = [] ∧ s.ops = [] ∧ s.net = [] ∧ s.waves = [] ∧ s.wave.status = .absent ∧
  s.agenda = [] ∧ s.platform.phase = .off ∧ (∀ x ∈ s.fabric.ports, x.state = .untrained) ∧
  (∀ b ∈ s.platform.blocks, b.powered = false ∧ b.point = 0) ∧ s.core.held = [] ∧ s.wave.ll = [] ∧
  (∀ r, s.wave.s r = 0) ∧ (∀ r l, s.wave.v r l = 0) ∧ (∀ p, s.wave.pred p = 0) ∧ s.wave.arch.fpc = 0 ∧
  s.wave.arch.mode = .user ∧ s.wave.arch.rvsp = 0x1000000000000000 ∧ s.wave.exm = s.wave.lanes ∧
  s.wave.ocx = 0 ∧ s.wave.ocm = 0 ∧ s.wave.ocg = 0 ∧ s.wave.ock = 0

/-- Memory is in its canonical form after reset: addresses strictly rising, no entry equal to what an unlisted address reads as. -/
def Obligations.MemoryIsCanonicalAtReset : Prop := State.reset.memInv

/-- Every step keeps memory in its canonical form, whatever happens in it. -/
def Obligations.MemoryStaysCanonical : Prop :=
  ∀ s t : State, s.memInv → step s = .next t → t.memInv

/-- Power and start-up (R18, R19, R22, R26, R27, R35 to R38): the start-up steps in their order, with where each failure ends; the removal
of power, which of the package keeps the flash alone; the upstream link's events; the operating points, which change nothing but their
block. Where the images lie in control memory and the layout of the management function's status are the model's (log entries 4 and
114). -/
def Obligations.StartUpAndPower : Prop :=
  (∀ (s : State) (i : StartupInputs), s.platform.phase = .off →
    let bs := Cells.readList s.platform.flash 0 352
    let failed := (List.range 8).filter fun k => i.hbmFailed.getLsbD k
    (i.romStarts = false → ∃ t, exec (.powerGood i) s = .next t ∧ t.platform.phase = .step 1 1) ∧
    (i.romStarts = true → i.flashReads = false → ∃ t, exec (.powerGood i) s = .next t ∧ t.platform.phase = .step 2 1) ∧
    (∀ o, i.romStarts = true → i.flashReads = true → recordFault bs = some o →
      ∃ t, exec (.powerGood i) s = .next t ∧ t.platform.phase = .recovery 2 o ∧ t.platform.functions = [0] ∧
        t.platform.mgmtStatus = BitVec.ofNat 64 (2 + o * 256)) ∧
    (i.romStarts = true → i.flashReads = true → recordFault bs = none →
      (2 ≤ failed.length ∨ i.controlFailed = true → ∃ t d, exec (.powerGood i) s = .next t ∧ t.platform.phase = .recovery 3 d) ∧
      (failed.length ≤ 1 → i.controlFailed = false →
        let good := i.imagesRead = true ∧ sha384 (Config.firmwareImage 0 s.platform.flash) = (bs.drop 0x80).take 48 ∧
          sha384 (Config.firmwareImage 1 s.platform.flash) = (bs.drop 0x50).take 48
        (¬good → ∃ t, exec (.powerGood i) s = .next t ∧ t.platform.phase = .recovery 4 0) ∧
        (good → i.diesReleased ≠ 3 → ∃ t, exec (.powerGood i) s = .next t ∧ t.platform.phase = .step 6 (i.diesReleased.toNat + 4)) ∧
        (good → i.diesReleased = 3 → ∃ t, exec (.powerGood i) s = .next t ∧ t.platform.phase = .up ∧ t.platform.linkUp = true ∧
          t.platform.functions = [0] ∧ t.platform.record = recordOf bs ∧ t.platform.deadStack = failed.head? ∧
          t.fabric.ports = portsOf (recordOf bs) ∧ t.platform.flash = s.platform.flash ∧
          t.platform.measurement = (bs.drop 0x50).take 48 ∧
          ∀ k, Cells.read (w := 8) t.mem k = overlaid (firmwareCells s (recordOf bs) 0 ++ firmwareCells s (recordOf bs) 1) s.released (.mem k))))) ∧
  (∀ (s : State) (d : Nat), d ≠ 0 →
    (s.platform.phase = .step 1 d → ∃ t, exec (.startupStepTimeout 1) s = .next t ∧ t.platform.phase = .romFailed) ∧
    (s.platform.phase = .step 2 d → ∃ t, exec (.startupStepTimeout 2) s = .next t ∧ t.platform.phase = .recovery 2 0x160) ∧
    (s.platform.phase = .step 6 d → ∃ t, exec (.startupStepTimeout 6) s = .next t ∧ t.platform.phase = .recovery 6 (3 - (d - 4)))) ∧
  (∀ s : State, ∃ t, exec .powerRemoval s = .next t ∧ hostMemoryOf s t ∧ t.caches = [] ∧ t.vis = [] ∧ t.grids = [] ∧ t.ops = [] ∧ t.waves = [] ∧
    t.wave.status = .absent ∧ t.platform = { Platform.reset with flash := s.platform.flash }) ∧
  (∀ (s : State) (i : Instr), i = .upstreamHotReset ∨ i = .linkDown →
    (s.platform.phase = .up → s.platform.record.selfHosted = false →
      ∃ t, exec i s = .next t ∧ t.platform.phase = .step 1 0 ∧ hostMemoryOf s t ∧ t.vis = [] ∧ t.platform.flash = s.platform.flash) ∧
    (s.platform.phase = .up → s.platform.record.selfHosted = true →
      ∃ t, exec i s = .next t ∧ t.platform = { s.platform with linkUp := false, functions := [], mappings := [], config := [] } ∧
        t.mem = s.mem ∧ ∀ r ∈ t.hub.hostHeld, r.control = true)) ∧
  (∀ s : State, s.platform.phase = .up → s.platform.linkUp = false →
    ∃ t, exec .upstreamLinkUp s = .next t ∧ t.platform.linkUp = true ∧ t.platform.functions = 0 :: s.viFunctions ∧ t.vis = s.vis ∧
      t.mem = s.mem) ∧
  (∀ (s : State) (vi : Nat), s.platform.linkUp = true → vi + 1 ∈ s.platform.functions →
    exec (.functionLevelReset vi) s = .next { s with
      platform := { s.platform with mappings := s.platform.mappings.filter (· != vi),
                                    config := s.platform.config.filter (·.1 != vi + 1) },
      hub := { s.hub with events := s.hub.events ++ [.functionReset vi] } }) ∧
  (∀ (s : State) (b p : Nat), (∃ x ∈ s.platform.blocks, x.block = b ∧ x.powered = true) →
    let becomes := fun (i : Instr) (f : PowerBlock → PowerBlock) =>
      exec i s = .next { s with platform := { s.platform with blocks := s.platform.blocks.map fun x => if x.block = b then f x else x } }
    becomes (.operatingPointLower b) (fun x => { x with point := x.point - 1 }) ∧
    becomes (.operatingPointRaise b) (fun x => { x with gated := false, point := min (x.point + 1) (min x.ceiling 7) }) ∧
    (p ≤ 7 → becomes (.operatingPointCeiling b p) (fun x => { x with ceiling := p, point := min x.point p })))

/-- The virtual interfaces and their launch queues (R28 to R34, R97 to R101, R440): what building, starting, freezing, resuming and tearing
down do to the VI, what a kick and a write of a status register do to a queue; an access without the right freezes the VI and has no
other effect. -/
def Obligations.VirtualInterfacesAndQueues : Prop :=
  (∀ (s : State) (vi : Nat) (d : ViDesc), s.platform.phase = .up → vi < 64 → s.viAt vi = none → descGood d = true →
    (s.descFits d = true → ∃ t, exec (.viBuild vi d) s = .next t ∧ t.vis = s.vis ++ [Vi.built vi s.pkg d] ∧ t.mem = s.mem) ∧
    (s.descFits d = false → exec (.viBuild vi d) s = .next s)) ∧
  (∀ (s : State) (vi : Nat) (v : Vi), s.viAt vi = some v →
    (v.phase = .built → s.tableReady v false 0x10000 (32 * v.desc.qcount) = true → ∃ t, exec (.viStart vi) s = .next t ∧
      t.viAt vi = some { v with phase := .active, queues := v.queues.map fun x => x.start (s.queueDesc v x.q) } ∧ t.mem = s.mem) ∧
    (v.phase = .active → ∃ t, exec (.freezeRequest vi) s = .next t ∧ t.viAt vi = some { v with phase := .frozen, fcause := 4 } ∧
      t.mem = s.mem ∧ t.core = s.core ∧ t.wave = s.wave) ∧
    (v.phase = .frozen → ∃ t, exec (.freezeRequest vi) s = .next t ∧ t.viAt vi = some { v with fcount := min 65535 (v.fcount + 1) }) ∧
    (v.phase = .frozen → v.preempt = none → ∃ t x, exec (.viResume vi) s = .next t ∧ t.viAt vi = some x ∧ x.phase = .active ∧
      x.fcause = 0 ∧ x.fcount = 0 ∧ x.kicks = [] ∧ t.mem = s.mem ∧ ∀ w ∈ t.allWaves, w.env.vi = vi → w.stop ≠ some .frozen) ∧
    (v.phase = .built ∨ v.phase = .active ∨ v.phase = .frozen → ∃ t x, exec (.viTeardown vi) s = .next t ∧ t.viAt vi = some x ∧
      x.phase = .teardown ∧ (∀ p ∈ x.pins, p.lines = []) ∧ (∀ g ∈ t.grids, g.vi ≠ vi) ∧ (∀ o ∈ t.ops, o.env.vi ≠ vi) ∧ t.mem = s.mem) ∧
    (v.phase = .teardown → s.worksFor vi = false → ∃ t, exec (.teardownComplete vi) s = .next t ∧ t.viAt vi = none ∧ t.mem = s.mem ∧
      (∀ c ∈ t.core :: t.cores, c.vi ≠ some vi) ∧ (∀ e ∈ t.hub.endpoints, e.vi ≠ some vi) ∧ ∀ e ∈ t.tlbs, e.vi ≠ vi) ∧
    (v.phase = .teardown → s.worksFor vi = true → exec (.teardownComplete vi) s = .next s)) ∧
  (∀ (s : State) (r : WaveRef) (w : Wave) (v : Vi) (c : Nat), s.waveAt r = some w → w.svStart = some c → s.viAt w.env.vi = some v →
    v.phase = .active → c + v.desc.svBudget ≤ s.coreTime w.core →
    ∃ t, exec (.supervisorBudgetExpiry r) s = .next t ∧ t.viAt v.vi = some { v with phase := .frozen, fcause := 3 } ∧ t.mem = s.mem) ∧
  (∀ (s : State) (vi q : Nat) (v : Vi) (x : Queue) (n : DWord) (o : Origin), s.viAt vi = some v → s.pageReached vi o = true →
    v.queueAt q = some x →
    let right := match o with
      | .host => 3
      | .controlCore => 4
    let kick := s.granted vi .supervisor 1 q right
    let command := s.granted vi .supervisor 1 q 5 && kick
    (kick = false → exec (.kick vi q n o) s = .next (s.freeze vi 1)) ∧
    (kick = true → v.phase = .frozen ∨ v.preempt.isSome = true →
      exec (.kick vi q n o) s = .next (s.setVi { v with kicks := v.kicks ++ [(q, n)] })) ∧
    (kick = true → v.phase ≠ .frozen → v.preempt = none →
      let ahead := (n.toNat + 2 ^ 32 - x.k) % 2 ^ 32
      let filled := (n.toNat + 2 ^ 32 - x.qacc) % 2 ^ 32
      (x.qst ≠ 1 ∨ x.deviceFed = true ∨ 2 ^ 32 ≤ n.toNat ∨ ahead = 0 ∨ 2 ^ 31 ≤ ahead →
        exec (.kick vi q n o) s = .next (s.setVi (v.setQueue x))) ∧
      (x.qst = 1 → x.deviceFed = false → n.toNat < 2 ^ 32 → 0 < ahead → ahead < 2 ^ 31 →
        (2 ^ x.log < filled → exec (.kick vi q n o) s = .next (s.setVi (v.setQueue { x with qst := 3 }))) ∧
        (filled ≤ 2 ^ x.log → exec (.kick vi q n o) s = .next (s.setVi (v.setQueue { x with k := n.toNat }))))) ∧
    (command = false → exec (.queueStart vi q o) s = .next (s.freeze vi 1) ∧ exec (.queueStop vi q o) s = .next (s.freeze vi 1)) ∧
    (command = true → v.phase = .active →
      (s.tableReady v false (0x10000 + 32 * q) 32 = true →
        exec (.queueStart vi q o) s = .next (s.setVi (v.setQueue (x.start (s.queueDesc v q))))) ∧
      exec (.queueStop vi q o) s = .next (s.setVi (v.setQueue { x with qst := 0, waitSince := none }))) ∧
    (command = true → v.phase ≠ .active → exec (.queueStart vi q o) s = .next s ∧ exec (.queueStop vi q o) s = .next s))

/-- The launch engine (R102 to R111, R114 to R119, R125, R136 to R139, R245, R246, R260, R264, R476 to R482): a slot that matches is
accepted or rejected, one that does not is waited for and then given up; a chosen reach is placed; a placed reach and a ferry grid start
their waves with the registers of R136; a bin starts a wave; a team and a grid end. -/
def Obligations.LaunchEngineEvents : Prop :=
  (∀ (s : State) (vi n : Nat) (v : Vi) (q : Queue), s.viAt vi = some v → v.queueAt n = some q → s.mayRead v q = true →
    (∀ x ∈ v.queues, x.q < n → s.matches v x = false) →
    let after := { q with qacc := q.e, e := (q.e + 1) % 2 ^ 32, waitSince := none }
    let open_ := ∀ a, q.waitSince = some a → s.clock.us < a + 10
    let stale : Out := .next (withQueue s v { q with qst := 2, waitSince := none })
    (∀ bs, open_ → s.fetchBytes v q.slot 128 = .ok bs → fieldAt bs 0 4 ≠ q.e →
      exec (.slotRead vi n) s = .next (withQueue s v { q with waitSince := q.waitSince.or (some s.clock.us) })) ∧
    (∀ bs c, open_ → s.fetchBytes v q.slot 128 = .ok bs → fieldAt bs 0 4 = q.e → s.checkRecord v q bs = .ok c →
      ∃ t g x, exec (.slotRead vi n) s = .next t ∧ t.grids = s.grids ++ [g] ∧ g.vi = vi ∧ g.q = q.q ∧ g.order = v.accepted ∧
        g.record = c.record ∧ g.reaches = reachesOf c.record ∧ t.viAt vi = some x ∧ x.queueAt n = some after ∧
        x.accepted = v.accepted + 1 ∧ t.mem = s.mem) ∧
    (∀ bs, open_ → s.fetchBytes v q.slot 128 = .ok bs → fieldAt bs 0 4 = q.e → s.checkRecord v q bs = .error .bad →
      q.deviceFed = false →
      let place := BitVec.ofNat 64 (fieldAt bs 0x30 8)
      (place = 0 → ∃ t, exec (.slotRead vi n) s = .next t ∧ t.vis = (withQueue s v after).vis ∧ t.grids = s.grids ∧ t.mem = s.mem) ∧
      (∀ ps, place ≠ 0 → s.completionPlaces v place = .ok ps →
        ∃ t, exec (.slotRead vi n) s = .next t ∧ t.vis = (withQueue s v after).vis ∧ t.grids = s.grids ∧
          t.mem = (s.setBytes ps (bytesOf 4 (2 ^ 31 + 1) ++ bytesOf 4 (fieldAt bs 0 4) ++ List.replicate 8 0)).mem)) ∧
    (s.fetchBytes v q.slot 128 = .error .bad →
      exec (.slotRead vi n) s = .next (withQueue s v { q with qst := 4, waitSince := none })) ∧
    (∀ a, q.waitSince = some a → a + 10 ≤ s.clock.us → exec (.staleKickTimeout vi n) s = stale ∧
      ∀ bs, s.fetchBytes v q.slot 128 = .ok bs → exec (.slotRead vi n) s = stale)) ∧
  (∀ (s : State) (g : Grid) (x : Reach) (w : List (List Nat)), s.chosen = some (g, x, w) →
    g ∈ s.candidates ∧ s.allowed s.candidates g = true ∧ g.nextReach = some x ∧ s.choose g x = some w ∧
    (∀ h ∈ s.candidates, s.allowed s.candidates h = true → (∃ y z, h.nextReach = some y ∧ s.choose h y = some z) →
      h.id = g.id ∨ s.before g h = true) ∧
    ∃ t g' , exec .dispatch s = .next t ∧ t.gridAt g.id = some g' ∧ g'.passedSince = none ∧ g'.reservedAt = none ∧
      (∀ y ∈ g'.reaches, y.index = x.index → y.phase = .placed ∧ y.teams.map (fun u => (u.team, u.cores)) = (x.teams.map (·.team)).zip w) ∧
      t.launch.pointers = s.launch.pointers.set g.record.prio ((g.vi * 32 + g.q + 1) % 2048) ∧ t.mem = s.mem ∧
      t.allWaves = s.allWaves) ∧
  (∀ (s : State) (g : Grid) (a n : Nat), s.candidates.find? (·.id == n) = some g → g.passedSince = some a →
    a + Config.reserveWait ≤ s.uncore → g.reservedAt = none →
    exec (.candidateReserved n) s = .next { s with grids := s.grids.map fun x =>
      if x.id = g.id then { g with reservedAt := some (a + Config.reserveWait) } else x }) ∧
  (∀ (s : State) (grid n : Nat) (g : Grid) (x : Reach), s.gridAt grid = some g → g.reachAt n = some x → x.phase = .placed →
    g.record.ferry = false → s.dispatches g.vi = true → slotsApart s g x →
    ∃ t, exec (.reachStart grid n) s = .next t ∧ runs t grid n ∧ t.mem = s.mem ∧
      ∀ u ∈ x.teams, ∀ k < g.record.waves, startsAs s t g x u k .ready) ∧
  (∀ (s u : State) (grid : Nat) (g : Grid) (m : SegmentMap) (x : Reach) (v : Vi), s.gridAt grid = some g → g.map = some m →
    g.reachAt 0 = some x → s.viAt g.vi = some v → x.phase = .placed → s.dispatches g.vi = true → s.loadSegments v g m x.teams = .ok u →
    slotsApart s g x →
    ∃ t, exec (.ferryGridStart grid) s = .next t ∧ runs t grid 0 ∧
      ∀ y ∈ x.teams, ∀ k < g.record.waves,
        startsAs s t g x y k (if some y.team = (m.entry 0).map (·.primary) then .ready else .exited)) ∧
  (∀ (s : State) (core n : Nat) (b : Bin), (s.coreAt core).bins.find? (·.index == n) = some b → b.left = some 1 →
    exec (.spawnBinTimeout core n) s = .next (s.setCore { s.coreAt core with bins := (s.coreAt core).bins.map fun x =>
      if x.index = b.index then { b with left := some 0 } else x })) ∧
  (∀ (s : State) (core n : Nat) (b : Bin) (w : Wave), (s.coreAt core).bins.find? (·.index == n) = some b →
    leastBy (·.env.waveid) (s.exitedWaves b.grid b.team) = some w → b.lanes ≠ [] → (∀ l ∈ b.lanes, l.held = false) →
    w.env.wavew ≤ b.lanes.length ∨ b.left = some 0 ∨ b.markedReady = true → s.viRuns w.env.vi = true →
    ∃ t y, exec (.binWaveStart core n) s = .next t ∧ t.mem = s.mem ∧ t.waveAt ⟨w.core, w.slot⟩ = some y ∧ y.status = .ready ∧
      y.env = w.env ∧ y.pos = .at (w.env.image + BitVec.ofNat 64 b.entry) ∧
      y.arch = { w.env.startArch (lowMask b.lanes.length) with vregs := binVectors b.lanes, preds := binPreds b.lanes } ∧
      (t.coreAt core).bins.find? (·.index == n) =
        (if b.sticky then some { b with lanes := [], left := none, markedReady := false } else none)) ∧
  (∀ (s : State) (grid team : Nat) (g : Grid) (x : Reach) (u : TeamState), s.gridAt grid = some g → g.reachOfTeam team = some x →
    g.teamAt team = some u → x.phase = .running → u.ended = false → s.teamIdle grid team = true → (s.children grid team).1 = 0 →
    s.dispatches g.vi = true → (g.record.ferry = true → s.ferryStill g = true) →
    ∃ t g', exec (.teamComplete grid team) s = .next t ∧ t.gridAt grid = some g' ∧ t.mem = s.mem ∧
      g'.perr = min 65535 (g.perr + (s.children grid team).2) ∧ (∀ y ∈ g'.reaches, ∀ z ∈ y.teams, z.team = team → z.ended = true) ∧
      (∀ w ∈ t.allWaves, w.env.grid = grid → w.env.team = team → w.status = .absent) ∧
      (∀ c ∈ t.core :: t.cores, ∀ r ∈ c.residents, ¬(r.grid = grid ∧ r.team = team)) ∧
      (∀ e i, u.entry = some i → s.launch.entryAt i = some e →
        t.launch.entryAt i = some { e with inUse := false, gen := e.gen + 1, outstanding := 0, perr := 0 })) ∧
  (∀ (s : State) (grid : Nat) (g : Grid) (v : Vi), s.gridAt grid = some g → s.viAt g.vi = some v →
    (∀ x ∈ g.reaches, x.phase = .ended) → (∀ o ∈ s.ops, o.env.grid = grid → o.ended = true) → s.dispatches g.vi = true →
    (g.record.compl = 0 → ∃ t, exec (.gridRetire grid) s = .next t ∧ t.mem = s.mem ∧ t.grids = s.grids.filter fun x => x.id != grid) ∧
    (∀ ps, g.record.compl ≠ 0 → s.completionPlaces v g.record.compl = .ok ps →
      ∃ t, exec (.gridRetire grid) s = .next t ∧ (t.grids = s.grids.filter fun x => x.id != grid) ∧
        t.mem = (s.setBytes ps (bytesOf 4 (2 ^ 31 + (if g.failed then 2 else if g.cefail ≠ 0 then 3 + g.firstFail * 2 ^ 8 else 0)) ++
          bytesOf 4 g.record.lseq ++ bytesOf 2 g.perr ++ bytesOf 2 g.cefail ++ bytesOf 1 g.creln ++ bytesOf 3 0)).mem))

/-- Waves between instructions (R142, R144, R146, R149 to R154, R156, R251, R258, R318, R403, R404): the start of a clause with its traps
and departures, fills, lookouts, the age limit, completions, the exit, prefetches and occupancy samples. -/
def Obligations.ClausesAndCompletions : Prop :=
  (∀ (s u : State) (r : WaveRef), s.focus r = some u → mayBegin u →
    (u.wave.fellX = true → exec (.clauseStart r) s = .next (fetchTrap u 0x10 u.wave.pos.pc)) ∧
    (∀ c a, u.wave.fellX = false → u.leaves = false → u.clauseAt u.wave.pos.pc = .error (c, a) → c ≠ causePartition →
      exec (.clauseStart r) s = .next (fetchTrap u c a)) ∧
    (∀ h ws, u.wave.fellX = false → u.leaves = false → u.clauseAt u.wave.pos.pc = .ok (h, ws) → u.wave.badResume = none →
      u.wave.pos.mid = true ∨ u.wave.waits h = false →
      (hdrLegal h = false → exec (.clauseStart r) s = .next (u.takeTrap (u.wave.wholeTrap 0x02 none))) ∧
      (hdrLegal h = true → exec (.clauseStart r) s = .next { u with wave := { u.wave with
        pos := { u.wave.pos with header := h, words := ws }, status := .inClause, hints := [], yielded := false, boostedAt := none,
        issued := false, entryDue := u.wave.entryDue || (hdrW h && !u.wave.pos.mid),
        issueSlot := if u.waves.any (fun x => x.core == u.wave.core && decide (x.status = .inClause) && x.issueSlot == 0) then 1
          else 0 } })) ∧
    (∀ seg g j, u.wave.fellX = false → u.leaves = true → u.wave.ll = [] → u.wave.arch.mode = .user →
      u.wave.env.segmentOf u.wave.pos.pc = some seg → u.gridAt u.wave.env.grid = some g → u.landingTeam g seg = some j →
      u.core.departure.length + (u.net.filter fun t => t.src == u.core.id).length + u.wave.active.length ≤ 256 →
      exec (.clauseStart r) s = .next (let x := holding u .exit
        { x with wave := { u.wave with status := .exiting, hints := [], issued := false },
                 core := { x.core with departure := joined u (departing u u.wave.pos.pc seg j) } }))) ∧
  (∀ (s u : State) (r : WaveRef), s.focus r = some u → u.wave.between = true →
    (u.wave.lookoutOver = true → exec (.clauseStart r) s = .next { u with wave := u.wave.endLookout }) ∧
    (u.mayStart = true → u.wave.lookoutOf = none → u.wave.boostedAt = none → (∃ a, u.wave.unserved = some a ∧ a + 4096 ≤ u.now) →
      exec (.waveBoost r) s = .next { u with wave := { u.wave with boostedAt := some u.now } }) ∧
    (u.needsFill = true → u.wave.fellX = false → (∀ p ∈ u.clausePlaces u.wave.pos.pc, u.available false p = true) →
      (∀ h ws, u.readClause u.wave.pos.pc = .ok (h, ws) → (∀ p ∈ u.clausePlaces u.wave.pos.pc, u.poisoned p = false) →
        exec (.fetchFillComplete r) s = .next { u with core := { u.core with istore := u.core.istore ++
          [{ vi := u.wave.env.vi, grid := u.wave.env.grid, addr := u.wave.pos.pc, header := h, words := ws }] } }) ∧
      (∀ c a, u.readClause u.wave.pos.pc = .error (c, a) → c ≠ causePartition →
        exec (.fetchFillComplete r) s = .next (fetchTrap u c a)))) ∧
  (∀ (s u : State) (r : WaveRef) (pc : DWord) (lo hi slot : Nat), s.focus r = some u → u.wave.status = .inClause → u.wave.pos.mid = false →
    u.wave.pos.ridx = 0 → u.wave.hints = [] → u.wave.issued = false → u.wave.env.lookouts = true → u.wave.env.ferry = false →
    u.wave.lookoutOf = none → u.wave.arch.mode = .user → (∀ x ∈ u.lookoutsHere, x.lookoutOf ≠ some u.wave.slot) →
    u.dispatches u.wave.env.vi = true → u.sliceFor u.wave.env u.wave.pos.pc = some (pc, lo, hi) → u.lookoutSlot = some slot →
    ∃ t x, exec (.lookoutStart r) s = .next t ∧ t.mem = s.mem ∧ t.waveAt ⟨u.wave.core, slot⟩ = some x ∧ x.lookoutOf = some u.wave.slot ∧
      x.pos = .at pc ∧ x.status = .ready ∧ x.arch.sregs = u.wave.arch.sregs ∧ x.arch.vregs = u.wave.arch.vregs ∧
      x.arch.preds = u.wave.arch.preds ∧ x.arch.exm = u.wave.arch.exm ∧ x.arch.fpc = u.wave.arch.fpc ∧ x.arch.rvsp = rvspStart ∧
      x.arch.mode = .user ∧ x.env = u.wave.env) ∧
  (∀ (s u : State) (r : WaveRef), s.focus r = some u → u.wave.lookoutOf ≠ none → u.wave.status = .ready →
    u.wave.lookoutStart + 65536 ≤ u.now → exec (.lookoutTimeout r) s = .next { u with wave := u.wave.endLookout }) ∧
  (∀ (s : State) (r : WaveRef) (w : Wave) (o : LongOp) (id : Nat), s.waveAt r = some w → w.ll.find? (·.id == id) = some o → o.left = 0 →
    ∃ t x, exec (.longLatencyComplete r id) s = .next t ∧ t.waveAt r = some x ∧ t.mem = s.mem ∧
      x.arch = o.rest.foldl Arch.land w.arch ∧ (x.ll = w.ll.filter fun y => y.id != id) ∧ x.pos = w.pos ∧ x.status = w.status) ∧
  (∀ (s u t : State) (r : WaveRef) (i : Instr), s.focus r = some u → u.wave.status = .stalled → u.wave.stop = none → u.running = true →
    u.wave.pending = none → canStall i = true → encode i = some (u.wave.pos.words.getD u.wave.pos.ridx 0) → exec i u = .next t →
    t.wave.status ≠ .stalled → exec (.terminalInstructionComplete r) s = .next t) ∧
  (∀ (s : State) (b : BarrierRef), (s.allWaves.map fun w => (w.core, w.slot)).Nodup →
    (∃ w ∈ s.allWaves, barrierCounts b w = true) → (∀ w ∈ s.allWaves, barrierCounts b w = true → barrierArrived b w = true) →
    ∃ t, exec (.barrierComplete b) s = .next t ∧ t.mem = s.mem ∧
      ∀ w ∈ s.allWaves, barrierCounts b w = true → w.status = .stalled →
        ∃ x, t.waveAt ⟨w.core, w.slot⟩ = some x ∧ x.arrival = none ∧ x.status ≠ .stalled ∧
          x.readySince = s.coreTime w.core + (if b.reachLevel then 12 else 4) ∧ x.arch = { w.arch with exm := w.maskAfter }) ∧
  (∀ (s : State) (r : WaveRef) (w : Wave) (h : Held), s.waveAt r = some w →
    (s.coreAt r.core).held.head? = some h → h.slot = r.slot → h.kind = .exit → h.at_ + 64 ≤ s.coreTime r.core →
    (∀ x, (s.coreAt r.core).struck = some x → h.at_ < x) →
    ∃ t x, exec (.exitTakesEffect r) s = .next t ∧ t.mem = s.mem ∧ t.waveAt r = some x ∧ x.status = .exited ∧ x.ll = [] ∧
      ((t.coreAt r.core).held = (s.coreAt r.core).held.filter fun y => !(y.slot == r.slot && decide (y.kind = .exit))) ∧
      ∀ o ∈ t.ops, o.core = r.core → o.slot = r.slot → o.orphan = true) ∧
  (∀ (s : State) (core n : Nat) (p : Prefetch), (s.coreAt core).prefetches[n]? = some p →
    (∀ q ∈ (s.coreAt core).prefetches, q.prio ≤ p.prio) →
    ∃ cs, exec (.prefetchComplete core n) s =
      .next { s.setCore { s.coreAt core with prefetches := (s.coreAt core).prefetches.eraseIdx n } with caches := cs }) ∧
  (∀ (s : State) (core : Nat), exec (.landingOccupancySample core) s =
    .next (s.setCore { s.coreAt core with occSample := (s.coreAt core).landing.length, occAt := s.uncore }))

/-- Traps that come from outside an instruction (R310, R428, R430, R439, R440, R442): a kept trap, an engine failure, the watchdog, a
single step; each is entered once nothing that comes first is due, with its cause word and the boundary bit. -/
def Obligations.BoundaryTraps : Prop :=
  (∀ (s u : State) (r : WaveRef) (t : Trap) (v : Vi), s.focus r = some u → u.wave.pending = some t → u.wave.ll = [] →
    u.viAt u.wave.env.vi = some v → v.phase = .active ∨ u.wave.arch.mode = .hypervisor →
    exec (.trapEntry r) s = .next (State.enterTrap { u with wave := { u.wave with pending := none } } t)) ∧
  (∀ (s u : State) (r : WaveRef) (f : EngineFailure) (fs : List EngineFailure), s.focus r = some u → u.wave.failures = f :: fs →
    atBoundary u → u.wave.arch.mode ≠ .hypervisor →
    let taken := fun c : Nat => boundaryTaken { u with
      free := u.free + 1,
      wave := { u.wave with failures := fs, entries := u.wave.entries.map fun e => { e with taken := e.taken ++ [f] } } }
      (BitVec.ofNat 32 (0x12 + statusCode f.status * 2 ^ 8 + c * 2 ^ 16 + f.stream * 2 ^ 18))
    (∀ c, f.counter = some c → exec (.engineFailureTrap r) s = .next (taken c)) ∧
    (f.counter = none → ∃ n, n < 4 ∧ exec (.engineFailureTrap r) s = .next (taken n))) ∧
  (∀ (s : State) (r : WaveRef) (w : Wave) (v : Vi), s.waveAt r = some w → w.arch.wdog = 1 → w.arch.mode = .user → w.live = true →
    w.stop = none → s.viAt w.env.vi = some v → v.phase = .active →
    exec (.watchdogExpiry r) s = .next (s.putWave { w with expiryDue := true, arch := { w.arch with wdog := 0 } })) ∧
  (∀ (s u : State) (r : WaveRef) (v : Vi), s.focus r = some u → atBoundary u → u.wave.arch.mode = .user → u.wave.expiryDue = true →
    u.wave.failures = [] → u.viAt u.wave.env.vi = some v →
    (v.desc.svBudget ≠ 0 → exec (.watchdogTrap r) s =
      .next (boundaryTaken { u with wave := { u.wave with expiryDue := false } } 0x28)) ∧
    (v.desc.svBudget = 0 → u.wave.svStart = none → 0 < u.wave.env.wavew →
      ∃ t x, exec (.watchdogTrap r) s = .next t ∧ t.viAt u.wave.env.vi = some x ∧ x.phase = .frozen ∧
        x.fcause = if u.pushBreaks = true then 2 else 3)) ∧
  (∀ (s u : State) (r : WaveRef), s.focus r = some u → u.wave.stepDue = true → u.wave.arch.mode = .user →
    (atBoundary u ∧ u.wave.failures = [] ∧ u.wave.expiryDue = false) ∨
      (u.wave.status = .inClause ∧ u.wave.hints = [] ∧ u.wave.issued = false ∧ u.wave.stop = none ∧ u.wave.pending = none ∧
        u.wave.waitInv = none ∧ u.wave.lookoutOf = none ∧ u.wave.ll = [] ∧ u.running = true) →
    exec (.singleStepTrap r) s = .next (boundaryTaken { u with wave := { u.wave with stepDue := false } } 0x39))

/-- Travellers, landing queues and replication (R257 to R262, R266): a traveller departs and is offered again in order, is accepted or
goes back to its buffer, enters its bin from the landing queue; the overflow area is drained; a hot segment gets a spare as a replica. -/
def Obligations.TravellersLandAndSegmentsReplicate : Prop :=
  (∀ (s : State) (core n j k : Nat) (t : Traveller) (g : Grid),
    let c := s.coreAt core
    c.departure[n]? = some t → s.gridAt t.grid = some g → s.landingTeam g t.seg = some j → g.coreOf j = some k → s.viRuns g.vi = true →
    (∀ x ∈ c.departure.take n, ¬(x.grid = t.grid ∧ x.team = j ∧ x.offerAt ≠ 0)) → c.leftAt ≤ s.coreTime core →
    let x : Traveller := { t with team := j, offerAt := 0, tag := s.ids }
    let off : State := { s.setCore { c with departure := c.departure.eraseIdx n, leftAt := s.coreTime core + 1 } with
      ids := s.ids + 1, net := s.net ++ [x] }
    let sent : Out := .next (if chanStop k = chanStop t.src then off else off.toRing (x.msg g.vi k))
    (t.offerAt = 0 → (∀ i y, i < n → c.departure[i]? = some y → y.offerAt = 0 → s.sendTo c i y = none) →
      t.made + 64 ≤ s.coreTime core → (∀ y, c.struck = some y → t.made < y) → (∀ h ∈ c.held, t.made < h.at_) →
      exec (.travellerDepart core) s = sent) ∧
    (t.offerAt ≠ 0 → t.offerAt ≤ s.uncore → exec (.travellerReoffer core n) s = sent)) ∧
  (∀ (s : State) (n k : Nat) (t : Traveller) (g : Grid), s.net[n]? = some t → s.gridAt t.grid = some g → g.coreOf t.team = some k →
    (∀ x ∈ s.net.take n, ¬(x.src = t.src ∧ x.grid = t.grid ∧ x.team = t.team)) →
    chanStop k = chanStop t.src ∨ (∃ m ∈ s.ring.ejected, m.cls = 5 ∧ m.seq = t.tag) →
    let room := (s.coreAt k).landing.length < 2048 ∧ s.overflowEmpty g t.team = true
    let off : State := { s with net := s.net.eraseIdx n, ring := s.ring.without (· == t.tag) }
    (room → exec (.travellerArrival n) s =
      .next (off.setCore { s.coreAt k with landing := (s.coreAt k).landing ++ [t] })) ∧
    (¬room → exec (.travellerArrival n) s = .next (off.setCore { s.coreAt t.src with
      departure := { t with offerAt := s.uncore + 64 } :: (s.coreAt t.src).departure }))) ∧
  (∀ (s u : State) (core team w r x : Nat) (g : Grid),
    let c := s.coreAt core
    let e := s.ferryEnv g
    let a := e.overflowArea team
    s.ferryTeam c = some (g, team) → s.hubRead e a 8 = some w → s.hubRead e (a + 8) 8 = some r → w ≠ r → c.landing.length < 2048 →
    s.viRuns g.vi = true → s.hubRead e (a + BitVec.ofNat 64 (64 + 128 * (r % e.overflowRoom))) 128 = some x →
    s.hubWrite e (a + 8) (bytesOf 8 (r + 1)) = some u →
    exec (.overflowTake core) s = .next (u.setCore { c with landing := c.landing ++ [travellerOf g.id (bytesOf 128 x)] })) ∧
  (∀ (s : State) (core i : Nat) (t : Traveller) (ts : List Traveller) (g : Grid) (d : Core),
    (s.coreAt core).landing = t :: ts → s.gridAt t.grid = some g → s.viRuns g.vi = true →
    (s.coreAt core).enterBin t.grid t.team t.entry g.record.width { regs := t.regs, preds := t.preds, held := false } = some (d, i) →
    exec (.landingQueueAdvance core) s = .next (s.setCore { d with landing := ts })) ∧
  (∀ (s : State) (grid seg team since : Nat) (ts : List Nat) (g : Grid) (m : SegmentMap) (x : SegmentEntry),
    s.gridAt grid = some g → g.map = some m → m.entry seg = some x → m.spare = team :: ts → x.hotSince = some since →
    m.high ≠ 0 → (∀ y ∈ x.primary :: x.replicas, ∃ c, g.coreOf y = some c ∧ m.high ≤ (s.coreAt c).landing.length) →
    (∀ c, g.coreOf x.primary = some c → since + m.dwell * 1024 ≤ s.coreTime c) → x.replicas.length < 3 → x.loading = none → s.viRuns g.vi = true →
    exec (.segmentReplication grid seg) s =
      .next (s.setSegment g { m with spare := ts } { x with loading := some team })) ∧
  (∀ (s : State) (grid seg team c : Nat) (bs : List Byte) (g : Grid) (m : SegmentMap) (x : SegmentEntry) (v : Vi),
    s.gridAt grid = some g → g.map = some m → m.entry seg = some x → x.loading = some team → s.viAt g.vi = some v → s.viRuns g.vi = true →
    s.segmentBytes v g seg = .ok bs → g.coreOf team = some c →
    ∃ t, exec (.replicaLoadComplete grid seg) s = .next t ∧ (t.coreAt c).segment = some seg ∧ (t.coreAt c).segText = bs ∧
      ∃ h n y, t.gridAt grid = some h ∧ h.map = some n ∧ n.entry seg = some y ∧ y.replicas = (x.addReplica team).replicas ∧
        (∀ r, r ∈ y.replicas ↔ r = team ∨ r ∈ x.replicas) ∧ y.loading = none ∧ y.primary = x.primary)

/-- Pin windows, ownership regions and keepers (R281, R284 to R289, R465): the outcomes of a pin and an unpin command, the counts that
a finished pin writes, the change of a region's owner, the start, the failures, the release and the strike of a handler. -/
def Obligations.PinsRegionsAndKeepers : Prop :=
  (∀ (s : State) (vi w : Nat) (v : Vi), s.viAt vi = some v → w < 8 → s.tableReady v true 0x10400 512 = true →
    let st := s.pinField v w 0x20 1
    (v.desc.pinWin ≤ w ∨ st = 1 ∨ st = 3 → exec (.pincmdPin vi w) s = .next s ∧ exec (.pincmdUnpin vi w) s = .next s) ∧
    (w < v.desc.pinWin → st ≠ 1 → st ≠ 3 →
      ∃ cs, exec (.pincmdUnpin vi w) s = .next (State.pinCounts { s with
        caches := cs,
        vis := s.vis.map fun x => if x.vi = vi then { v with pins := v.pins.filter (·.w != w) } else x } v w 0 0 0 0)) ∧
    (w < v.desc.pinWin → st ≠ 1 → st ≠ 3 →
      let u := if st = 2 then s.unpin v w else s
      let y := if st = 2 then { v with pins := v.pins.filter (·.w != w) } else v
      (u.pinBreaks y w = true → exec (.pincmdPin vi w) s = .next (u.tableWrite v (0x10420 + 64 * w) [4])) ∧
      (u.pinBreaks y w = false → u.pinOverlaps y w = true →
        exec (.pincmdPin vi w) s = .next (u.tableWrite v (0x10420 + 64 * w) [5])) ∧
      (u.pinBreaks y w = false → u.pinOverlaps y w = false →
        ∃ t x, exec (.pincmdPin vi w) s = .next t ∧ t.viAt vi = some x ∧ t.pinField v w 0x20 1 = 1 ∧
          (∀ p ∈ x.pins, p.w = w → p.active = true ∧ p.lines = []) ∧ (∃ p ∈ x.pins, p.w = w)))) ∧
  (∀ (s : State) (vi w : Nat) (v : Vi), s.viAt vi = some v → (∃ p ∈ v.pins, p.w = w ∧ p.active = true) → s.pinField v w 8 8 ≤ 2 ^ 30 →
    s.tableReady v true 0x10400 512 = true → ∃ t x p, exec (.pinWindowComplete vi w) s = .next t ∧ t.viAt vi = some x ∧ p ∈ x.pins ∧ p.w = w ∧ p.active = false ∧
      t.pinField v w 0x20 1 = 2 ∧ t.pinField v w 0x24 4 = p.lines.length ∧
      t.pinField v w 0x24 4 + t.pinField v w 0x28 4 + t.pinField v w 0x2C 4 = s.pinField v w 8 8 / 128) ∧
  (∀ (s : State) (region : Nat) (r : OwnRegion), s.hub.regions.find? (·.region == region) = some r → r.holdUntil ≤ s.uncore →
    (r.wanted = true → ∃ t, exec (.ownershipTransfer region) s = .next t ∧ t.mem = s.mem ∧
      (∀ x ∈ t.hub.regions, x.region = region → x.accel = !r.accel ∧ x.wanted = false ∧
        x.holdUntil = s.uncore + Config.ownershipHold) ∧
      (∀ v ∈ t.vis, ∀ p ∈ v.pins, ∀ l ∈ p.lines, l.line * 128 / 2 ^ 21 = region → l.away = r.accel) ∧
      (∀ x ∈ t.caches, x.line * 128 / 2 ^ 21 ≠ region)) ∧
    exec (.ownershipHoldExpiry region) s = .next { s with hub := { s.hub with regions := s.hub.regions.map fun x =>
      if x.region = region then { x with holdUntil := 0 } else x } }) ∧
  (∀ (s u : State) (slice : Nat) (m : KeeperMsg) (rest : List KeeperMsg), u = s.focusKeeper slice → u.keeper.run = none →
    u.keeper.held = [] → u.keeper.queue = m :: rest → u.viRuns m.vi = true → (∀ o, u.opAt m.op = some o → u.heldBack o = false) →
    u.ring.reached m.op (sliceStop slice) = true → (∀ p ∈ u.entryPlaces m, u.available false p = true) →
    let x : State := { u with keeper := { u.keeper with queue := rest }, ring := u.ring.taken m.op (sliceStop slice) }
    let frozen : State := x.freeze m.vi 2
    (u.handlerEntry m = none → exec (.keeperMessage slice) s = .next (messageFails x m 1)) ∧
    (∀ a n, u.handlerEntry m = some (a, n) →
      (u.handlerCode m a n = .error .line → exec (.keeperMessage slice) s = .next (messageFails x m 3)) ∧
      (u.handlerCode m a n = .error .breach → exec (.keeperMessage slice) s = .next (messageFails frozen m 3))) ∧
    (∀ a n ps, u.handlerEntry m = some (a, n) → u.handlerCode m a n = .ok ps → (∀ p ∈ ps, u.available false p = true) →
      (u.keeperLine m u.keeper.slice .read m.target = .error .line → exec (.keeperMessage slice) s = .next (messageFails x m 3)) ∧
      (u.keeperLine m u.keeper.slice .read m.target = .error .breach →
        exec (.keeperMessage slice) s = .next (messageFails frozen m 3)) ∧
      (∀ l, u.keeperLine m u.keeper.slice .read m.target = .ok l → u.atHand false (128 * l) = true → u.keeperHolds (128 * l) = false →
        (u.lineGone (128 * l) = true → exec (.keeperMessage slice) s = .next (messageFails x m 3)) ∧
        (u.lineGone (128 * l) = false →
          exec (.keeperMessage slice) s = .next { x with keeper := { x.keeper with
            run := some (handlerStarted m a (ps.map u.released) [l] l) } })))) ∧
  (∀ (s : State) (slice : Nat) (h : KeeperHeld) (rest : List KeeperHeld), (s.keeperAt slice).held = h :: rest →
    h.at_ + 64 ≤ s.sliceTime slice →
    ∃ t, exec (.keeperRelease slice) s = .next t ∧ (t.keeperAt slice).held = rest ∧
      (∀ p, t.released p = overlaid (wordBytes h.writes) s.released p) ∧
      ∀ o, s.opAt h.msg.op = some o → t.opAt h.msg.op = some { o with reply := some (h.kind, h.status, h.reply) }) ∧
  (∀ (s u : State) (slice l n : Nat) (a : DWord) (ps : List Place), u = s.focusKeeper slice →
    (u.keeper.run = none → u.keeper.held = [] → exec (.keeperStrike slice) s = .next u) ∧
    (∀ r, u.keeper.run = some r → u.handlerEntry r.msg = some (a, n) → u.handlerCode r.msg a n = .ok ps →
      let x : State := { u with keeper := { u.keeper with run := none } }
      (∀ p ∈ x.entryPlaces r.msg ++ ps, x.available false p = true) →
      u.keeperLine r.msg u.keeper.slice .read r.msg.target = .ok l → l ∈ r.lines → u.lineGone (128 * l) = false →
      exec (.keeperStrike slice) s = .next { u with keeper := { u.keeper with
        run := some (handlerStarted r.msg a (ps.map u.released) r.lines l) } }) ∧
    (∀ h rest, u.keeper.run = none → u.keeper.held = h :: rest → u.handlerEntry h.msg = some (a, n) →
      u.handlerCode h.msg a n = .ok ps →
      let x : State := { u with keeper := { u.keeper with held := rest } }
      (∀ p ∈ x.entryPlaces h.msg ++ ps, x.available false p = true) →
      u.keeperLine h.msg u.keeper.slice .read h.msg.target = .ok l → l ∈ h.lines → u.lineGone (128 * l) = false →
      exec (.keeperStrike slice) s = .next { u with keeper := { u.keeper with
        held := rest, run := some (handlerStarted h.msg a (ps.map u.released) h.lines l) } }))

/-- Asynchronous operations end (R307 to R310, R312, R315, R326, R375, R383): a transfer with nothing left and nothing awaited, a local
copy performed whole, a collective whose output is written, an XRATOM and a message with their replies. -/
def Obligations.OperationsEnd : Prop :=
  (∀ (s : State) (id : Nat) (o : AsyncOp) (st : OpStatus), s.opAt id = some o → (s.ops.map (·.id)).Nodup → o.ended = false →
    (o.started = true → (st = .success ∧ s.awaiting id = false ∧ o.left = []) ∨ (st ≠ .success ∧ o.status = some st) →
      (o.kind = .copy ∨ (∃ a b c d e f, o.kind = .copyT a b c d e f) →
        ∃ t, exec (.copyComplete id st) s = .next t ∧ ends s t o st ∧ lands s t o []) ∧
      ((∃ n as_, o.kind = .gather n as_) → ∃ t, exec (.gatherComplete id st) s = .next t ∧ ends s t o st ∧ lands s t o [])) ∧
    (∀ c, s.collOf o = some c → o.started = true → o.left = [] → o.out = [] → s.awaiting id = false →
      (∀ i ∈ c.members, i ∈ o.heard) → ∃ t, exec (.collectiveComplete id .success) s = .next t ∧ ends s t o .success ∧ lands s t o []) ∧
    (∀ a d ll k n bs w l, o.kind = .xratom a d ll → o.reply = some (k, n, bs) → o.orphan = false →
      s.waveAt ⟨o.core, o.slot⟩ = some w → w.ll.find? (·.id == ll) = some l →
      ∃ t x y, exec (.xratomResult id .success) s = .next t ∧ ends s t o .success ∧ t.waveAt ⟨o.core, o.slot⟩ = some x ∧
        x.ll.find? (·.id == ll) = some y ∧ y.left = l.left - 1 ∧ y.writes = l.writes ++ [.scal d (BitVec.ofNat 64 (numOf bs))]) ∧
    (∀ h p reg k n bs, o.kind = .amsg h p reg → o.reply = some (k, n, bs) → s.ring.reached id (chanStop o.core) = true →
      ∃ t, exec (.amsgReply id) s = .next t ∧ ends s t o .success ∧
        lands s t o (.vec reg 0 (BitVec.ofNat 32 (if k = 0 then n else 256 + k * 512)) ::
          (List.range 16).map fun l => .vec (reg + 1) l (if k = 0 then BitVec.ofNat 32 (fieldAt bs (4 * l) 4) else 0)))) ∧
  (∀ (s : State) (id : Nat) (o : AsyncOp) (ps qs : List Place), s.opAt id = some o → (s.ops.map (·.id)).Nodup → o.kind = .copy →
    o.started = true → o.ended = false → 0 < o.len → o.left = [(0, o.len)] → s.awaiting id = false → s.isLocalOp o = true →
    s.remoteOf o o.src = none → (∀ i < o.len, s.remoteOf o (o.src + BitVec.ofNat 64 i) = none ∧ s.remoteOf o (o.dst + BitVec.ofNat 64 i) = none) →
    (∀ i < o.len, s.windowGone o (o.src + BitVec.ofNat 64 i) = false ∧ s.windowGone o (o.dst + BitVec.ofNat 64 i) = false) →
    s.heldBack o = false → s.viRuns o.env.vi = true → o.len ≤ 2 ^ 24 → o.places o.src o.len = some ps → o.places o.dst o.len = some qs →
    qs.Nodup → s.breaks o.env.vi o.mode (ps ++ qs) = false → s.hostDown (ps ++ qs) = false →
    (∀ p ∈ ps, s.available false p = true) → (∀ q ∈ qs, s.available true q = true) →
    ∃ t, exec (.copyComplete id .success) s = .next t ∧ (∀ (i : Nat) p q, ps[i]? = some p → qs[i]? = some q → t.released q = s.released p) ∧
      (∀ q, q ∉ qs → t.released q = s.released q))

/-- Matrix operations begin and complete (R334 to R338, R347 to R352): an operation of the queue begins when nothing before it conflicts
and its resource is free, a TXFER without its neighbour fails; at its end its effect is in the set, its writes are held, it leaves the
queue and its batch. -/
def Obligations.MatrixOperationsRun : Prop :=
  (∀ (s : State) (core op : Nat) (o : MatrixOp),
    let c := s.coreAt core
    let now := s.coreTime core
    let begun : Out := .next (s.setCore { c with matrix := { c.matrix with queue := c.matrix.queue.map fun x =>
      if x.id = op then { x with begunAt := some now } else x } })
    c.matrix.queue.find? (·.id == op) = some o → o.begunAt = none → o.notBefore ≤ now → s.matrixRuns o.env.vi = true →
    (∀ x ∈ c.matrix.queue.takeWhile (·.id != op), x.conflicts o = false ∨
      (x.onlyBlock o = true ∧ x.begunAt ≠ none ∧ x.holding now = false)) →
    (∀ x ∈ c.matrix.queue, x.id ≠ op → x.holding now = true → o.resource = 0 ∨ x.resource ≠ o.resource) →
    ((∀ p, o.kind ≠ .txfer p) → (∀ p, o.kind ≠ .trecv p) → exec (.matrixOpBegin core op) s = begun) ∧
    (∀ p bs, o.kind = .trecv p → (p, bs) ∈ c.matrix.data.rill → exec (.matrixOpBegin core op) s = begun) ∧
    (∀ p n, o.kind = .txfer p → s.rillPeer core p o.env.grid = some n → (∀ bs, (facing p, bs) ∉ n.matrix.data.rill) →
      exec (.matrixOpBegin core op) s = begun) ∧
    (∀ p w, o.kind = .txfer p → s.rillPeer core p o.env.grid = none → s.waveAt ⟨core, o.slot⟩ = some w → w.hasMatrixOp op = true →
      ∃ t x n, exec (.matrixOpBegin core op) s = .next t ∧ n < 4 ∧ t.waveAt ⟨core, o.slot⟩ = some x ∧ x.hasMatrixOp op = false ∧
        x.failures = w.failures ++ [{ status := .rillAbsent, counter := some 1, stream := n }] ∧
        ∀ y ∈ (t.coreAt core).matrix.queue, y.id ≠ op)) ∧
  (∀ (s : State) (core op : Nat) (o : MatrixOp),
    let c := s.coreAt core
    let d := c.matrix.data
    let now := s.coreTime core
    o.done = 0 → c.matrix.queue.find? (·.id == op) = some o → (∃ b, o.begunAt = some b ∧ b + o.cycles.1 - 1 + o.cycles.2 ≤ now) →
    (∀ x ∈ c.matrix.queue.takeWhile (·.id != op), x.conflicts o = false) →
    ∃ t, exec (.matrixOpComplete core op) s = .next t ∧ t.mem = s.mem ∧ (∀ y ∈ (t.coreAt core).matrix.queue, y.id ≠ op) ∧
      (∀ w ∈ t.allWaves, w.core = core → w.hasMatrixOp op = false) ∧
      let e := (t.coreAt core).matrix.data
      (o.kind = .tzero → ∀ i < 8192, Cells.read e.tiles (8192 * o.ta + i) = 0) ∧
      (∀ a, o.kind = .tld a → e = d.setTile o.ta (cleanImage o.tca
        ((o.env.localBytes (a.toNat % 2 ^ 22) (tcBytes o.tca)).map (s.coreByte c)))) ∧
      (∀ a, o.kind = .tst a → e = d ∧ (t.coreAt core).held = c.held ++ o.heldWrites now
        ((List.range (tcBytes o.tca / 16)).map fun i => (a.toNat % 2 ^ 22 + 16 * i, d.tileBytes o.ta (16 * i) 16))) ∧
      (∀ x, o.kind = .amzero x → ∀ p ∈ (rectOf x).elements, e.acc p.1 p.2.1 = 0) ∧
      (∀ x, o.kind = .amcpOut x → e = d ∧ (t.coreAt core).held = c.held ++ o.heldWrites now
        ((rectOf x).elements.map fun p => (x.toNat % 2 ^ 22 + p.2.2, bytesOf 4 (d.acc p.1 p.2.1).toNat))) ∧
      (∀ x, o.kind = .amcpIn x → e = (rectOf x).elements.foldl (fun f p => f.setAcc p.1 p.2.1 (BitVec.ofNat 32
        (fieldAt ((o.env.localBytes (x.toNat % 2 ^ 22) (rectOf x).span).map (s.coreByte c)) p.2.2 4))) d) ∧
      (∀ k, o.task = some k → (∀ z b sx sy, o.kind ≠ .mmas z b sx sy) → e = (k.run d).1) ∧
      (∀ p bs, o.kind = .trecv p → d.rill.find? (·.1 == p) = some (p, bs) →
        e = { d.setTile o.ta bs with rill := (d.setTile o.ta bs).rill.filter (·.1 != p) }) ∧
      (∀ p i, o.kind = .txfer p → rillNeighbour core p = some i → i ≠ core → e = d ∧
        (t.coreAt i).matrix.data.rill = (s.coreAt i).matrix.data.rill ++ [(facing p, d.tileBytes o.ta 0 8192)]))

/-- The home of a control line (R365 to R367): a read adds a sharer or is forwarded to the owner, a request for ownership, an upgrade and
an atomic first recall the other copies, a writeback stores the owner's data; acknowledgements and the mirror's answer move the request
on; a request for a line that is being served waits. -/
def Obligations.ControlHomeServesRequests : Prop :=
  (∀ (s u : State) (p : FabPacket) (after : State → State) (i : Instr), takes s p u after →
    (i = .readShared p ∧ p.op = 1) ∨ (i = .readOwn p ∧ p.op = 2) ∨ (i = .upgrade p ∧ p.op = 3) ∨ (i = .writeback p ∧ p.op = 4) ∨
      (i = .controlAtomic p ∧ p.op = 5) →
    ¬homeFree u (packetLine p) → exec i s = .next (after { u with fabric := { u.fabric with heldIn := u.fabric.heldIn ++ [p] } })) ∧
  (∀ (s u : State) (p : FabPacket) (after : State → State), takes s p u after → homeFree u (packetLine p) →
    let line := packetLine p
    let e := u.dirEntry line
    let add := e.sharers ||| BitVec.ofNat 16 (2 ^ p.src)
    let bytes := u.lineBytes line
    let line_ := u.controlAnswer p opDataShared bytes (u.linePoison line)
    let excl := u.controlAnswer p opDataExclusive bytes (u.linePoison line)
    let done_ := u.controlAnswer p opCompletion [] false
    (p.op = 1 →
      (e.st = .invalid ∨ e.st = .shared → ∃ t, exec (.readShared p) s = .next (after t) ∧
        homeTakes u t line { e with sharers := add, st := .shared } none [line_]) ∧
      (e.st ≠ .invalid → e.st ≠ .shared → e.owner = u.pkg → ∃ t, exec (.readShared p) s = .next (after t) ∧
        homeTakes u t line { e with sharers := add, st := .owned } none [line_]) ∧
      (e.st ≠ .invalid → e.st ≠ .shared → e.owner ≠ u.pkg → ∃ t, exec (.readShared p) s = .next (after t) ∧
        homeTakes u t line { e with sharers := add, st := .owned } none
          [{ u.controlPacket e.owner opForwardedRead line p.tag with opnd := [BitVec.ofNat 64 p.src] }])) ∧
    (p.op = 2 →
      (recalled u line (some p.src) = [] → ∃ t, exec (.readOwn p) s = .next (after t) ∧
        homeTakes u t line (ownedBy line p.src) none [excl]) ∧
      (recalled u line (some p.src) ≠ [] → ∃ t, exec (.readOwn p) s = .next (after t) ∧
        collects t line (ownedBy line p.src) (recalled u line (some p.src)))) ∧
    (p.op = 3 →
      (recalled u line (some p.src) = [] → ∃ t, exec (.upgrade p) s = .next (after t) ∧
        homeTakes u t line (ownedBy line p.src) none (if e.sharers.getLsbD p.src then [done_] else [excl])) ∧
      (recalled u line (some p.src) ≠ [] → ∃ t, exec (.upgrade p) s = .next (after t) ∧
        collects t line (ownedBy line p.src) (recalled u line (some p.src)))) ∧
    (p.op = 4 →
      (e.st = .modified → e.owner = p.src → ∃ t, exec (.writeback p) s = .next (after t) ∧
        homeTakes u t line { e with st := .invalid, sharers := 0 } (some p.payload) [done_]) ∧
      (e.st = .owned → e.owner = p.src → ∃ t, exec (.writeback p) s = .next (after t) ∧
        homeTakes u t line { e with st := .shared, sharers := e.sharers &&& ~~~(BitVec.ofNat 16 (2 ^ p.src)) } (some p.payload) [done_]) ∧
      (e.owner ≠ p.src ∨ (e.st ≠ .modified ∧ e.st ≠ .owned) → exec (.writeback p) s = .next (after (u.deliverTo done_)))) ∧
    (p.op = 5 →
      let a := atomicOf p.opnd
      let o := p.addr % 128
      let old := BitVec.ofNat 64 (fieldAt bytes o a.size)
      (recalled u line none = [] → ∃ t, exec (.controlAtomic p) s = .next (after t) ∧
        homeTakes u t line { line := line, st := .invalid, sharers := 0, owner := 0 }
          (some (match a.newValue old with
            | some x => bytes.take o ++ bytesOf a.size x.toNat ++ bytes.drop (o + a.size)
            | none => bytes))
          [u.controlAnswer p opCompletion (bytesOf a.size old.toNat) (u.linePoison line)]) ∧
      (recalled u line none ≠ [] → ∃ t, exec (.controlAtomic p) s = .next (after t) ∧
        collects t line { line := line, st := .invalid, sharers := 0, owner := 0 } (recalled u line none)))) ∧
  (∀ (s u : State) (p : FabPacket) (after : State → State), takes s p u after →
    let line := packetLine p
    (p.op = 0x15 → u.txnAt line = none → exec (.acknowledgement p) s = .next (after u)) ∧
    (∀ x, p.op = 0x15 → u.txnAt line = some x → p.src ∉ x.acks → exec (.acknowledgement p) s = .next (after u)) ∧
    (∀ x, p.op = 0x15 → u.txnAt line = some x → p.src ∈ x.acks →
      (x.acks.filter (· != p.src) ≠ [] → ∃ t, exec (.acknowledgement p) s = .next (after t) ∧
        ∃ y, t.txnAt line = some y ∧ y.phase = x.phase ∧ y.entry = x.entry ∧ y.acks = x.acks.filter (· != p.src)) ∧
      (x.acks.filter (· != p.src) = [] → x.phase = .forwarding →
        ∃ t, exec (.acknowledgement p) s = .next (after t) ∧ t.txnAt line = none ∧ t.mem = u.mem) ∧
      (x.acks.filter (· != p.src) = [] → x.phase = .collecting → x.req.op = 2 → x.data = none → x.entry.line = line →
        let kept := if p.payload = [] then x.req.payload else p.payload
        let bad := if p.payload = [] then x.req.poisoned else p.poisoned
        ∃ t, exec (.acknowledgement p) s = .next (after t) ∧ homeTakes u t line x.entry none
          [u.controlAnswer x.req opDataExclusive (if kept = [] then u.lineBytes line else kept) bad])) ∧
    (∀ x, p.op = 0x17 → u.txnAt line = some x → x.phase = .mirroring → x.entry.line = line →
      ∃ t, exec (.mirrorAcknowledgement p) s = .next (after t) ∧ (t.dirEntry line).st = x.entry.st ∧
        (x.entry.st ≠ .invalid → t.dirEntry line = x.entry) ∧
        (∀ bs, x.data = some bs → bs.length = 128 → t.lineBytes line = bs) ∧
        if x.sends.any (·.op == opForwardedRead) then ∃ y, t.txnAt line = some y ∧ y.phase = .forwarding else t.txnAt line = none) ∧
    (p.op = 0x17 → (∀ x, u.txnAt line = some x → x.phase ≠ .mirroring) → exec (.mirrorAcknowledgement p) s = .next (after u)) ∧
    (p.op = 0x16 → ∃ t, exec (.mirrorUpdate p) s = .next (after t) ∧ DirEntry.ofWord line (p.opnd.getD 0 0) ∈ t.control.mirror ∧
      ∀ (i : Nat) b, p.payload[i]? = some b → Cells.read t.mem (2 ^ 41 + 128 * line + i) = b))

/-- The requester, the holders of copies and every packet's arrival (R355 to R357, R359, R364, R366, R373, R470, R472): an answer brings
the copy or an atomic's old value, an owner forwards its line, a copy is invalidated; a packet of a lost sender, with a bad header, out of
its order or for another package is not served. -/
def Obligations.ControlCopiesAndArrivals : Prop :=
  (∀ (s u : State) (p : FabPacket) (after : State → State) (w : Wanted), takes s p u after → u.wantAt p.tag = some w →
    (p.op = 0x10 → p.payload.length = 128 → ∃ t, exec (.dataShared p) s = .next (after t) ∧ (w.line, .shared) ∈ t.control.copies ∧
      t.lineBytes w.line = p.payload ∧ t.wantAt p.tag = none) ∧
    (p.op = 0x11 → p.payload.length = 128 → ∃ t, exec (.dataExclusive p) s = .next (after t) ∧ (w.line, .modified) ∈ t.control.copies ∧
      t.lineBytes w.line = p.payload ∧ t.wantAt p.tag = none) ∧
    (p.op = 0x12 → ∃ t, exec (.completion p) s = .next (after t) ∧ (w.line, .modified) ∈ t.control.copies ∧ t.mem = u.mem ∧
      t.wantAt p.tag = none)) ∧
  (∀ (s u : State) (p : FabPacket) (after : State → State) (c : Core) (h : Held) (q : Place) (a : AtomicOp) (ll : Nat) (dst : List RegWrite)
    (acq : Bool) (deps : List Nat) (w : Wave) (l : LongOp), takes s p u after → p.op = 0x12 → u.wantAt p.tag = none →
    (u.core :: u.cores).find? (fun c => c.held.any (·.sentAs p.tag)) = some c → c.held.find? (·.sentAs p.tag) = some h →
    h.kind = .atomic q a ll dst acq deps (some p.tag) → u.waveAt ⟨c.id, h.slot⟩ = some w → w.ll.find? (·.id == ll) = some l →
    ∃ t x y, exec (.completion p) s = .next (after t) ∧ t.waveAt ⟨c.id, h.slot⟩ = some x ∧ x.ll.find? (·.id == ll) = some y ∧
      y.left = l.left - 1 ∧ y.writes = l.writes ++ fillOld dst (BitVec.ofNat 64 (numOf p.payload))) ∧
  (∀ (s u : State) (p : FabPacket) (after : State → State), takes s p u after →
    let line := packetLine p
    let taker := (p.opnd.getD 0 0).toNat % 16
    let dirty := u.control.copies.any fun c => c.1 == line && (c.2 == .modified || c.2 == .owned || c.2 == .exclusive)
    (p.op = 0x13 → (∃ c ∈ u.control.copies, c.1 = line) → u.keeperHolds (lineKey line) = false →
      exec (.forwardedRead p) s = .next (after (State.deliverTo
        { u with control := { u.control with copies := (u.control.copies.filter (·.1 != line)) ++ [(line, .owned)] } }
        { u.controlPacket taker opDataShared line p.tag with payload := u.lineBytes line, poisoned := u.linePoison line }))) ∧
    (p.op = 0x14 → u.keeperHolds (lineKey line) = false → ∃ t : State, (∀ c ∈ t.control.copies, c.1 ≠ line) ∧
      exec (.invalidate p) s = .next (after (t.deliverTo
        (u.controlAnswer p opAcknowledgement (if dirty then u.lineBytes line else []) (dirty && u.linePoison line))))) ∧
    (u.keeperHolds (lineKey line) = true → (p.op = 0x14 ∨ (p.op = 0x13 ∧ ∃ c ∈ u.control.copies, c.1 = line)) →
      ∀ i, packetEvent p = some i → exec i s = .next (after { u with fabric := { u.fabric with heldIn := u.fabric.heldIn ++ [p] } }))) ∧
  (∀ (s : State) (p : FabPacket) (i : Instr) (x : Port), packetEvent p = some i → p ∉ s.fabric.heldIn → p.src ≠ s.pkg →
    p ∉ s.fabric.reorder → s.portAt p.port = some x →
    let u : State := { s with fabric := { s.fabric with ports := s.fabric.ports.map fun z =>
      if z.n = x.n then { x with rxCount := x.rxCount + 1 } else z } }
    let right := p.tagOk = true ∧ (x.finished = true → p.ctr = x.rxCount)
    let good := right ∧ x.accepts p = true ∧ (p.relayed = true ∨ x.peer = p.src)
    (¬right → x.state = .locked ∨ x.state = .running → exec i s = .next (s.portError x)) ∧
    (¬right → x.state ≠ .locked → x.state ≠ .running → exec i s = .next s) ∧
    (right → ¬good → exec i s = .next s) ∧
    (good → p.dst ≠ s.pkg → p.relayed = false → exec i s = .next u) ∧
    (∀ y, good → p.dst ≠ s.pkg → p.relayed = true → u.portTo p.dst = some y → exec i s = .next (u.place1 p y)) ∧
    (good → p.dst ≠ s.pkg → p.relayed = true → u.portTo p.dst = none → exec i s = .next u) ∧
    (good → p.dst = s.pkg → p.src ∈ s.fabric.lost → exec i s = .next u) ∧
    (good → p.dst = s.pkg → p.src ∉ s.fabric.lost → headerGood p = false →
      ∃ t, exec i s = .next t ∧ t.hub.events = s.hub.events ++ [.headerFailed p.src p.port p.vc] ∧ t.mem = s.mem) ∧
    (good → p.dst = s.pkg → p.src ∉ s.fabric.lost → headerGood p = true →
      (comesBefore p.seq (s.fabric.expected p.src p.vc) = true → exec i s = .next u) ∧
      (p.seq ≠ s.fabric.expected p.src p.vc → comesBefore p.seq (s.fabric.expected p.src p.vc) = false → (s.fabric.reorder.filter (·.src == p.src)).length < 256 →
        exec i s = .next { u with fabric := { u.fabric with reorder := u.fabric.reorder ++ [p] } }))) ∧
  (∀ (s : State) (tag : Nat) (r : Request), s.requestAt tag = some r → r.control = true → r.sentAt + 200 ≤ s.clock.us →
    (r.resends < 3 → exec (.controlRequestTimeout tag) s = .next (State.post { s with fabric := { s.fabric with
      requests := s.fabric.requests.map fun x =>
        if x.tag = tag then { x with held := false, sentAt := s.clock.us, resends := x.resends + 1 } else x } } r.packet)) ∧
    (3 ≤ r.resends → ∃ t, exec (.controlRequestTimeout tag) s = .next t ∧ t.requestAt tag = none ∧
      ∀ w, s.wantAt tag = some w → t.agenda = .op (.poisonConsumed w.grid w.reach) :: s.agenda))

/-- Tensor requests at their home and their answers at the source (R30, R33, R368 to R373, R375, R379 to R384): an absent VI answers so,
a frozen one keeps the request; a fault freezes the stream and leaves a record; else the request is performed and answered. An answer
places its bytes or completes its request; a refusal keeps the request; a resumed stream sends its requests again, an aborted one and a
lost response end their operations. -/
def Obligations.TensorRequestsAndAnswers : Prop :=
  (∀ (s u : State) (p : FabPacket) (after : State → State) (i : Instr) (reply : Nat), takes s p u after → replyType i = some (p, reply) →
    (u.viAt p.vi = none ∨ (∃ v, u.viAt p.vi = some v ∧ (v.phase = .absent ∨ v.phase = .teardown)) →
      exec i s = .next (after (u.answerAbsent p reply))) ∧
    (∀ v, u.viAt p.vi = some v → v.phase = .frozen →
      exec i s = .next (after { u with fabric := { u.fabric with heldIn := u.fabric.heldIn ++ [p] } }))) ∧
  (∀ (s u : State) (p : FabPacket) (after : State → State) (i : Instr) (acc : Access) (n kind : Nat) (v : Vi), takes s p u after →
    requestNeeds i = some (p, acc, n, kind) → u.viAt p.vi = some v → v.phase = .built ∨ v.phase = .active →
    (∀ q ∈ u.fabric.heldIn, streamOf q = streamOf p → q.vc = p.vc → q.tag = 0 ∨ comesBefore q.seq p.seq = false) →
    let reached := if kind = 2 then (u.homePlaces p acc n).bind fun _ => u.homePlaces p .read n else u.homePlaces p acc n
    (streamOf p ∈ u.fabric.homeFrozen → exec i s = .next (after (u.answer p opFrozenRefusal [] false))) ∧
    (∀ c k, streamOf p ∉ u.fabric.homeFrozen → reached = .error (c, k) → 256 ≤ v.unanswered.length ∨ 64 ≤ u.frozenOf p →
      u.tableReady v true (0x12000 + 32 * (v.remoteFaults % 256)) 32 = true →
      exec i s = .next (after ((u.answer p opFaultRefusal [] false).streamMessage (streamOf p) opStreamAbort))) ∧
    (∀ c k, streamOf p ∉ u.fabric.homeFrozen → reached = .error (c, k) → v.unanswered.length < 256 → u.frozenOf p < 64 →
      let seq := v.remoteFaults + 1
      let at_ := 0x12000 + 32 * (v.remoteFaults % 256)
      u.tableReady v true at_ 32 = true →
      ∃ t x, exec i s = .next (after t) ∧ streamOf p ∈ t.fabric.homeFrozen ∧ t.viAt p.vi = some x ∧ x.remoteFaults = seq ∧
        x.unanswered = v.unanswered ++ [(seq, streamOf p)] ∧ t.tableField v (at_ + 1) 1 = (if c = causeTranslation then 1 else 2) ∧
        t.tableField v (at_ + 6) 1 = kind ∧ t.tableField v (at_ + 8) 8 = (u.homeAddr p k).toNat ∧
        t.tableField v (at_ + 16) 4 = seq % 2 ^ 32 ∧ t.hub.events = u.hub.events ++ [.remoteFault v.vi seq]) ∧
    (∀ ps, streamOf p ∉ u.fabric.homeFrozen → reached = .ok ps →
      (∀ q ∈ ps, u.available (acc == .write) q = true) →
      (i = .tensorRead p → exec i s =
        .next (after ((u.homeReads 0 ps).answer p opReadData (ps.map u.released) (ps.any u.poisoned)))) ∧
      (i = .tensorWrite p →
        let bs := maskedBytes (ps.map u.released) p.payload p.opnd
        exec i s = .next (after
          (((u.writePoison ps bs (bs.map fun _ => p.poisoned)).written none 0 ps).answer p opWriteCompletion [] false))) ∧
      (i = .remoteAtomic p →
        let a := atomicOf p.opnd
        let old := BitVec.ofNat 64 (numOf (ps.map u.released))
        let t := match a.newValue old with
          | some x => u.setBytes ps (bytesOf a.size x.toNat)
          | none => u
        exec i s = .next (after ((t.written none 0 ps).answer p opAtomicResult (bytesOf a.size old.toNat) (ps.any u.poisoned)))))) ∧
  (∀ (s u : State) (p : FabPacket) (after : State → State) (v : Vi) (o : AsyncOp) (c : Coll) (m : Member), takes s p u after → p.op = 0x23 →
    u.viAt p.vi = some v → v.phase = .built ∨ v.phase = .active → p.tag = 0 ∨ streamOf p ∉ u.fabric.homeFrozen → v.collStopped = false →
    u.collSender p = some m → (u.ops.map (·.id)).Nodup →
    let number := u.collGen p.vi (collGroup p) m.ix
    (collKind p = collHello ∨ collKind p = collMismatch → collNumber p < number →
      exec (.collectiveData p) s = .next (after (u.collAck p))) ∧
    (collKind p = collHello ∨ collKind p = collMismatch → number < collNumber p →
      exec (.collectiveData p) s = .next (after ((u.collAck p).collKeep p))) ∧
    (u.collMatch p m = some (o, c) → collNumber p = number →
      (collKind p = collHello → u.collLost p = false → m.ix ∉ o.heard → collSig p = c.signature → collCount p = c.count →
        ∃ t x, exec (.collectiveData p) s = .next (after t) ∧ t.opAt o.id = some x ∧ x.heard = o.heard ++ [m.ix] ∧ t.mem = u.mem) ∧
      (collKind p = collHello → u.collLost p = false → m.ix ∉ o.heard → (collSig p ≠ c.signature ∨ collCount p ≠ c.count) →
        ∃ t, exec (.collectiveData p) s = .next (after t) ∧ ends u t o .mismatch) ∧
      (collKind p = collMismatch → u.collLost p = false →
        ∃ t, exec (.collectiveData p) s = .next (after t) ∧ ends u t o .mismatch) ∧
      (∀ t, collKind p ≠ collHello → collKind p ≠ collMismatch → m.ix ∈ o.heard → p.tag = 0 ∨ u.collFault o c p = none →
        u.takeIn o c (c.rank m.ix) (collKind p) (collFirst p) p.payload p.poisoned = some t →
        exec (.collectiveData p) s = .next (after (t.collAck p))))) ∧
  (∀ (s u : State) (p : FabPacket) (after : State → State) (i : Instr) (r : Request), takes s p u after → answerOf i = some p →
    (u.requestAt p.tag = none → exec i s = .next (after u)) ∧
    (∀ o, u.requestAt p.tag = some r → u.opAt r.op = some o → (u.ops.map (·.id)).Nodup → o.ended = false →
      p.opnd = [BitVec.ofNat 64 4] → ∃ t, exec i s = .next (after t) ∧ ends u t o .viAbsent) ∧
    (∀ o, u.requestAt p.tag = some r → u.opAt r.op = some o → p.opnd ≠ [BitVec.ofNat 64 4] →
      (i = .writeCompletion p → exec i s = .next (after (u.dropRequest r.tag))) ∧
      (i = .atomicResult p → ∃ t, exec i s = .next (after t) ∧ t.opAt r.op = some { o with reply := some (0, 0, p.payload) } ∧
        t.requestAt p.tag = none ∧ t.mem = u.mem) ∧
      (i = .collectiveAcknowledgement p →
        (p.opnd ≠ [BitVec.ofNat 64 1] → exec i s = .next (after (u.dropRequest r.tag))) ∧
        (p.opnd = [BitVec.ofNat 64 1] → o.ended = false → (u.ops.map (·.id)).Nodup →
          ∃ t, exec i s = .next (after t) ∧ ends u t o .remoteAbort)) ∧
      (∀ ps, i = .readData p → o.kind = .copy →
        o.placesOf ((List.range r.len).map fun k => o.dst + BitVec.ofNat 64 (r.off + k)) = some ps → ps.Nodup →
        u.breaks o.env.vi o.mode ps = false → u.hostDown ps = false → (∀ q ∈ ps, u.available true q = true) →
        ∃ t, exec i s = .next (after t) ∧ t.requestAt p.tag = none ∧
          (∀ (k : Nat) q, ps[k]? = some q →
            t.released q = p.payload.getD ((o.src + BitVec.ofNat 64 (r.off + k)).toNat % 2 ^ 44 - p.addr) 0) ∧
          ∀ q, q ∉ ps → t.released q = u.released q))) ∧
  (∀ (s u : State) (p : FabPacket) (after : State → State) (r : Request), takes s p u after →
    let st : Stream := { pkg := p.src, core := p.strmCore, slot := p.strmSlot, strm := p.strm }
    let kept : State := { u with fabric := { u.fabric with requests := u.fabric.requests.map fun x =>
      if x.tag = r.tag then { x with held := true } else x } }
    (p.op = 0x34 → u.requestAt p.tag = some r →
      ((u.fabric.frozen.filter (·.core == p.strmCore)).length < 64 →
        exec (.faultRefusal p) s = .next (after { kept with fabric := { kept.fabric with frozen := u.fabric.frozen ++ [st] } })) ∧
      (∀ o, 64 ≤ (u.fabric.frozen.filter (·.core == p.strmCore)).length → u.opAt r.op = some o → o.ended = false →
        (u.ops.map (·.id)).Nodup → ∃ t, exec (.faultRefusal p) s = .next (after t) ∧ ends u t o .remoteAbort)) ∧
    (p.op = 0x35 → u.requestAt p.tag = some r →
      (u.streamFrozen p.strmCore p.strmSlot p.strm = true → exec (.frozenRefusal p) s = .next (after kept)) ∧
      (u.streamFrozen p.strmCore p.strmSlot p.strm = false → exec (.frozenRefusal p) s = .next (after (u.resend r)))) ∧
    (p.op = 0x34 ∨ p.op = 0x35 → u.requestAt p.tag = none → ∀ i, packetEvent p = some i → exec i s = .next (after u)) ∧
    (p.op = 0x41 → ∃ t, exec (.streamResume p) s = .next (after t) ∧ st ∉ t.fabric.frozen ∧
      ((∀ x ∈ u.fabric.frozen, x ≠ st → ¬(x.core = p.strmCore ∧ x.slot = p.strmSlot ∧ x.strm = p.strm)) →
        ∀ x ∈ t.fabric.requests, x.packet.strmCore = p.strmCore → x.packet.strmSlot = p.strmSlot → x.packet.strm = p.strm →
          x.held = false)) ∧
    (p.op = 0x42 → ∃ t, exec (.streamAbort p) s = .next (after t) ∧ st ∉ t.fabric.frozen ∧
      ∀ x ∈ u.fabric.requests, x.held = true → x.packet.strmCore = p.strmCore → x.packet.strmSlot = p.strmSlot →
        x.packet.strm = p.strm → t.requestAt x.tag = none)) ∧
  (∀ (s : State) (vi seq : Nat) (v : Vi), s.viAt vi = some v →
    (v.faultStream seq = none → exec (.faultPageResume vi seq) s = .next s ∧ exec (.faultPageAbort vi seq) s = .next s) ∧
    (∀ st, v.faultStream seq = some st →
      let t : State := { s with
        vis := s.vis.map fun x => if x.vi = v.vi then { v with unanswered := v.unanswered.filter (·.1 != seq) } else x,
        fabric := { s.fabric with homeFrozen := s.fabric.homeFrozen.filter (· != st) } }
      exec (.faultPageResume vi seq) s = .next (t.streamMessage st opStreamResume) ∧
      exec (.faultPageAbort vi seq) s = .next (t.streamMessage st opStreamAbort))) ∧
  (∀ (s : State) (tag : Nat) (r : Request) (o : AsyncOp), s.requestAt tag = some r → r.control = false → r.held = false →
    r.sentAt + 200 ≤ s.clock.us → s.opAt r.op = some o → o.ended = false → (s.ops.map (·.id)).Nodup →
    ∃ t, exec (.tensorRequestTimeout tag) s = .next t ∧ ends s t o .lostPacket ∧ t.requestAt tag = none)

/-- Crica ports and peers (R357, R359 to R364, R471 to R475): training with its capability records and its three attempts, the SPDM
steps, measurement, run command and key update of a port, link-state packets, the loss of a peer, the recall and its answers, and the
service of adopted lines. -/
def Obligations.PortsAndPeers : Prop :=
  (∀ (s : State) (n : Nat) (x : Port), s.portAt n = some x →
    (x.state = .untrained ∨ x.state = .failed → ∃ t, exec (.portTraining n) s = .next t ∧ trains t n x.peer 0 ∧ t.mem = s.mem) ∧
    (x.state = .error → ∃ t, exec (.portRetrain n) s = .next t ∧ trains t n x.peer 0 ∧ t.mem = s.mem) ∧
    (carries x → exec (.linkReplay n) s = .next (withPort s { x with replays := x.replays + 1 })) ∧
    (x.state = .training → x.sent + 1 ≤ s.clock.us → ∃ t r, exec (.capabilityRecordSend n) s = .next t ∧
      t.fabric.records = s.fabric.records ++ [(n, r)] ∧ r.pkg = s.pkg ∧ r.port = n ∧ r.peer = x.peer ∧ r.speed = x.speed ∧
      r.width = x.width ∧ r.laneMap = x.laneMap ∧ r.lanes = x.lanes ∧ r.dom = s.platform.record.domsize ∧
      r.attempt = x.tries + 1 ∧ r.lanesTop = 0 ∧ r.reserved = 0 ∧ r.crc = recordCrc r) ∧
    (∀ r : CapRecord, x.state = .locked ∨ x.state = .running → r.crc = recordCrc r → r.speed < 3 → r.width < 3 →
      r.width ≠ x.width ∨ r.speed ≠ x.speed ∨ r.laneMap ≠ x.laneMap → exec (.capabilityRecord n r) s = .next (s.portError x)) ∧
    (∀ r : CapRecord, x.state = .training →
      (r.crc ≠ recordCrc r ∨ 3 ≤ r.speed ∨ 3 ≤ r.width → exec (.capabilityRecord n r) s = .next s) ∧
      (r.crc = recordCrc r → r.speed < 3 → r.width < 3 →
        (r.pkg ≠ x.peer ∨ r.peer ≠ s.pkg ∨ r.dom ≠ s.platform.record.domsize →
          exec (.capabilityRecord n r) s = .next (withPort s { x with state := .failed })) ∧
        (r.pkg = x.peer → r.peer = s.pkg → r.dom = s.platform.record.domsize →
          (r.width = x.width → r.speed = x.speed → r.laneMap = x.laneMap →
            (x.peer ≤ s.pkg → exec (.capabilityRecord n r) s =
              .next (withPort s { x with state := .unlocked, tries := 0, spdm := 0 })) ∧
            (s.pkg < x.peer → ∃ t y, exec (.capabilityRecord n r) s = .next t ∧ t.portAt n = some y ∧ y.state = .unlocked ∧
              y.tries = 0 ∧ y.spdm = 1 ∧ t.mem = s.mem)) ∧
          (r.width ≠ x.width ∨ r.speed ≠ x.speed ∨ r.laneMap ≠ x.laneMap → x.lanes &&& r.lanes = 0 →
            exec (.capabilityRecord n r) s = exec (.lossOfTraining n) s) ∧
          (r.width ≠ x.width ∨ r.speed ≠ x.speed ∨ r.laneMap ≠ x.laneMap → x.lanes &&& r.lanes ≠ 0 →
            exec (.capabilityRecord n r) s = .next (withPort s { x with
              lanes := x.lanes &&& r.lanes, speed := min x.speed r.speed,
              width := min (min x.width r.width) (laneWidth (x.lanes &&& r.lanes)),
              laneMap := if x.laneMap < r.laneMap then x.laneMap else r.laneMap, sent := s.clock.us }))))) ∧
    (x.state = .training → 2 ≤ x.tries →
      exec (.lossOfTraining n) s = .next (withPort s { x with state := .failed, tries := x.tries + 1 })) ∧
    (x.state = .training → x.tries < 2 →
      ∃ t, exec (.lossOfTraining n) s = .next t ∧ trains t n x.peer (x.tries + 1) ∧ t.mem = s.mem) ∧
    (carries x → ∃ t y, exec (.lossOfTraining n) s = .next t ∧ t.portAt n = some y ∧ y.state = .error ∧ y.peer = x.peer ∧ t.mem = s.mem)) ∧
  (∀ (s u : State) (p : FabPacket) (after : State → State) (x : Port), takes s p u after → p.op = 0x40 → u.portAt p.port = some x →
    let code := (p.opnd.getD 0 0).toNat
    (x.state = .unlocked →
      (code = 0 → 15 ≤ x.spdm → exec (.spdmMessage p.port p) s = .next (after (withPort u { x with spdm := x.spdm + 1 }))) ∧
      (code = 0 → x.spdm < 15 → ∃ t y, exec (.spdmMessage p.port p) s = .next (after t) ∧ t.portAt p.port = some y ∧
        y.state = .unlocked ∧ y.spdm = x.spdm + 2 ∧ t.mem = u.mem) ∧
      (code = 1 → u.pkg < x.peer → exec (.spdmMessage p.port p) s =
        .next (after (withPort u { x with spdm := x.spdm + 1, finished := true, rxCount := 0 }))) ∧
      (code = 1 → x.peer ≤ u.pkg → ∃ t y, exec (.spdmMessage p.port p) s = .next (after t) ∧ t.portAt p.port = some y ∧
        y.state = .unlocked ∧ y.finished = true ∧ y.rxCount = 0 ∧ t.mem = u.mem) ∧
      (code ≠ 0 → code ≠ 1 → exec (.spdmMessage p.port p) s = .next (after (u.portError x)))) ∧
    (x.state = .locked ∨ x.state = .running →
      (code = 3 → exec (.spdmMessage p.port p) s = .next (after (withPort u { x with rxEpoch := x.rxEpoch + 1, rxCount := 0 }))) ∧
      (code ≠ 0 → code ≠ 1 → code ≠ 3 → exec (.spdmMessage p.port p) s = .next (after (u.portError x))) ∧
      (code = 0 ∨ code = 1 → exec (.spdmMessage p.port p) s = .next (after (withPort u { x with spdm := x.spdm + 1 }))))) ∧
  (∀ (s : State) (n : Nat) (x : Port), s.portAt n = some x →
    (x.state = .unlocked → x.finished = true → exec (.measurementAccept n true) s = .next (withPort s { x with state := .locked })) ∧
    (x.state = .unlocked → exec (.measurementAccept n false) s = .next (s.portError x)) ∧
    (carries x → exec (.portRunCommand n) s = .next (withPort s { x with
      runCommanded := true, state := if x.state = .locked ∧ x.peerRun = true then .running else x.state })) ∧
    (x.state = .locked ∨ x.state = .running →
      ∃ t y q, exec (.keyUpdate n) s = .next t ∧ t.portAt n = some y ∧ y.keyEpoch = x.keyEpoch + 1 ∧ y.txCount = 0 ∧
        y.state = x.state ∧ q ∈ t.fabric.outbox ∧ q.port = n ∧ q.op = 0x40 ∧ q.opnd.getD 0 0 = 3 ∧ q.ctr = x.txCount)) ∧
  (∀ (s u : State) (p : FabPacket) (after : State → State) (x : Port), takes s p u after → p.op = 0x44 → u.portAt p.port = some x →
    let run := (p.opnd.getD 0 0).getLsbD 0
    let mask := (p.opnd.getD 0 0).toNat / 2 ^ 8
    ∃ t, exec (.linkState p.port p) s = .next (after t) ∧ (p.src, u.clock.us) ∈ t.fabric.heard ∧
      (p.src, (List.range 16).filter fun i => mask / 2 ^ i % 2 == 1) ∈ t.fabric.bundles ∧ t.mem = u.mem ∧
      (x.peer ≠ p.src → t.fabric.ports = u.fabric.ports) ∧
      (x.peer = p.src → t.portAt p.port = some { x with
        peerRun := run,
        state := if x.state = .locked ∧ x.runCommanded = true ∧ run = true then .running else x.state })) ∧
  (∀ s : State, s.fabric.linkSent + 10 ≤ s.clock.us →
    ∃ t, exec .linkStateSend s = .next t ∧ t.fabric.linkSent = s.clock.us ∧ t.mem = s.mem ∧
      ∀ x ∈ s.fabric.ports, carries x → (s.fabric.ports.map (·.n)).Nodup → s.creditsUsed x 4 < Config.flitBuffers 4 →
        (∀ q ∈ x.waiting, s.bufferOf q ≠ 4) → ∃ q ∈ t.fabric.outbox, q.port = x.n ∧ q.op = 0x44 ∧ q.dst = x.peer ∧
        (q.opnd.getD 0 0).getLsbD 0 = x.runCommanded) ∧
  (∀ (s : State) (pkg : Nat) (h : Nat × Nat), s.fabric.heard.find? (·.1 == pkg) = some h → h.2 + 100 ≤ s.clock.us →
    pkg ∉ s.fabric.lost →
    ∃ t, exec (.peerLost pkg) s = .next t ∧ pkg ∈ t.fabric.lost ∧ (∀ x ∈ t.fabric.frozen, x.pkg ≠ pkg) ∧
      (∀ r ∈ t.fabric.requests, r.control = false → r.packet.dst ≠ pkg) ∧ ∃ r ∈ t.fabric.recalls, r.pkg = pkg) ∧
  (∀ (s u : State) (p : FabPacket) (after : State → State) (pkg : Nat), takes s p u after → p.op = 0x43 →
    (p.opnd.getD 1 0).toNat = pkg → pkg ≠ s.pkg →
    (p.opnd.getD 0 0 = 0 → ∃ t, exec (.sharerRecall pkg p) s = .next (after t) ∧ pkg ∈ t.fabric.lost) ∧
    (p.opnd.getD 0 0 ≠ 0 → ∃ t, exec (.sharerRecall pkg p) s = .next (after t) ∧ t.mem = u.mem ∧
      ∃ r ∈ t.fabric.recalls, r.pkg = pkg ∧ p.src ∈ r.answered)) ∧
  (∀ (s : State) (pkg : Nat) (r : Recall), s.fabric.recalls.find? (·.pkg == pkg) = some r → s.nextMember pkg = s.pkg → r.served = false →
    (∀ m ∈ s.members, m ∈ r.answered) ∨ r.since + 1000 ≤ s.clock.us →
    exec (.adoptionServe pkg) s = .next { s with fabric := { s.fabric with recalls := s.fabric.recalls.map fun x =>
      if x.pkg = pkg then { x with served := true } else x } })

/-- The ring and channels (R406, R409, R411 to R413, R416 to R419): injection, shared moves, escape moves and ejection; the arrival of a
packet and its accept or reject, the reoffer, the registers of a control-core endpoint, and a write of `chent`. -/
def Obligations.RingAndChannels : Prop :=
  (∀ (s : State) (stop source : Nat) (m : RingMsg), s.ring.firstOf stop source = some m →
    (∀ x ∈ s.ring.injectors s.uncore stop, s.ring.turnOf stop source ≤ s.ring.turnOf stop x) →
    (m.dst = stop → exec (.ringInjection stop source) s =
      .next { s with ring := { withoutFirst s.ring stop source with ejected := s.ring.ejected ++ [m] } }) ∧
    (m.dst ≠ stop → m.flits + 1 ≤ s.ring.freeSlots s.uncore (nextStop m.ccw stop) m.ccw m.cls → s.ring.linkFree s.uncore stop m.ccw = true →
      s.ring.escapeWants s.uncore stop m.ccw = false →
      (∀ q ∈ s.ring.onRing, q.msg.ccw = m.ccw → s.ring.sharedWants s.uncore stop q = false) →
      ∃ t, exec (.ringInjection stop source) s = .next t ∧
        movesOn { s with ring := withoutFirst s.ring stop source } t stop m.ccw (m.flits + 1) ∧
        t.ring.onRing = s.ring.onRing ++
          [arrivedAt s { m with hi := crossed m (nextStop m.ccw stop), escape := false } (nextStop m.ccw stop)])) ∧
  (∀ (s : State) (stop n : Nat) (p : RingPos), s.ring.onRing[n]? = some p →
    (p.whole stop = true → p.msg.dst ≠ stop → p.times.getD 0 0 ≤ s.uncore → s.ring.linkFree s.uncore stop p.msg.ccw = true →
      p.msg.flits + 1 ≤ s.ring.freeSlots s.uncore (nextStop p.msg.ccw stop) p.msg.ccw p.msg.cls →
      s.ring.escapeWants s.uncore stop p.msg.ccw = false →
      (∀ q ∈ s.ring.onRing, q.msg.ccw = p.msg.ccw → s.ring.sharedWants s.uncore stop q = true → q.before p = false) →
      ∃ t, exec (.ringSharedMove stop n) s = .next t ∧ movesOn s t stop p.msg.ccw (p.msg.flits + 1) ∧ countedLater s t stop p ∧
        t.ring.onRing = s.ring.onRing.set n
          (arrivedAt s { p.msg with hi := crossed p.msg (nextStop p.msg.ccw stop) } (nextStop p.msg.ccw stop))) ∧
    (stop ∈ p.flitsAt → p.msg.dst ≠ stop → p.times.getD (p.flitsAt.idxOf stop) 0 ≤ s.uncore → s.ring.linkFree s.uncore stop p.msg.ccw = true →
      p.msg.escape = true ∨
        (p.whole stop = true ∧ s.ring.freeSlots s.uncore (nextStop p.msg.ccw stop) p.msg.ccw p.msg.cls < p.msg.flits + 1) →
      s.ring.escapeFree s.uncore (nextStop p.msg.ccw stop) p.msg.ccw p.msg.cls (crossed p.msg (nextStop p.msg.ccw stop)) = true →
      ∃ t x, exec (.ringEscapeMove stop n) s = .next t ∧ movesOn s t stop p.msg.ccw 1 ∧ countedLater s t stop p ∧
        t.ring.onRing = s.ring.onRing.set n x ∧ x.msg.escape = true ∧
        x.flitsAt = moveFirst stop (nextStop p.msg.ccw stop) p.flitsAt ∧ x.times[p.flitsAt.idxOf stop]? = some (s.uncore + 1)) ∧
    (∀ rest, p.msg.dst = stop → p.flitsAt = stop :: rest → p.times.getD 0 0 ≤ s.uncore →
      ∃ t, exec (.ringEject stop n) s = .next t ∧ countedLater s t stop p ∧
        (rest = [] → t.ring.onRing = s.ring.onRing.eraseIdx n ∧ t.ring.ejected = s.ring.ejected ++ [p.msg]) ∧
        (rest ≠ [] → ∃ ts, t.ring.onRing = s.ring.onRing.set n { p with flitsAt := rest, times := ts } ∧
          (∀ i, i < rest.length → ∃ x, ts[i]? = some x ∧ s.uncore < x) ∧ t.ring.ejected = s.ring.ejected) ∧
        t = { s with ring := t.ring } ∧ t.ring.waiting = s.ring.waiting ∧ t.ring.links.all (s.ring.links.contains ·) = true)) ∧
  (∀ (s : State) (m : RingMsg), m ∈ s.ring.ejected → m.cls = 4 →
    let u := s.takeEjected m
    let x := u.chan (chanAt m.dst m.dep)
    let e := Cells.read x.tab m.dch
    (x.vi ≠ some m.vi ∨ chValid e = false ∨ chReceives e = false →
      exec (.channelPacketArrival m) s = .next (u.toRing (ringResponse m true))) ∧
    (x.vi = some m.vi → chValid e = true → chReceives e = true →
      ((x.queue m.dch).length + u.heldTakes (chanAt m.dst m.dep) m.dch < chDepth e → exec (.channelPacketArrival m) s =
        .next ((u.setChan (chanAt m.dst m.dep) { x with rxq := x.rxq ++ [(m.dch, ringPacket m)] }).toRing (ringResponse m true))) ∧
      (chDepth e ≤ (x.queue m.dch).length + u.heldTakes (chanAt m.dst m.dep) m.dch →
        exec (.channelPacketArrival m) s = .next (u.toRing (ringResponse m false))))) ∧
  (∀ (s : State) (ep seq ch : Nat) (m : RingMsg),
    (s.answerOf ep seq ch true = some m → exec (.channelAccept ep seq ch) s =
      .next (let u := s.takeEjected m
        (u.setChan ep { u.chan ep with outgoing := (u.chan ep).outgoing.filter fun q => !(q.sch == ch && q.seq == seq) }).offer ep ch)) ∧
    (s.answerOf ep seq ch false = some m → exec (.channelReject ep seq ch) s =
      .next (let u := s.takeEjected m
        u.setChan ep { u.chan ep with outgoing := marked (u.chan ep).outgoing ch seq false fun _ => s.uncore + 64 }))) ∧
  (∀ (s : State) (ep ch : Nat) (p : ChanPacket), (s.chan ep).outgoing.find? (·.sch == ch) = some p → p.offered = false →
    s.heldSend ep p = false → p.offerAt ≤ s.uncore → p.sch = ch →
    exec (.channelReoffer ep p.seq ch) s =
      .next ((s.setChan ep { s.chan ep with outgoing := marked (s.chan ep).outgoing ch p.seq true id }).toRing p.msg)) ∧
  (∀ (s : State) (ep : Nat) (e : Endpoint) (v : DWord), s.endpointAt ep = some e → ep < 32 →
    let ch := v.toNat % 64
    let n := v.toNat / 64 % 4 + 1
    let t := Cells.read e.chtab ch
    (e.vi = none → exec (.cpsend ep v) s = .next (s.setEndpoint { e with ignored := min 65535 (e.ignored + 1) })) ∧
    (∀ vi, e.vi = some vi →
      256 ≤ v.toNat ∨ 8 ≤ e.outgoing.length ∨ chValid t = false ∨ chReceives t = true ∨ s.granted vi .supervisor 2 ch 1 = false →
      exec (.cpsend ep v) s = .next (s.setEndpoint { e with ignored := min 65535 (e.ignored + 1) })) ∧
    (∀ vi, e.vi = some vi → v.toNat < 256 → e.outgoing.length < 8 → chValid t = true → chReceives t = false →
      s.granted vi .supervisor 2 ch 1 = true →
      exec (.cpsend ep v) s = .next ((s.setChan (512 + ep) { e.chan with
        seqs := Cells.write e.chseq ch (BitVec.ofNat 32 ((Cells.read e.chseq ch).toNat + 1)),
        outgoing := e.outgoing ++ [endpointPacket ep e ch n] }).offer (512 + ep) ch)) ∧
    (∀ vi p, e.vi = some vi → chValid t = true → chReceives t = true → s.granted vi .supervisor 2 ch 0 = true →
      (e.chan.queue ch).head? = some p →
      exec (.cprecv ep v) s = .next (s.setEndpoint { e with
        lastCh := ch, cpin := Cells.writeList [] 0 p.payload, rxq := dropHead ch e.rxq })) ∧
    (e.vi = none ∨ chValid t = false ∨ chReceives t = false ∨ (∃ vi, e.vi = some vi ∧ s.granted vi .supervisor 2 ch 0 = false) ∨
      (e.chan.queue ch).head? = none → exec (.cprecv ep v) s = .next (s.setEndpoint { e with lastCh := ch })) ∧
    (∀ vi, e.vi = some vi → s.granted vi .supervisor 2 e.lastCh 0 = true →
      exec (.cppoll ep) s = .next (s.setEndpoint { e with polled := e.chan.pollWord e.lastCh })) ∧
    (e.vi = none → exec (.cppoll ep) s = .next (s.setEndpoint { e with polled := 0x8000000000000000 })) ∧
    (∀ i, i < 64 → exec (.cptabWrite ep i v) s =
      .next (s.setEndpoint { e with
        chtab := chWrite e.chtab i v,
        rxq := if chReceives (Cells.read e.chtab i) then e.rxq.filter fun x => x.1 != i else e.rxq }))) ∧
  (∀ (s : State) (core : Nat) (v : DWord), exec (.chentWrite core v) s =
    .next (let c := s.coreAt core
      s.setCore { c with
        chtab := chWrite c.chtab c.chsel v,
        rxq := if chReceives (Cells.read c.chtab c.chsel) then c.rxq.filter fun x => x.1 != c.chsel else c.rxq })) ∧
  (∀ (tab : Cells 64) (i : Nat) (e : DWord), i < 64 → Cells.wf tab = true → chValid e = true →
    (chLegal e = false ∨ (chReceives e = true ∧ 64 < chDepths tab i + chDepth e) →
      chValid (Cells.read (chWrite tab i e) i) = false) ∧
    (chLegal e = true → chReceives e = false ∨ chDepths tab i + chDepth e ≤ 64 →
      Cells.read (chWrite tab i e) i = e &&& 0xFFFFFF0000000000))

/-- What a write of a privileged register starts, and the host's own accesses (R33, R97, R99, R101, R108, R282, R284, R413, R422, R423,
R444, R445, R467): invalidations and their completions, plain privileged registers, posted writes and reads of the host, and a control
core's accesses to the register page of its endpoint. What a kick register reads as is a free value (log entries 2 and 106). -/
def Obligations.RegistersAndHostAccesses : Prop :=
  (∀ (s u : State) (r : WaveRef) (x : DWord) (v : Vi), s.focus r = some u → u.viAt u.wave.env.vi = some v → u.wave.waitInv = none →
    (u.wave.arch.mode ≠ .user →
      (v.desc.asidBase ≤ x.toNat % 2 ^ 16 → x.toNat % 2 ^ 16 < v.desc.asidBase + v.desc.asidCnt →
        exec (.tlbinv r x) s = .next { u with wave := { u.wave with issued := true, waitInv := some (false, x) } }) ∧
      (x.toNat % 2 ^ 16 < v.desc.asidBase ∨ v.desc.asidBase + v.desc.asidCnt ≤ x.toNat % 2 ^ 16 →
        exec (.tlbinv r x) s = .next (u.takeTrap (u.wave.wholeTrap 0x18 none)))) ∧
    (u.wave.arch.mode = .hypervisor →
      (x.toNat < 64 → exec (.capinv r x) s =
        .next { u with wave := { u.wave with issued := true, waitInv := some (true, x) } }) ∧
      (64 ≤ x.toNat → exec (.capinv r x) s = .next (u.takeTrap (u.wave.wholeTrap 0x01 none))))) ∧
  (∀ (s u : State) (r : WaveRef) (x : DWord) (v : Vi), s.focus r = some u → u.viAt u.wave.env.vi = some v →
    (u.wave.waitInv = some (false, x) →
      (∀ o ∈ u.ops, o.env.vi = v.vi → o.ended = false → ∀ p ∈ o.pages, invMeets x p.asid p.vpage p.size = false) →
      ∃ t y, exec (.tlbinvComplete r) s = .next t ∧
        State.ran { u with wave := { u.wave with waitInv := none }, vis := t.vis, tlbs := t.tlbs, grids := t.grids,
                           caches := t.caches } t [] [] [] false ∧
        t.viAt u.wave.env.vi = some y ∧ { y with pins := v.pins } = v ∧
        (∀ p ∈ y.pins, ∀ l ∈ p.lines, invCovers x p.asid l.vpage = false) ∧
        (∀ e, e ∈ t.tlbs ↔ e ∈ u.tlbs ∧ ¬(e.vi = v.vi ∧ invMeets x e.page.asid e.page.vpage e.page.size = true)) ∧
        (∀ g ∈ t.grids, g.vi = v.vi → ∀ e ∈ g.extents, invMeets x e.asid e.base e.size = false)) ∧
    (u.wave.waitInv = some (true, x) →
      ∃ t, exec (.capinvComplete r) s = .next t ∧
        State.ran { u with wave := { u.wave with waitInv := none }, vis := t.vis } t [] [] [] false ∧
        ∀ y ∈ t.vis, y.vi = x.toNat → y.capHeld = none ∧ y.capOld = false)) ∧
  (∀ (s : State) (r : WaveRef) (w : Wave) (x : DWord), s.waveAt r = some w →
    let stored := fun (n : Nat) (a : Arch) => exec (.registerWrite (.priv r n) x) s = .next (s.putWave { w with arch := a })
    stored 0x000 { w.arch with sstep := x.getLsbD 5 } ∧
    stored 0x004 { w.arch with emask := x &&& w.lanes } ∧
    stored 0x006 { w.arch with evec := x &&& 0xFFFFFFFFFFFFFFC0 } ∧
    stored 0x007 { w.arch with uhtv := x } ∧
    stored 0x009 { w.arch with rvsp := (x &&& 0x0FFFFFFFFFFFFFF0) ||| 0x1000000000000000 } ∧
    exec (.registerWrite (.priv r 0x00B) x) s = .next (s.setCore { s.coreAt r.core with chsel := x.toNat % 64 })) ∧
  (∀ (s : State) (ep off : Nat) (x : DWord) (e : Endpoint), s.endpointAt ep = some e → off + 8 ≤ 256 → off % 8 = 0 →
    ∃ t, exec (.registerWrite (.endpoint ep off) x) s = .next t ∧ t.mem = s.mem ∧
      t.endpointAt ep = some { e with cpout := Cells.writeList e.cpout off (bytesOf 8 x.toNat) }) ∧
  (∀ (s : State) (ep off : Nat) (bs : List Byte), bs.length = 8 →
    let x := BitVec.ofNat 64 (numOf bs)
    (off + 8 ≤ 256 → off % 8 = 0 →
      s.happen (.controlWrite (.endpoint ep off) bs) = exec (.registerWrite (.endpoint ep off) x) s) ∧
    s.happen (.controlWrite (.endpoint ep 0x100) bs) = exec (.cpsend ep x) s ∧
    s.happen (.controlWrite (.endpoint ep 0x300) bs) = exec (.cprecv ep x) s ∧
    (∀ i, i < 64 → s.happen (.controlWrite (.endpoint ep (0x400 + 8 * i)) bs) = exec (.cptabWrite ep i x) s)) ∧
  (∀ (s : State) (ep : Nat) (e : Endpoint), s.endpointAt ep = some e →
    let answer := fun (t : State) (x : Nat) => { t with hub := { t.hub with controlReads := t.hub.controlReads ++ [.data (bytesOf 8 x)] } }
    (e.outgoing.length ≤ 8 → e.ignored ≤ 65535 →
      s.happen (.controlRead (.endpoint ep 0x108) 8) = .next (answer s (e.ignored * 2 ^ 32 + e.outgoing.length))) ∧
    (∀ i, i < 32 → s.happen (.controlRead (.endpoint ep (0x200 + 8 * i)) 8) =
      .next (answer s (numOf (Cells.readList e.cpin (8 * i) 8)))) ∧
    (∀ i, i < 64 → s.happen (.controlRead (.endpoint ep (0x400 + 8 * i)) 8) = .next (answer s (Cells.read e.chtab i).toNat)) ∧
    (∀ t y, exec (.cppoll ep) s = .next t → t.endpointAt ep = some y →
      s.happen (.controlRead (.endpoint ep 0x308) 8) = .next (answer t y.polled.toNat))) ∧
  (∀ (s : State) (t : HostTarget) (ks : List Nat), s.platform.linkUp = true → s.hostKeys t ks.length = some ks → noHostWrite s → ks ≠ [] →
    (∃ v ∈ s.vis, v.touched ks = true ∧ v.phase = .frozen) →
    (∀ bs : List Byte, bs.length = ks.length →
      exec (.hostPostedWrite t bs) s = .next (hostWaits s { write := true, target := t, bytes := bs, len := 0 })) ∧
    exec (.hostRead t ks.length) s = .next (hostWaits s { write := false, target := t, bytes := [], len := ks.length })) ∧
  (∀ (s : State) (t : HostTarget) (ks : List Nat), s.platform.linkUp = true → s.hostKeys t ks.length = some ks → noHostWrite s →
    (∀ v ∈ s.vis, v.touched ks = true → v.phase ≠ .frozen) → ks ≠ [] →
    (∀ bs : List Byte, bs.length = ks.length →
      ((∃ v ∈ s.vis, v.touched ks = true ∧ v.phase = .teardown) → exec (.hostPostedWrite t bs) s = .next s) ∧
      ((∀ v ∈ s.vis, v.touched ks = true → v.phase ≠ .teardown) → (∀ k ∈ ks, s.hostAtHand true k = true) →
        ∃ u, exec (.hostPostedWrite t bs) s = .next u ∧
          (∀ i, i < bs.length → s.inCapTable (ks.getD i 0) = false → Cells.read (w := 8) u.mem (ks.getD i 0) = bs.getD i 0) ∧
          (∀ k, k ∉ ks ∨ s.inCapTable k = true → Cells.read (w := 8) u.mem k = Cells.read (w := 8) s.mem k) ∧
          { u with mem := s.mem, poison := s.poison, caches := s.caches, fabric := s.fabric } = s)) ∧
    ((∃ v ∈ s.vis, v.touched ks = true ∧ v.phase = .teardown) →
      exec (.hostRead t ks.length) s = .next { s with hub := { s.hub with hostReads := s.hub.hostReads ++ [.viAbsent] } }) ∧
    ((∀ v ∈ s.vis, v.touched ks = true → v.phase ≠ .teardown) →
      ((∀ k ∈ ks, s.hostAtHand false k = true) → ∃ cs,
        ((∃ k ∈ ks, s.poisoned (.mem k) = true) → exec (.hostRead t ks.length) s =
          .next { s with caches := cs, hub := { s.hub with hostReads := s.hub.hostReads ++ [.poisoned] } }) ∧
        ((∀ k ∈ ks, s.poisoned (.mem k) = false) → exec (.hostRead t ks.length) s =
          .next { s with caches := cs, hub := { s.hub with
            hostReads := s.hub.hostReads ++ [.data (ks.map fun k => Cells.read (w := 8) s.mem k)] } })) ∧
      (∀ a k x, t = .tensor a → k ∈ ks → x ∈ s.hub.regions → x.region = k / 2 ^ 21 → x.accel = true →
        ∃ u, exec (.hostRead t ks.length) s = .next u ∧ { x with wanted := true } ∈ u.hub.regions ∧ u.mem = s.mem ∧
          u.hub.hostReads = s.hub.hostReads ∧
          u.hub.hostHeld = s.hub.hostHeld ++ [{ write := false, target := t, bytes := [], len := ks.length }]))) ∧
  (∀ (s : State) (vi q : Nat) (bs : List Byte), s.platform.linkUp = true → noHostWrite s → q < 256 → bs.length = 8 →
    let x := BitVec.ofNat 64 (numOf bs)
    exec (.hostPostedWrite (.kickPage vi (16 * q)) bs) s = exec (.kick vi q x .host) s ∧
    (x = 1 → (∀ v, s.viAt vi = some v → s.tableReady v false (0x10000 + 32 * q) 32 = true) →
      exec (.hostPostedWrite (.kickPage vi (16 * q + 8)) bs) s = exec (.queueStart vi q .host) s) ∧
    (x = 2 → exec (.hostPostedWrite (.kickPage vi (16 * q + 8)) bs) s = exec (.queueStop vi q .host) s)) ∧
  (∀ (s : State) (vi q : Nat) (v : Vi), s.pageReached vi .host = true → noHostWrite s → q < 256 → s.viAt vi = some v →
    let answer := fun (t : State) (x : Nat) => { t with hub := { t.hub with hostReads := t.hub.hostReads ++ [.data (bytesOf 8 x)] } }
    (v.queueAt q = none →
      exec (.hostRead (.kickPage vi (16 * q)) 8) s = .next (answer s 0) ∧
      exec (.hostRead (.kickPage vi (16 * q + 8)) 8) s = .next (answer s 0)) ∧
    (∀ y, v.queueAt q = some y →
      (s.granted vi .supervisor 1 q 3 = false →
        exec (.hostRead (.kickPage vi (16 * q + 8)) 8) s = .next (answer (s.freeze vi 1) 0)) ∧
      (s.granted vi .supervisor 1 q 3 = true →
        exec (.hostRead (.kickPage vi (16 * q + 8)) 8) s = .next (answer s ((y.qst * 2 ^ 32 + y.qacc) % 2 ^ 64)) ∧
        ∃ t a, exec (.hostRead (.kickPage vi (16 * q)) 8) s = .next t ∧ t.hub.hostReads = s.hub.hostReads ++ [.data a] ∧
          a.length = 8 ∧ t.mem = s.mem ∧ t.vis = s.vis)))

/-- Quarantine, strikes, poison, pre-emption and halts (R443, R447 to R457, R460, R462 to R464, R466, R468): what a release does for each
kind of held item, a strike and its report, the confirmation of an entry, poison and its consumption, pre-emption from the request to
the resumption, debug halts, and a stopped wave restarted or ended by the monitor. -/
def Obligations.RecoveryAndPreemption : Prop :=
  (∀ (s : State) (core n : Nat) (h : Held), s.nextRelease (s.coreAt core) = some n → (s.coreAt core).held[n]? = some h →
    (n = 0 ∧ h.at_ + 64 ≤ s.coreTime core ∧ h.away = false) ∧
    (∀ p bs, h.kind = .write p bs → (∀ b ∈ heldBytes ((s.coreAt core).writeRun h), s.placeGone b.1 = false) →
      ∃ t, exec (.quarantineRelease core) s = .next t ∧
        ∀ k, Cells.read (w := 8) t.mem k = overlaid (heldBytes ((s.coreAt core).writeRun h)) s.released (.mem k)) ∧
    (∀ p a ll dst acq after, h.kind = .atomic p a ll dst acq after none → s.placeGone p = false → s.goesHome h = none →
      ∃ t, exec (.quarantineRelease core) s = .next t ∧ t.mem = ((releasedFrom s core h).doAtomic (atomicPlaces p a) a).2.mem) ∧
    (∀ id o, h.kind = .start id → s.opAt id = some o → (o.kind = .copy ∨ ∃ x y, o.kind = .gather x y) →
      exec (.quarantineRelease core) s = .next ((releasedFrom s core h).setOp { o with started := true })) ∧
    (∀ p, h.kind = .send p → exec (.quarantineRelease core) s = .next ((releasedFrom s core h).offer core p.sch)) ∧
    ((∃ c p, h.kind = .take c p) ∨ (∃ m, h.kind = .tags m) →
      exec (.quarantineRelease core) s = .next (releasedFrom s core h)) ∧
    (∀ w, h.kind = .arrive → s.waveAt ⟨core, h.slot⟩ = some w →
      exec (.quarantineRelease core) s =
        .next ((releasedFrom s core h).putWave { w with arrival := w.arrival.map fun a => { a with released := true } })) ∧
    (h.kind = .exit → exec (.quarantineRelease core) s = .next ((releasedFrom s core h).endNow ⟨core, h.slot⟩))) ∧
  (∀ (s : State) (r : WaveRef) (w : Wave) (past later : List RegionEntry) (e : RegionEntry), s.waveAt r = some w →
    w.entries = past ++ e :: later → (∀ x ∈ past, x.confirmed = true) → e.confirmed = false → e.reachedAt + 64 ≤ s.coreTime w.core →
    (∀ x, (s.coreAt w.core).struck = some x → e.reachedAt < x) →
    exec (.entryConfirm r) s = .next (s.putWave { w with entries := { e with confirmed := true } :: later })) ∧
  (∀ (s : State) (core : Nat), core < 512 →
    let c := s.coreAt core
    let ripe := c.ripe (s.coreTime core)
    exec (.strike core) s = .next (s.setCore { c with struck := some (c.struck.getD (s.coreTime core)) }) ∧
    (c.struck ≠ none → (∀ w ∈ s.allWaves, w.core = core → ∀ o ∈ w.ll, o.left = 0) →
      ∃ t, exec (.strikeReport core) s = .next t ∧ t.mem = s.mem ∧ (t.coreAt core).struck = none ∧
        (c.matrix.undo = [] → (t.coreAt core).held = c.held.filter fun h => ripe h.at_) ∧
        Cells.read t.hub.strikes core = Cells.read s.hub.strikes core + 1 ∧
        ∀ w e, restarts s core w → s.waveAt ⟨core, w.slot⟩ = some w →
          (∀ h ∈ c.held, h.slot = w.slot → h.kind = .exit → ripe h.at_ = false) →
          ((w.entries.filter fun x => x.confirmed || ripe x.reachedAt).getLast? = some e ∨
            ((∀ x ∈ w.entries, x.confirmed = false ∧ ripe x.reachedAt = false) ∧ w.entries.head? = some e)) →
          ∃ x, t.waveAt ⟨core, w.slot⟩ = some x ∧ (w.ll = [] → x.arch = e.arch) ∧ x.status = .ready ∧ x.ll = [] ∧ x.pos.pc = e.pos.pc ∧
            x.pos.ridx = e.pos.ridx ∧ x.replay = e.replay ∧ x.readySince = s.coreTime core + 16)) ∧
  (∀ (s : State) (k core o : Nat),
    exec (.uncorrectableError (.mem k)) s = .next { s with poison := k / 32 :: s.poison.filter (· != k / 32) } ∧
    ∃ t, exec (.uncorrectableError (.localStore core o)) s = .next t ∧ t.mem = s.mem ∧ (core, o / 32) ∈ t.storePoison) ∧
  (∀ (s : State) (grid n : Nat) (g : Grid) (x : Reach), s.gridAt grid = some g → g.reachAt n = some x →
    (x.phase = .running ∨ x.phase = .placed) →
    ∃ t y, exec (.poisonConsumed grid n) s = .next t ∧ t.gridAt grid = some y ∧ t.mem = s.mem ∧
      (∀ w ∈ t.allWaves, w.env.grid = grid → w.env.reach = n → w.status = .absent) ∧
      (g.record.relaunchable = true → x.relaunches < 2 → y.creln = min 255 (g.creln + 1) ∧ y.failed = g.failed ∧
        ∃ z, y.reachAt n = some z ∧ z.phase = .waiting ∧ z.relaunches = x.relaunches + 1) ∧
      (g.record.relaunchable = false ∨ 2 ≤ x.relaunches → y.failed = true ∧ ∀ z ∈ y.reaches, z.phase = .ended)) ∧
  (∀ (s : State) (grid n : Nat), (∀ g x, s.gridAt grid = some g → g.reachAt n = some x → x.phase ≠ .running ∧ x.phase ≠ .placed) →
    exec (.poisonConsumed grid n) s = .next s) ∧
  (∀ (s : State) (vi : Nat) (v : Vi), s.viAt vi = some v →
    (v.phase = .built ∨ v.phase = .active ∨ v.phase = .frozen → v.preempt = none →
      ∃ t, exec (.preemptRequest vi) s = .next t ∧ t.mem = s.mem ∧ t.viAt vi = some { v with preempt := some {
        since := s.clock.sectors, graceOver := if s.hub.pgrace = 0 then List.range 6 else [], waiting := s.enginesOf vi,
        saved := decide (s.enginesOf vi = []) } }) ∧
    (∀ p, v.preempt = some p → p.saved = false →
      (s.graceSectors p ≠ p.graceOver →
        ∃ t, exec (.pgraceExpiry vi) s = .next t ∧ t.mem = s.mem ∧
          t.viAt vi = some { v with preempt := some { p with graceOver := s.graceSectors p } }) ∧
      (∀ i, i ∈ s.graceSectors p ↔ i < 6 ∧ (i ∈ p.graceOver ∨
        p.since.getD i 0 / 8 + s.hub.pgrace ≤ s.clock.sectors.getD i 0 / 8)) ∧
      (∀ c, .matrix c ∈ p.waiting → s.toDivide vi (.matrix c) ≠ [] →
        ∃ t, exec (.engineStopped vi (.matrix c)) s = .next t ∧ t.mem = s.mem ∧ t.viAt vi = some v ∧
          ∀ o ∈ (t.coreAt c).matrix.queue, o.env.vi = vi → o.divisible = true → o.begunAt = none) ∧
      (∀ e, e ∈ p.waiting → s.engineStopped vi e = true →
        ∃ t, exec (.engineStopped vi e) s = .next t ∧ t.mem = s.mem ∧
          t.viAt vi = some { v with preempt := some { p with
            waiting := p.waiting.erase e, saved := decide (p.waiting.erase e = []) } } ∧
          (p.waiting.erase e = [] → ∃ c ∈ t.hub.saved, c.vi = vi ∧ (∀ w ∈ s.allWaves, w.savedWith vi = true → w ∈ c.waves) ∧
            ∀ w ∈ t.allWaves, w.savedWith vi = false))) ∧
    (∀ p ctx u all, v.preempt = some p → p.saved = true → s.hub.saved.find? (·.vi == vi) = some ctx →
      s.replaceAll ctx (s.heldReaches vi) = some (u, all) → v.phase = .active → (∀ c ∈ u.core :: u.cores, c.halted = false) →
      ∃ t y, exec (.preemptResume vi) s = .next t ∧ t.viAt vi = some y ∧ y.preempt = none ∧ (∀ c ∈ t.hub.saved, c.vi ≠ vi) ∧
        ∀ w ∈ ctx.waves, w.env.vi = vi → ∀ m k, slotMove all w.env w.core w.slot = some (m, k) →
          (∀ z ∈ ctx.waves, ∀ m' k', slotMove all z.env z.core z.slot = some (m', k') → m'.new = m.new → k' = k → z = w) →
          ∃ x, t.waveAt ⟨m.new, k⟩ = some x ∧ x.arch = w.arch ∧ x.pos = w.pos ∧ x.status = w.status ∧ x.stop = none)) ∧
  (∀ (s : State) (core : Nat), core < 512 →
    (∃ t, exec (.debugHalt core) s = .next t ∧ t.mem = s.mem ∧ (t.coreAt core).halted = true ∧
      ∀ w ∈ s.allWaves, w.core = core → w.atStop = true →
        { w.finishAll with stop := some .halted, readySince := s.coreTime core } ∈ t.allWaves) ∧
    ((s.coreAt core).halted = true → ∃ t, exec (.debugRelease core) s = .next t ∧ t.mem = s.mem ∧ (t.coreAt core).halted = false ∧
      ∀ w ∈ s.allWaves, ∀ v, w.core = core → w.stop = some .halted → s.viAt w.env.vi = some v → v.phase = .active → v.preempt = none →
        { w with stop := none, readySince := s.coreTime core } ∈ t.allWaves)) ∧
  (∀ (s : State) (r : WaveRef) (w : Wave), s.waveAt r = some w → w.status = .stopped →
    (∃ t x, exec (.stoppedWaveRestart r none) s = .next t ∧ t.waveAt r = some x ∧ x.status = .exited ∧ t.mem = s.mem) ∧
    (∀ y : WaveRewrite, y.mode < 3 → ∃ t x, exec (.stoppedWaveRestart r (some y)) s = .next t ∧ t.mem = s.mem ∧ t.waveAt r = some x ∧
      x.arch.mode = Mode.decode y.mode ∧ x.arch.exm = y.exm &&& w.lanes ∧ x.status = .ready ∧
      x.pos = { Position.at y.pc with ridx := y.ridx, mid := y.mid } ∧
      x.arch.sregs = y.scalars.foldl (fun c z => Cells.write c z.1 z.2) w.arch.sregs ∧
      x.arch.vregs = y.vectors.foldl (fun c z => Cells.write c z.1 z.2) w.arch.vregs ∧
      (y.priv = [] → x.arch.preds = y.preds.foldl (fun c z => Cells.write c z.1 z.2) w.arch.preds ∧ x.arch.fpc = y.fpc.getD w.arch.fpc)))

end
end

