-- ==== Sys2Proof/Laws/Arith.lean ====
section
/-!
SUPPORT. The values of the integer instructions in the words of the spec's tables: shift amounts as bit fields, high products as
bit ranges, orders as comparisons of bit vectors, counts of leading, trailing and one bits.
-/
namespace Sys2Proof.Machine

theorem and_63 (y : DWord) : (y &&& 63).toNat = y.toNat % 64 := by
  rw [BitVec.toNat_and]; exact Nat.and_two_pow_sub_one_eq_mod y.toNat 6

theorem and_31 (y : Word) : (y &&& 31).toNat = y.toNat % 32 := by
  rw [BitVec.toNat_and]; exact Nat.and_two_pow_sub_one_eq_mod y.toNat 5

theorem shl_63 (x y : DWord) : x <<< (y.toNat % 64) = x <<< (y &&& 63) := by rw [← and_63]; rfl
theorem shr_63 (x y : DWord) : x >>> (y.toNat % 64) = x >>> (y &&& 63) := by rw [← and_63]; rfl
theorem sra_63 (x y : DWord) : x.sshiftRight (y.toNat % 64) = x.sshiftRight' (y &&& 63) := by rw [← and_63]; rfl
theorem shl_31 (x y : Word) : x <<< (y.toNat % 32) = x <<< (y &&& 31) := by rw [← and_31]; rfl
theorem shr_31 (x y : Word) : x >>> (y.toNat % 32) = x >>> (y &&& 31) := by rw [← and_31]; rfl
theorem sra_31 (x y : Word) : x.sshiftRight (y.toNat % 32) = x.sshiftRight' (y &&& 31) := by rw [← and_31]; rfl

/-- The high half of a product of naturals as a bit range. -/
theorem mulhu_extract {n : Nat} (x y : BitVec n) :
    BitVec.ofNat n (x.toNat * y.toNat / 2 ^ n) = (x.setWidth (n + n) * y.setWidth (n + n)).extractLsb' n n := by
  apply BitVec.eq_of_toNat_eq
  have h1 : x.toNat * y.toNat < 2 ^ (n + n) := by rw [Nat.pow_add]; exact Nat.mul_lt_mul'' x.isLt y.isLt
  have h2 : 2 ^ n ≤ 2 ^ (n + n) := Nat.pow_le_pow_right (by decide) (by omega)
  simp only [BitVec.toNat_ofNat, BitVec.extractLsb'_toNat, BitVec.toNat_mul, BitVec.toNat_setWidth, Nat.shiftRight_eq_div_pow]
  rw [Nat.mod_eq_of_lt (Nat.lt_of_lt_of_le x.isLt h2), Nat.mod_eq_of_lt (Nat.lt_of_lt_of_le y.isLt h2), Nat.mod_eq_of_lt h1]

/-- The high half of a signed product as a bit range. -/
theorem mulh_extract {n : Nat} (x y : BitVec n) :
    ofInt n (x.toInt * y.toInt / 2 ^ n) = (x.signExtend (n + n) * y.signExtend (n + n)).extractLsb' n n := by
  have h : x.signExtend (n + n) * y.signExtend (n + n) = BitVec.ofInt (n + n) (x.toInt * y.toInt) := by
    rw [BitVec.ofInt_mul]; rfl
  rw [h]
  generalize x.toInt * y.toInt = z
  apply BitVec.eq_of_toNat_eq
  simp only [ofInt, BitVec.toNat_ofInt, BitVec.extractLsb'_toNat, Nat.shiftRight_eq_div_pow]
  have hp : (0 : Int) < 2 ^ n := by exact Int.pow_pos (by decide)
  have e : ((2 ^ (n + n) : Nat) : Int) = 2 ^ n * 2 ^ n := by rw [Nat.pow_add]; push_cast; rfl
  have e1 : ((2 ^ n : Nat) : Int) = 2 ^ n := by push_cast; rfl
  have h0 : 0 ≤ z % (2 ^ n * 2 ^ n) := Int.emod_nonneg _ (by have := Int.mul_pos hp hp; omega)
  have h1 : 0 ≤ z / 2 ^ n % 2 ^ n := Int.emod_nonneg _ (by omega)
  rw [e, e1]
  apply Int.ofNat.inj
  show ((z / 2 ^ n % 2 ^ n).toNat : Int) = (((z % (2 ^ n * 2 ^ n)).toNat / 2 ^ n % 2 ^ n : Nat) : Int)
  push_cast
  rw [Int.toNat_of_nonneg h1, Int.toNat_of_nonneg h0]
  rw [Int.emod_def z, Int.mul_assoc, Int.sub_eq_add_neg, ← Int.mul_neg, Int.add_mul_ediv_left _ _ (by omega), ← Int.mul_neg, Int.add_mul_emod_self_left]

theorem min_slt {n : Nat} (x y : BitVec n) : (if x.toInt ≤ y.toInt then x else y) = if y.slt x then y else x := by
  simp only [BitVec.slt, decide_eq_true_eq]; split <;> split <;> first | rfl | omega

theorem max_slt {n : Nat} (x y : BitVec n) : (if x.toInt ≤ y.toInt then y else x) = if x.slt y then y else x := by
  simp only [BitVec.slt, decide_eq_true_eq]
  split <;> split <;> first | rfl | omega | exact BitVec.eq_of_toInt_eq (by omega)

theorem min_ult {n : Nat} (x y : BitVec n) : (if x.toNat ≤ y.toNat then x else y) = if y.ult x then y else x := by
  simp only [BitVec.ult, decide_eq_true_eq]; split <;> split <;> first | rfl | omega

theorem max_ult {n : Nat} (x y : BitVec n) : (if x.toNat ≤ y.toNat then y else x) = if x.ult y then y else x := by
  simp only [BitVec.ult, decide_eq_true_eq]
  split <;> split <;> first | rfl | omega | exact BitVec.eq_of_toNat_eq (by omega)

/-- The first position from the low end that holds a one bit. -/
theorem find_takeWhile (p : Nat → Bool) (n : Nat) : ∀ k m, k + m = n →
    ((List.range' k m).find? p).getD n = k + ((List.range' k m).takeWhile fun i => !p i).length := by
  intro k m
  induction m generalizing k with
  | zero => intro h; simp; omega
  | succ m ih =>
    intro h
    rw [List.range'_succ, List.find?_cons, List.takeWhile_cons]
    cases hp : p k with
    | true => simp
    | false =>
      have := ih (k + 1) (by omega)
      simp only [Bool.not_false, if_true, List.length_cons]
      omega

theorem ctz_takeWhile {n : Nat} (x : BitVec n) : ctz x = ((List.range n).takeWhile fun i => !x.getLsbD i).length := by
  have := find_takeWhile (fun i => x.getLsbD i) n 0 n (by omega)
  unfold ctz
  rw [List.range_eq_range', this, Nat.zero_add]

/-- The zero bits before the first one bit, counted from the high end. -/
theorem takeWhile_count (p : Nat → Bool) (n k : Nat) (hk : k ≤ n) (h1 : ∀ i, i < k → p i = true) (h2 : k < n → p k = false) :
    ((List.range n).takeWhile p).length = k := by
  induction n generalizing p k with
  | zero => simp; omega
  | succ n ih =>
    rw [List.range_succ_eq_map, List.takeWhile_cons]
    cases k with
    | zero => rw [h2 (by omega)]; rfl
    | succ k =>
      rw [h1 0 (by omega), if_pos rfl, List.length_cons, List.takeWhile_map, List.length_map]
      exact congrArg (· + 1) (ih (fun i => p (i + 1)) k (by omega) (fun i hi => h1 (i + 1) (by omega)) (fun h => h2 (by omega)))

theorem clz_takeWhile {n : Nat} (x : BitVec n) : clz x = ((List.range n).takeWhile fun i => !x.getLsbD (n - 1 - i)).length := by
  symm
  unfold clz
  by_cases h : x = 0
  · rw [if_pos h]
    refine takeWhile_count _ n n (Nat.le_refl n) (fun i _ => ?_) (fun h => absurd h (by omega))
    subst h; simp
  · rw [if_neg h]
    have hx : x.toNat ≠ 0 := fun e => h (BitVec.eq_of_toNat_eq (by simpa using e))
    have hl : Nat.log2 x.toNat < n := (Nat.log2_lt hx).2 x.isLt
    have hlo : 2 ^ Nat.log2 x.toNat ≤ x.toNat := Nat.log2_self_le hx
    have hhi : x.toNat < 2 ^ (Nat.log2 x.toNat + 1) := Nat.lt_log2_self
    refine takeWhile_count _ n _ (by omega) (fun i hi => ?_) (fun _ => ?_)
    · have : x.toNat < 2 ^ (n - 1 - i) := Nat.lt_of_lt_of_le hhi (Nat.pow_le_pow_right (by decide) (by omega))
      simp [BitVec.getLsbD, Nat.testBit_lt_two_pow this]
    · have e : n - 1 - (n - 1 - Nat.log2 x.toNat) = Nat.log2 x.toNat := by omega
      rw [e]
      have := Nat.testBit_log2 hx
      simp [BitVec.getLsbD, this]

/-- A signed reading is the reading of a bit vector of that width. -/
theorem sextN_toInt (n v : Nat) (hn : 0 < n) : sextN n v = (BitVec.ofNat n v).toInt := by
  unfold sextN
  rw [BitVec.toInt_eq_toNat_cond, BitVec.toNat_ofNat]
  have h : 2 ^ n = 2 * 2 ^ (n - 1) := by rw [← Nat.pow_succ']; congr 1; omega
  have e : ((2 ^ n : Nat) : Int) = 2 ^ n := by push_cast; rfl
  by_cases hv : v % 2 ^ n < 2 ^ (n - 1)
  · rw [if_pos hv, if_pos (by omega)]
  · rw [if_neg hv, if_neg (by omega), e]

theorem bitsN_testBit (x hi lo k : Nat) (h : lo ≤ hi) : (bitsN x hi lo).testBit k = (decide (k ≤ hi - lo) && x.testBit (lo + k)) := by
  unfold bitsN
  rw [Nat.testBit_mod_two_pow, Nat.testBit_div_two_pow]
  congr 1
  · exact decide_eq_decide.2 (by omega)
  · rw [Nat.add_comm]

/-- The fields that control the bit-field instructions, and that they are in order (R192). -/
theorem bfPos_and (y : DWord) : bfPos y = (y &&& 63).toNat := by rw [and_63]; simp [bfPos, bitsN]

theorem bfTop_and (y : DWord) : bfTop y = min ((y &&& 63).toNat + ((y >>> 8) &&& 63).toNat) 63 := by
  unfold bfTop; rw [bfPos_and, and_63, and_63]; simp [bitsN, Nat.shiftRight_eq_div_pow]

theorem bfPos_le_bfTop (y : DWord) : bfPos y ≤ bfTop y ∧ bfTop y ≤ 63 := by
  have : bfPos y < 64 := by rw [bfPos_and, and_63]; omega
  unfold bfTop; omega

/-- The bits of an extracted field (R192). -/
theorem sbfxu_getLsbD (x y : DWord) (k : Nat) (hk : k < 64) :
    (BitVec.ofNat 64 (bitsN x.toNat (bfTop y) (bfPos y))).getLsbD k = (decide (k ≤ bfTop y - bfPos y) && x.getLsbD (bfPos y + k)) := by
  rw [BitVec.getLsbD_ofNat, bitsN_testBit _ _ _ _ (bfPos_le_bfTop y).1]
  simp [hk, BitVec.getLsbD]

theorem sbfx_getLsbD (x y : DWord) (k : Nat) (hk : k < 64) :
    (ofInt 64 (sextN (bfLen y) (bitsN x.toNat (bfTop y) (bfPos y)))).getLsbD k =
      x.getLsbD (if k ≤ bfTop y - bfPos y then bfPos y + k else bfTop y) := by
  have h := bfPos_le_bfTop y
  have hl : bfLen y = bfTop y - bfPos y + 1 := rfl
  rw [sextN_toInt _ _ (by omega)]
  show ((BitVec.ofNat (bfLen y) (bitsN x.toNat (bfTop y) (bfPos y))).signExtend 64).getLsbD k = _
  rw [BitVec.getLsbD_signExtend, BitVec.getLsbD_ofNat, BitVec.msb_eq_getLsbD_last, BitVec.getLsbD_ofNat,
    bitsN_testBit _ _ _ _ h.1, bitsN_testBit _ _ _ _ h.1]
  by_cases hc : k ≤ bfTop y - bfPos y
  · rw [if_pos hc, if_pos (by omega)]
    simp [hk, hc, BitVec.getLsbD]; omega
  · rw [if_neg hc, if_neg (by omega)]
    have e : bfPos y + (bfLen y - 1) = bfTop y := by omega
    rw [e]
    simp [hk, BitVec.getLsbD, hl]

/-- The bits of a deposited field (R192). -/
theorem sbfi_getLsbD (base x y : DWord) (k : Nat) (hk : k < 64) :
    ((base &&& ~~~(BitVec.ofNat 64 ((2 ^ bfLen y - 1) * 2 ^ bfPos y))) |||
      ((x <<< bfPos y) &&& BitVec.ofNat 64 ((2 ^ bfLen y - 1) * 2 ^ bfPos y))).getLsbD k =
      if bfPos y ≤ k ∧ k ≤ bfTop y then x.getLsbD (k - bfPos y) else base.getLsbD k := by
  have h := bfPos_le_bfTop y
  have hl : bfLen y = bfTop y - bfPos y + 1 := rfl
  have hm : (BitVec.ofNat 64 ((2 ^ bfLen y - 1) * 2 ^ bfPos y)).getLsbD k = decide (bfPos y ≤ k ∧ k ≤ bfTop y) := by
    rw [BitVec.getLsbD_ofNat, Nat.mul_comm, Nat.testBit_two_pow_mul, Nat.testBit_two_pow_sub_one]
    simp only [hk, decide_true, Bool.true_and, ge_iff_le, ← Bool.decide_and]
    exact decide_eq_decide.2 (by omega)
  rw [BitVec.getLsbD_or, BitVec.getLsbD_and, BitVec.getLsbD_and, BitVec.getLsbD_not, hm, BitVec.getLsbD_shiftLeft]
  by_cases hc : bfPos y ≤ k ∧ k ≤ bfTop y
  · simp [hc, hk]
  · simp [hc, hk]

/-- The sums of four byte products (R194). -/
theorem dot4_signed (a b c : Word) : ofInt 32 (c.toInt + dot4 (fun x => x.toInt) a b) =
    c + (a.extractLsb' 0 8).signExtend 32 * (b.extractLsb' 0 8).signExtend 32 +
      (a.extractLsb' 8 8).signExtend 32 * (b.extractLsb' 8 8).signExtend 32 +
      (a.extractLsb' 16 8).signExtend 32 * (b.extractLsb' 16 8).signExtend 32 +
      (a.extractLsb' 24 8).signExtend 32 * (b.extractLsb' 24 8).signExtend 32 := by
  have f : ∀ (w : Word) (lo : Nat), w.field lo 8 = w.extractLsb' lo 8 := fun w lo => by
    apply BitVec.eq_of_toNat_eq; simp [Word.field, Nat.shiftRight_eq_div_pow]
  simp only [dot4, List.range, List.range.loop, List.map, List.foldl, f, ofInt, BitVec.ofInt_add, BitVec.ofInt_mul, BitVec.ofInt_toInt, BitVec.signExtend]
  simp [BitVec.add_assoc]

theorem dot4_unsigned (a b c : Word) : ofInt 32 (c.toInt + dot4 (fun x => x.toNat) a b) =
    c + (a.extractLsb' 0 8).setWidth 32 * (b.extractLsb' 0 8).setWidth 32 +
      (a.extractLsb' 8 8).setWidth 32 * (b.extractLsb' 8 8).setWidth 32 +
      (a.extractLsb' 16 8).setWidth 32 * (b.extractLsb' 16 8).setWidth 32 +
      (a.extractLsb' 24 8).setWidth 32 * (b.extractLsb' 24 8).setWidth 32 := by
  have f : ∀ (w : Word) (lo : Nat), w.field lo 8 = w.extractLsb' lo 8 := fun w lo => by
    apply BitVec.eq_of_toNat_eq; simp [Word.field, Nat.shiftRight_eq_div_pow]
  have g : ∀ x : Byte, BitVec.ofInt 32 (x.toNat : Int) = x.setWidth 32 := fun x => by
    rw [BitVec.ofInt_natCast]; exact BitVec.ofNat_toNat 32 x
  simp only [dot4, List.range, List.range.loop, List.map, List.foldl, f, ofInt, BitVec.ofInt_add, BitVec.ofInt_mul, BitVec.ofInt_toInt, g]
  simp [BitVec.add_assoc]

end Sys2Proof.Machine
end

