-- ==== Sys2Proof/Laws/Cells.lean ====
section
/-!
SUPPORT. Sparse cells: what a write leaves to be read, and that a write keeps the canonical form.
-/
namespace Sys2Proof.Machine

variable {w : Nat}

theorem Cells.read_put (c : Cells w) (k j : Nat) (v : BitVec w) :
    Cells.read (Cells.put c k v) j = if j = k then v else Cells.read c j := by
  induction c with
  | nil => simp [Cells.put, Cells.read]
  | cons p c ih =>
    obtain ⟨i, x⟩ := p
    simp only [Cells.put]
    split
    · simp [Cells.read]
    · split
      · subst_vars
        simp only [Cells.read]
        split <;> rfl
      · simp only [Cells.read, ih]
        split <;> split <;> simp_all

theorem Cells.read_drop (c : Cells w) (k j : Nat) :
    Cells.read (Cells.drop c k) j = if j = k then 0 else Cells.read c j := by
  induction c with
  | nil => simp [Cells.drop, Cells.read]
  | cons p c ih =>
    obtain ⟨i, x⟩ := p
    simp only [Cells.drop, List.filter_cons] at ih ⊢
    split <;> simp_all [Cells.read] <;> split <;> simp_all

/-- Reading after a write: the value written at its key, the old value at every other key. -/
theorem Cells.read_write (c : Cells w) (k j : Nat) (v : BitVec w) :
    Cells.read (Cells.write c k v) j = if j = k then v else Cells.read c j := by
  unfold Cells.write
  split
  · subst_vars; exact Cells.read_drop c k j
  · exact Cells.read_put c k j v

@[simp] theorem Cells.read_write_self (c : Cells w) (k : Nat) (v : BitVec w) :
    Cells.read (Cells.write c k v) k = v := by simp [Cells.read_write]

theorem Cells.read_write_ne (c : Cells w) {k j : Nat} (v : BitVec w) (h : j ≠ k) :
    Cells.read (Cells.write c k v) j = Cells.read c j := by simp [Cells.read_write, h]

/-- The canonical form, as a statement about neighbours. -/
theorem Cells.wf_cons (k : Nat) (v : BitVec w) (c : Cells w) :
    Cells.wf ((k, v) :: c) = true ↔ v ≠ 0 ∧ (∀ p ∈ c.head?, k < p.1) ∧ Cells.wf c = true := by
  cases c with
  | nil => simp [Cells.wf]
  | cons p c => obtain ⟨i, x⟩ := p; simp [Cells.wf, and_assoc]

theorem Cells.wf_tail {p : Nat × BitVec w} {c : Cells w} (h : Cells.wf (p :: c) = true) : Cells.wf c = true := by
  obtain ⟨k, v⟩ := p
  exact ((Cells.wf_cons k v c).1 h).2.2

theorem Cells.head?_put (c : Cells w) (k : Nat) (v : BitVec w) :
    ∀ p ∈ (Cells.put c k v).head?, p.1 = k ∨ ∃ q ∈ c.head?, q.1 = p.1 := by
  cases c with
  | nil => simp [Cells.put]
  | cons p c =>
    obtain ⟨i, x⟩ := p
    simp only [Cells.put]
    split
    · simp
    · split <;> simp_all

theorem Cells.wf_put (c : Cells w) (k : Nat) (v : BitVec w) (hv : v ≠ 0) (h : Cells.wf c = true) :
    Cells.wf (Cells.put c k v) = true := by
  induction c with
  | nil => simpa [Cells.put, Cells.wf] using hv
  | cons p c ih =>
    obtain ⟨i, x⟩ := p
    obtain ⟨hx, hh, ht⟩ := (Cells.wf_cons i x c).1 h
    simp only [Cells.put]
    split
    · exact (Cells.wf_cons _ _ _).2 ⟨hv, by simpa, h⟩
    · split
      · subst_vars; exact (Cells.wf_cons _ _ _).2 ⟨hv, hh, ht⟩
      · refine (Cells.wf_cons _ _ _).2 ⟨hx, fun p hp => ?_, ih ht⟩
        rcases Cells.head?_put c k v p hp with h1 | ⟨q, hq, h2⟩
        · omega
        · have := hh q hq; omega

theorem Cells.lt_of_mem {k : Nat} {v : BitVec w} {c : Cells w} (h : Cells.wf ((k, v) :: c) = true) :
    ∀ p ∈ c, k < p.1 := by
  induction c generalizing k v with
  | nil => simp
  | cons q c ih =>
    obtain ⟨i, x⟩ := q
    obtain ⟨_, hh, ht⟩ := (Cells.wf_cons k v _).1 h
    have hki : k < i := hh (i, x) (by simp)
    intro p hp
    rcases List.mem_cons.1 hp with rfl | hp
    · exact hki
    · exact Nat.lt_trans hki (ih ht p hp)

theorem Cells.wf_drop (c : Cells w) (k : Nat) (h : Cells.wf c = true) : Cells.wf (Cells.drop c k) = true := by
  induction c with
  | nil => exact h
  | cons p c ih =>
    obtain ⟨i, x⟩ := p
    have hl := Cells.lt_of_mem h
    obtain ⟨hx, _, ht⟩ := (Cells.wf_cons i x c).1 h
    have ihc := ih ht
    simp only [Cells.drop, List.filter_cons] at ihc ⊢
    split
    · refine (Cells.wf_cons _ _ _).2 ⟨hx, fun p hp => ?_, ihc⟩
      exact hl p ((List.mem_filter.1 (List.mem_of_mem_head? hp)).1)
    · exact ihc

/-- Every write keeps the canonical form. -/
theorem Cells.wf_write (c : Cells w) (k : Nat) (v : BitVec w) (h : Cells.wf c = true) :
    Cells.wf (Cells.write c k v) = true := by
  unfold Cells.write
  split
  · exact Cells.wf_drop c k h
  · exact Cells.wf_put c k v (by assumption) h

theorem Cells.wf_writeList (vs : List (BitVec w)) (c : Cells w) (k : Nat) (h : Cells.wf c = true) :
    Cells.wf (Cells.writeList c k vs) = true := by
  induction vs generalizing c k with
  | nil => exact h
  | cons v vs ih => exact ih _ _ (Cells.wf_write c k v h)

end Sys2Proof.Machine
end

