-- ==== Sys2Proof/Laws/Canonical.lean ====
section
/-!
SUPPORT. Every operation that writes memory keeps its canonical form: a byte, a list of bytes, bytes of a VI's tables, the mirror of a
control line.
-/
namespace Sys2Proof.Machine

theorem State.setCore_mem (s : State) (c : Core) : (s.setCore c).mem = s.mem := by
  unfold State.setCore
  split <;> (try split) <;> rfl

/-- A byte written keeps the canonical form. -/
theorem State.setByte_memInv (s : State) (p : Place) (b : Byte) (h : s.memInv) : (s.setByte p b).memInv := by
  cases p with
  | mem k => exact Cells.wf_write s.mem k b h
  | store c o =>
    unfold State.memInv State.setByte
    dsimp only
    rw [State.setCore_mem]
    exact h

/-- Bytes written keep the canonical form. -/
theorem State.setBytes_memInv (s : State) (ps : List Place) (bs : List Byte) (h : s.memInv) : (s.setBytes ps bs).memInv := by
  induction ps generalizing s bs with
  | nil => cases bs <;> exact h
  | cons p ps ih =>
    cases bs with
    | nil => exact h
    | cons b bs => exact ih _ _ (State.setByte_memInv s p b h)

/-- A poison bit set or cleared leaves the bytes. -/
theorem State.setPoison_mem (s : State) (p : Place) (on : Bool) : (s.setPoison p on).mem = s.mem := by
  cases p <;> rfl

theorem State.clearCovered_mem (s : State) (ps : List Place) : (s.clearCovered ps).mem = s.mem := by
  unfold State.clearCovered
  generalize hq : ps = qs
  rw [show ∀ (f : State → Place → State) (_ : ∀ s p, (f s p).mem = s.mem) (xs : List Place) (t : State), (xs.foldl f t).mem = t.mem from
    fun f hf xs => by
      induction xs with
      | nil => intro t; rfl
      | cons x xs ih => intro t; rw [List.foldl_cons, ih, hf]]
  intro t p
  split
  · exact State.setPoison_mem t p false
  · rfl

/-! ## What a write does beside its bytes: the caches and the mirror (R275, R277, R367) -/

theorem State.foldl_mem {α : Type} (f : State → α → State) (hf : ∀ s x, (f s x).mem = s.mem) (xs : List α) (s : State) :
    (xs.foldl f s).mem = s.mem := by
  induction xs generalizing s with
  | nil => rfl
  | cons x xs ih => rw [List.foldl_cons, ih, hf]

theorem State.makeRoom_mem (s : State) (u : CacheUnit) (line : Nat) : (s.makeRoom u line).mem = s.mem := by
  unfold State.makeRoom
  repeat' (first | rfl | split | dsimp only)

theorem State.useLine_mem (s : State) (u : CacheUnit) (line : Nat) (x : BitVec 4) (h : Use) : (s.useLine u line x h).mem = s.mem := by
  unfold State.useLine
  split
  · rfl
  · split
    · exact State.makeRoom_mem s u line
    · rfl

theorem State.useStack_mem (s : State) (k : Nat) (x : BitVec 4) (p : Nat) : (s.useStack k x p).mem = s.mem := by
  unfold State.useStack
  split
  · exact State.useLine_mem ..
  · rfl

theorem State.useHome_mem (s : State) (k : Nat) (x : BitVec 4) (p : Nat) : (s.useHome k x p).mem = s.mem := by
  unfold State.useHome
  split
  · rfl
  · split
    · rfl
    · dsimp only
      rw [State.useLine_mem]
      split
      · rfl
      · exact State.useStack_mem ..

theorem State.writeThrough_mem (s : State) (core : Option Nat) (policy : Nat) (ps : List Place) :
    (s.writeThrough core policy ps).mem = s.mem := by
  unfold State.writeThrough
  exact State.foldl_mem _ (fun s k => by unfold State.writeSector; rw [State.useHome_mem]; rfl) _ _

theorem State.transmit_mem (s : State) (p : FabPacket) (x : Port) : (s.transmit p x).mem = s.mem := rfl

theorem State.updateKey_mem (s : State) (n : Nat) : (s.updateKey n).mem = s.mem := by
  unfold State.updateKey
  split
  · rfl
  · dsimp only
    split <;> rfl

theorem State.launchOn_mem (s : State) (p : FabPacket) (n : Nat) : (s.launchOn p n).mem = s.mem := by
  unfold State.launchOn
  split
  · rfl
  · dsimp only
    split
    · rw [State.transmit_mem]
      split
      · exact State.updateKey_mem s n
      · rfl
    · split
      · exact State.updateKey_mem s n
      · rfl

theorem State.place1_mem (s : State) (p : FabPacket) (x : Port) : (s.place1 p x).mem = s.mem := by
  unfold State.place1
  split
  · rfl
  · exact State.launchOn_mem ..

theorem State.post_mem (s : State) (p : FabPacket) : (s.post p).mem = s.mem := by
  unfold State.post State.dispatchPacket
  dsimp only
  split
  · rw [State.place1_mem]; rfl
  · split
    · rw [State.place1_mem]; rfl
    · rfl

theorem State.mirrorLine_mem (s : State) (line : Nat) : (s.mirrorLine line).mem = s.mem := by
  unfold State.mirrorLine
  split
  · split
    · exact State.post_mem ..
    · rfl
  · rfl

/-- What a write does beside its bytes leaves memory as it is. -/
theorem State.written_mem (s : State) (core : Option Nat) (policy : Nat) (ps : List Place) : (s.written core policy ps).mem = s.mem := by
  unfold State.written
  rw [State.foldl_mem _ State.mirrorLine_mem, State.writeThrough_mem]

/-- A VI's table written keeps the canonical form. -/
theorem State.tableWrite_memInv (s : State) (v : Vi) (o : Nat) (bs : List Byte) (h : s.memInv) : (s.tableWrite v o bs).memInv := by
  unfold State.memInv State.tableWrite
  rw [State.written_mem]
  exact Cells.wf_writeList bs s.mem (v.ctlKey o) h

end Sys2Proof.Machine
end

