-- ==== Sys2Proof/Laws/Dispatch.lean ====
section
/-!
SUPPORT. What `exec` runs for each constructor: its own meaning.
-/
namespace Sys2Proof.Machine

@[simp] theorem exec_powerGood im (s : State) : exec (.powerGood im) s = execPowerGood im s := rfl
@[simp] theorem exec_startupStepTimeout step (s : State) : exec (.startupStepTimeout step) s = execStartupStepTimeout step s := rfl
@[simp] theorem exec_powerRemoval (s : State) : exec .powerRemoval s = execPowerRemoval s := rfl
@[simp] theorem exec_upstreamHotReset (s : State) : exec .upstreamHotReset s = execUpstreamHotReset s := rfl
@[simp] theorem exec_linkDown (s : State) : exec .linkDown s = execLinkDown s := rfl
@[simp] theorem exec_functionLevelReset vi (s : State) : exec (.functionLevelReset vi) s = execFunctionLevelReset vi s := rfl
@[simp] theorem exec_operatingPointLower block (s : State) : exec (.operatingPointLower block) s = execOperatingPointLower block s := rfl
@[simp] theorem exec_operatingPointRaise block (s : State) : exec (.operatingPointRaise block) s = execOperatingPointRaise block s := rfl
@[simp] theorem exec_operatingPointCeiling block point (s : State) : exec (.operatingPointCeiling block point) s = execOperatingPointCeiling block point s := rfl
@[simp] theorem exec_viBuild vi d (s : State) : exec (.viBuild vi d) s = execViBuild vi d s := rfl
@[simp] theorem exec_viStart vi (s : State) : exec (.viStart vi) s = execViStart vi s := rfl
@[simp] theorem exec_freezeRequest vi (s : State) : exec (.freezeRequest vi) s = execFreezeRequest vi s := rfl
@[simp] theorem exec_viResume vi (s : State) : exec (.viResume vi) s = execViResume vi s := rfl
@[simp] theorem exec_viTeardown vi (s : State) : exec (.viTeardown vi) s = execViTeardown vi s := rfl
@[simp] theorem exec_teardownComplete vi (s : State) : exec (.teardownComplete vi) s = execTeardownComplete vi s := rfl
@[simp] theorem exec_supervisorBudgetExpiry w (s : State) : exec (.supervisorBudgetExpiry w) s = execSupervisorBudgetExpiry w s := rfl
@[simp] theorem exec_kick vi q v o (s : State) : exec (.kick vi q v o) s = execKick vi q v o s := rfl
@[simp] theorem exec_queueStart vi q o (s : State) : exec (.queueStart vi q o) s = execQueueStart vi q o s := rfl
@[simp] theorem exec_queueStop vi q o (s : State) : exec (.queueStop vi q o) s = execQueueStop vi q o s := rfl
@[simp] theorem exec_slotRead vi q (s : State) : exec (.slotRead vi q) s = execSlotRead vi q s := rfl
@[simp] theorem exec_staleKickTimeout vi q (s : State) : exec (.staleKickTimeout vi q) s = execStaleKickTimeout vi q s := rfl
@[simp] theorem exec_dispatch (s : State) : exec .dispatch s = execDispatch s := rfl
@[simp] theorem exec_candidateReserved grid (s : State) : exec (.candidateReserved grid) s = execCandidateReserved grid s := rfl
@[simp] theorem exec_reachStart grid reach (s : State) : exec (.reachStart grid reach) s = execReachStart grid reach s := rfl
@[simp] theorem exec_ferryGridStart grid (s : State) : exec (.ferryGridStart grid) s = execFerryGridStart grid s := rfl
@[simp] theorem exec_spawnBinTimeout core bin (s : State) : exec (.spawnBinTimeout core bin) s = execSpawnBinTimeout core bin s := rfl
@[simp] theorem exec_binWaveStart core bin (s : State) : exec (.binWaveStart core bin) s = execBinWaveStart core bin s := rfl
@[simp] theorem exec_waveBoost w (s : State) : exec (.waveBoost w) s = execWaveBoost w s := rfl
@[simp] theorem exec_clauseStart w (s : State) : exec (.clauseStart w) s = execClauseStart w s := rfl
@[simp] theorem exec_fetchFillComplete w (s : State) : exec (.fetchFillComplete w) s = execFetchFillComplete w s := rfl
@[simp] theorem exec_lookoutStart w (s : State) : exec (.lookoutStart w) s = execLookoutStart w s := rfl
@[simp] theorem exec_lookoutTimeout w (s : State) : exec (.lookoutTimeout w) s = execLookoutTimeout w s := rfl
@[simp] theorem exec_longLatencyComplete w op (s : State) : exec (.longLatencyComplete w op) s = execLongLatencyComplete w op s := rfl
@[simp] theorem exec_terminalInstructionComplete w (s : State) : exec (.terminalInstructionComplete w) s = execTerminalInstructionComplete w s := rfl
@[simp] theorem exec_barrierComplete b (s : State) : exec (.barrierComplete b) s = execBarrierComplete b s := rfl
@[simp] theorem exec_trapEntry w (s : State) : exec (.trapEntry w) s = execTrapEntry w s := rfl
@[simp] theorem exec_engineFailureTrap w (s : State) : exec (.engineFailureTrap w) s = execEngineFailureTrap w s := rfl
@[simp] theorem exec_watchdogExpiry w (s : State) : exec (.watchdogExpiry w) s = execWatchdogExpiry w s := rfl
@[simp] theorem exec_watchdogTrap w (s : State) : exec (.watchdogTrap w) s = execWatchdogTrap w s := rfl
@[simp] theorem exec_singleStepTrap w (s : State) : exec (.singleStepTrap w) s = execSingleStepTrap w s := rfl
@[simp] theorem exec_exitTakesEffect w (s : State) : exec (.exitTakesEffect w) s = execExitTakesEffect w s := rfl
@[simp] theorem exec_teamComplete grid team (s : State) : exec (.teamComplete grid team) s = execTeamComplete grid team s := rfl
@[simp] theorem exec_gridRetire grid (s : State) : exec (.gridRetire grid) s = execGridRetire grid s := rfl
@[simp] theorem exec_travellerDepart core (s : State) : exec (.travellerDepart core) s = execTravellerDepart core s := rfl
@[simp] theorem exec_travellerArrival n (s : State) : exec (.travellerArrival n) s = execTravellerArrival n s := rfl
@[simp] theorem exec_travellerReoffer core n (s : State) : exec (.travellerReoffer core n) s = execTravellerReoffer core n s := rfl
@[simp] theorem exec_overflowTake core (s : State) : exec (.overflowTake core) s = execOverflowTake core s := rfl
@[simp] theorem exec_landingQueueAdvance core (s : State) : exec (.landingQueueAdvance core) s = execLandingQueueAdvance core s := rfl
@[simp] theorem exec_segmentReplication grid seg (s : State) : exec (.segmentReplication grid seg) s = execSegmentReplication grid seg s := rfl
@[simp] theorem exec_replicaLoadComplete grid seg (s : State) : exec (.replicaLoadComplete grid seg) s = execReplicaLoadComplete grid seg s := rfl
@[simp] theorem exec_pincmdPin vi w (s : State) : exec (.pincmdPin vi w) s = execPincmdPin vi w s := rfl
@[simp] theorem exec_pincmdUnpin vi w (s : State) : exec (.pincmdUnpin vi w) s = execPincmdUnpin vi w s := rfl
@[simp] theorem exec_pinWindowComplete vi w (s : State) : exec (.pinWindowComplete vi w) s = execPinWindowComplete vi w s := rfl
@[simp] theorem exec_ownershipTransfer region (s : State) : exec (.ownershipTransfer region) s = execOwnershipTransfer region s := rfl
@[simp] theorem exec_ownershipHoldExpiry region (s : State) : exec (.ownershipHoldExpiry region) s = execOwnershipHoldExpiry region s := rfl
@[simp] theorem exec_keeperMessage slice (s : State) : exec (.keeperMessage slice) s = execKeeperMessage slice s := rfl
@[simp] theorem exec_keeperRelease slice (s : State) : exec (.keeperRelease slice) s = execKeeperRelease slice s := rfl
@[simp] theorem exec_keeperStrike slice (s : State) : exec (.keeperStrike slice) s = execKeeperStrike slice s := rfl
@[simp] theorem exec_copyComplete id st (s : State) : exec (.copyComplete id st) s = execCopyComplete id st s := rfl
@[simp] theorem exec_gatherComplete id st (s : State) : exec (.gatherComplete id st) s = execGatherComplete id st s := rfl
@[simp] theorem exec_collectiveComplete id st (s : State) : exec (.collectiveComplete id st) s = execCollectiveComplete id st s := rfl
@[simp] theorem exec_xratomResult id st (s : State) : exec (.xratomResult id st) s = execXratomResult id st s := rfl
@[simp] theorem exec_amsgReply id (s : State) : exec (.amsgReply id) s = execAmsgReply id s := rfl
@[simp] theorem exec_matrixOpBegin core op (s : State) : exec (.matrixOpBegin core op) s = execMatrixOpBegin core op s := rfl
@[simp] theorem exec_matrixOpComplete core op (s : State) : exec (.matrixOpComplete core op) s = execMatrixOpComplete core op s := rfl
@[simp] theorem exec_readShared p (s : State) : exec (.readShared p) s = execReadShared p s := rfl
@[simp] theorem exec_readOwn p (s : State) : exec (.readOwn p) s = execReadOwn p s := rfl
@[simp] theorem exec_upgrade p (s : State) : exec (.upgrade p) s = execUpgrade p s := rfl
@[simp] theorem exec_writeback p (s : State) : exec (.writeback p) s = execWriteback p s := rfl
@[simp] theorem exec_controlAtomic p (s : State) : exec (.controlAtomic p) s = execControlAtomic p s := rfl
@[simp] theorem exec_dataShared p (s : State) : exec (.dataShared p) s = execDataShared p s := rfl
@[simp] theorem exec_dataExclusive p (s : State) : exec (.dataExclusive p) s = execDataExclusive p s := rfl
@[simp] theorem exec_completion p (s : State) : exec (.completion p) s = execCompletion p s := rfl
@[simp] theorem exec_forwardedRead p (s : State) : exec (.forwardedRead p) s = execForwardedRead p s := rfl
@[simp] theorem exec_invalidate p (s : State) : exec (.invalidate p) s = execInvalidate p s := rfl
@[simp] theorem exec_acknowledgement p (s : State) : exec (.acknowledgement p) s = execAcknowledgement p s := rfl
@[simp] theorem exec_mirrorUpdate p (s : State) : exec (.mirrorUpdate p) s = execMirrorUpdate p s := rfl
@[simp] theorem exec_mirrorAcknowledgement p (s : State) : exec (.mirrorAcknowledgement p) s = execMirrorAcknowledgement p s := rfl
@[simp] theorem exec_tensorRead p (s : State) : exec (.tensorRead p) s = execTensorRead p s := rfl
@[simp] theorem exec_tensorWrite p (s : State) : exec (.tensorWrite p) s = execTensorWrite p s := rfl
@[simp] theorem exec_remoteAtomic p (s : State) : exec (.remoteAtomic p) s = execRemoteAtomic p s := rfl
@[simp] theorem exec_collectiveData p (s : State) : exec (.collectiveData p) s = execCollectiveData p s := rfl
@[simp] theorem exec_readData p (s : State) : exec (.readData p) s = execReadData p s := rfl
@[simp] theorem exec_writeCompletion p (s : State) : exec (.writeCompletion p) s = execWriteCompletion p s := rfl
@[simp] theorem exec_atomicResult p (s : State) : exec (.atomicResult p) s = execAtomicResult p s := rfl
@[simp] theorem exec_collectiveAcknowledgement p (s : State) : exec (.collectiveAcknowledgement p) s = execCollectiveAcknowledgement p s := rfl
@[simp] theorem exec_faultRefusal p (s : State) : exec (.faultRefusal p) s = execFaultRefusal p s := rfl
@[simp] theorem exec_frozenRefusal p (s : State) : exec (.frozenRefusal p) s = execFrozenRefusal p s := rfl
@[simp] theorem exec_faultPageResume vi seq (s : State) : exec (.faultPageResume vi seq) s = execFaultPageResume vi seq s := rfl
@[simp] theorem exec_faultPageAbort vi seq (s : State) : exec (.faultPageAbort vi seq) s = execFaultPageAbort vi seq s := rfl
@[simp] theorem exec_streamResume p (s : State) : exec (.streamResume p) s = execStreamResume p s := rfl
@[simp] theorem exec_streamAbort p (s : State) : exec (.streamAbort p) s = execStreamAbort p s := rfl
@[simp] theorem exec_tensorRequestTimeout tag (s : State) : exec (.tensorRequestTimeout tag) s = execTensorRequestTimeout tag s := rfl
@[simp] theorem exec_controlRequestTimeout tag (s : State) : exec (.controlRequestTimeout tag) s = execControlRequestTimeout tag s := rfl
@[simp] theorem exec_linkReplay port (s : State) : exec (.linkReplay port) s = execLinkReplay port s := rfl
@[simp] theorem exec_portTraining port (s : State) : exec (.portTraining port) s = execPortTraining port s := rfl
@[simp] theorem exec_capabilityRecordSend port (s : State) : exec (.capabilityRecordSend port) s = execCapabilityRecordSend port s := rfl
@[simp] theorem exec_capabilityRecord port r (s : State) : exec (.capabilityRecord port r) s = execCapabilityRecord port r s := rfl
@[simp] theorem exec_spdmMessage port p (s : State) : exec (.spdmMessage port p) s = execSpdmMessage port p s := rfl
@[simp] theorem exec_measurementAccept port ok (s : State) : exec (.measurementAccept port ok) s = execMeasurementAccept port ok s := rfl
@[simp] theorem exec_portRunCommand port (s : State) : exec (.portRunCommand port) s = execPortRunCommand port s := rfl
@[simp] theorem exec_portRetrain port (s : State) : exec (.portRetrain port) s = execPortRetrain port s := rfl
@[simp] theorem exec_keyUpdate port (s : State) : exec (.keyUpdate port) s = execKeyUpdate port s := rfl
@[simp] theorem exec_linkStateSend (s : State) : exec .linkStateSend s = execLinkStateSend s := rfl
@[simp] theorem exec_linkState port p (s : State) : exec (.linkState port p) s = execLinkState port p s := rfl
@[simp] theorem exec_peerLost pkg (s : State) : exec (.peerLost pkg) s = execPeerLost pkg s := rfl
@[simp] theorem exec_sharerRecall pkg p (s : State) : exec (.sharerRecall pkg p) s = execSharerRecall pkg p s := rfl
@[simp] theorem exec_adoptionServe pkg (s : State) : exec (.adoptionServe pkg) s = execAdoptionServe pkg s := rfl
@[simp] theorem exec_ringInjection stop source (s : State) : exec (.ringInjection stop source) s = execRingInjection stop source s := rfl
@[simp] theorem exec_ringSharedMove stop n (s : State) : exec (.ringSharedMove stop n) s = execRingSharedMove stop n s := rfl
@[simp] theorem exec_ringEscapeMove stop n (s : State) : exec (.ringEscapeMove stop n) s = execRingEscapeMove stop n s := rfl
@[simp] theorem exec_ringEject stop n (s : State) : exec (.ringEject stop n) s = execRingEject stop n s := rfl
@[simp] theorem exec_channelPacketArrival m (s : State) : exec (.channelPacketArrival m) s = execChannelPacketArrival m s := rfl
@[simp] theorem exec_channelAccept ep seq ch (s : State) : exec (.channelAccept ep seq ch) s = execChannelAccept ep seq ch s := rfl
@[simp] theorem exec_channelReject ep seq ch (s : State) : exec (.channelReject ep seq ch) s = execChannelReject ep seq ch s := rfl
@[simp] theorem exec_channelReoffer ep seq ch (s : State) : exec (.channelReoffer ep seq ch) s = execChannelReoffer ep seq ch s := rfl
@[simp] theorem exec_cpsend ep v (s : State) : exec (.cpsend ep v) s = execCpsend ep v s := rfl
@[simp] theorem exec_cprecv ep v (s : State) : exec (.cprecv ep v) s = execCprecv ep v s := rfl
@[simp] theorem exec_cppoll ep (s : State) : exec (.cppoll ep) s = execCppoll ep s := rfl
@[simp] theorem exec_cptabWrite ep im v (s : State) : exec (.cptabWrite ep im v) s = execCptabWrite ep im v s := rfl
@[simp] theorem exec_chentWrite core v (s : State) : exec (.chentWrite core v) s = execChentWrite core v s := rfl
@[simp] theorem exec_tlbinv w v (s : State) : exec (.tlbinv w v) s = execTlbinv w v s := rfl
@[simp] theorem exec_tlbinvComplete w (s : State) : exec (.tlbinvComplete w) s = execTlbinvComplete w s := rfl
@[simp] theorem exec_capinv w v (s : State) : exec (.capinv w v) s = execCapinv w v s := rfl
@[simp] theorem exec_capinvComplete w (s : State) : exec (.capinvComplete w) s = execCapinvComplete w s := rfl
@[simp] theorem exec_registerWrite t v (s : State) : exec (.registerWrite t v) s = execRegisterWrite t v s := rfl
@[simp] theorem exec_hostPostedWrite t bytes (s : State) : exec (.hostPostedWrite t bytes) s = execHostPostedWrite t bytes s := rfl
@[simp] theorem exec_hostRead t len (s : State) : exec (.hostRead t len) s = execHostRead t len s := rfl
@[simp] theorem exec_strike core (s : State) : exec (.strike core) s = execStrike core s := rfl
@[simp] theorem exec_strikeReport core (s : State) : exec (.strikeReport core) s = execStrikeReport core s := rfl
@[simp] theorem exec_quarantineRelease core (s : State) : exec (.quarantineRelease core) s = execQuarantineRelease core s := rfl
@[simp] theorem exec_entryConfirm w (s : State) : exec (.entryConfirm w) s = execEntryConfirm w s := rfl
@[simp] theorem exec_uncorrectableError place (s : State) : exec (.uncorrectableError place) s = execUncorrectableError place s := rfl
@[simp] theorem exec_poisonConsumed grid reach (s : State) : exec (.poisonConsumed grid reach) s = execPoisonConsumed grid reach s := rfl
@[simp] theorem exec_preemptRequest vi (s : State) : exec (.preemptRequest vi) s = execPreemptRequest vi s := rfl
@[simp] theorem exec_pgraceExpiry vi (s : State) : exec (.pgraceExpiry vi) s = execPgraceExpiry vi s := rfl
@[simp] theorem exec_engineStopped vi e (s : State) : exec (.engineStopped vi e) s = execEngineStopped vi e s := rfl
@[simp] theorem exec_preemptResume vi (s : State) : exec (.preemptResume vi) s = execPreemptResume vi s := rfl
@[simp] theorem exec_debugHalt core (s : State) : exec (.debugHalt core) s = execDebugHalt core s := rfl
@[simp] theorem exec_debugRelease core (s : State) : exec (.debugRelease core) s = execDebugRelease core s := rfl
@[simp] theorem exec_nop (s : State) : exec .nop s = execNop s := rfl
@[simp] theorem exec_yield (s : State) : exec .yield s = execYield s := rfl
@[simp] theorem exec_exit (s : State) : exec .exit s = execExit s := rfl
@[simp] theorem exec_br o (s : State) : exec (.br o) s = execBr o s := rfl
@[simp] theorem exec_call o (s : State) : exec (.call o) s = execCall o s := rfl
@[simp] theorem exec_ret a (s : State) : exec (.ret a) s = execRet a s := rfl
@[simp] theorem exec_jmpr a (s : State) : exec (.jmpr a) s = execJmpr a s := rfl
@[simp] theorem exec_brsNz a o (s : State) : exec (.brsNz a o) s = execBrsNz a o s := rfl
@[simp] theorem exec_brsZ a o (s : State) : exec (.brsZ a o) s = execBrsZ a o s := rfl
@[simp] theorem exec_brpAny p o (s : State) : exec (.brpAny p o) s = execBrpAny p o s := rfl
@[simp] theorem exec_brpAll p o (s : State) : exec (.brpAll p o) s = execBrpAll p o s := rfl
@[simp] theorem exec_brpNone p o (s : State) : exec (.brpNone p o) s = execBrpNone p o s := rfl
@[simp] theorem exec_msplit d a (s : State) : exec (.msplit d a) s = execMsplit d a s := rfl
@[simp] theorem exec_melse a b (s : State) : exec (.melse a b) s = execMelse a b s := rfl
@[simp] theorem exec_mjoin a (s : State) : exec (.mjoin a) s = execMjoin a s := rfl
@[simp] theorem exec_mpush a b (s : State) : exec (.mpush a b) s = execMpush a b s := rfl
@[simp] theorem exec_mpop d (s : State) : exec (.mpop d) s = execMpop d s := rfl
@[simp] theorem exec_exmrd d (s : State) : exec (.exmrd d) s = execExmrd d s := rfl
@[simp] theorem exec_exmwr a (s : State) : exec (.exmwr a) s = execExmwr a s := rfl
@[simp] theorem exec_bexz o (s : State) : exec (.bexz o) s = execBexz o s := rfl
@[simp] theorem exec_sysc n (s : State) : exec (.sysc n) s = execSysc n s := rfl
@[simp] theorem exec_hvc n (s : State) : exec (.hvc n) s = execHvc n s := rfl
@[simp] theorem exec_rett r (s : State) : exec (.rett r) s = execRett r s := rfl
@[simp] theorem exec_bkpt n (s : State) : exec (.bkpt n) s = execBkpt n s := rfl
@[simp] theorem exec_prd d n (s : State) : exec (.prd d n) s = execPrd d n s := rfl
@[simp] theorem exec_pwr a n (s : State) : exec (.pwr a n) s = execPwr a n s := rfl
@[simp] theorem exec_wdog a (s : State) : exec (.wdog a) s = execWdog a s := rfl
@[simp] theorem exec_hsrc c x y z (s : State) : exec (.hsrc c x y z) s = execHsrc c x y z s := rfl
@[simp] theorem exec_hmod a b c d e f g h im j (s : State) : exec (.hmod a b c d e f g h im j) s = execHmod a b c d e f g h im j s := rfl
@[simp] theorem exec_hlive b m (s : State) : exec (.hlive b m) s = execHlive b m s := rfl
@[simp] theorem exec_hsch a b c d e (s : State) : exec (.hsch a b c d e) s = execHsch a b c d e s := rfl
@[simp] theorem exec_himm p (s : State) : exec (.himm p) s = execHimm p s := rfl
@[simp] theorem exec_sadd d a b (s : State) : exec (.sadd d a b) s = execSadd d a b s := rfl
@[simp] theorem exec_ssub d a b (s : State) : exec (.ssub d a b) s = execSsub d a b s := rfl
@[simp] theorem exec_smul d a b (s : State) : exec (.smul d a b) s = execSmul d a b s := rfl
@[simp] theorem exec_smulh d a b (s : State) : exec (.smulh d a b) s = execSmulh d a b s := rfl
@[simp] theorem exec_smulhu d a b (s : State) : exec (.smulhu d a b) s = execSmulhu d a b s := rfl
@[simp] theorem exec_sand d a b (s : State) : exec (.sand d a b) s = execSand d a b s := rfl
@[simp] theorem exec_sor d a b (s : State) : exec (.sor d a b) s = execSor d a b s := rfl
@[simp] theorem exec_sxor d a b (s : State) : exec (.sxor d a b) s = execSxor d a b s := rfl
@[simp] theorem exec_sshl d a b (s : State) : exec (.sshl d a b) s = execSshl d a b s := rfl
@[simp] theorem exec_sshr d a b (s : State) : exec (.sshr d a b) s = execSshr d a b s := rfl
@[simp] theorem exec_ssra d a b (s : State) : exec (.ssra d a b) s = execSsra d a b s := rfl
@[simp] theorem exec_smin d a b (s : State) : exec (.smin d a b) s = execSmin d a b s := rfl
@[simp] theorem exec_smax d a b (s : State) : exec (.smax d a b) s = execSmax d a b s := rfl
@[simp] theorem exec_sminu d a b (s : State) : exec (.sminu d a b) s = execSminu d a b s := rfl
@[simp] theorem exec_smaxu d a b (s : State) : exec (.smaxu d a b) s = execSmaxu d a b s := rfl
@[simp] theorem exec_smov d a (s : State) : exec (.smov d a) s = execSmov d a s := rfl
@[simp] theorem exec_sclz d a (s : State) : exec (.sclz d a) s = execSclz d a s := rfl
@[simp] theorem exec_sctz d a (s : State) : exec (.sctz d a) s = execSctz d a s := rfl
@[simp] theorem exec_spopc d a (s : State) : exec (.spopc d a) s = execSpopc d a s := rfl
@[simp] theorem exec_saddi d a im (s : State) : exec (.saddi d a im) s = execSaddi d a im s := rfl
@[simp] theorem exec_sandi d a im (s : State) : exec (.sandi d a im) s = execSandi d a im s := rfl
@[simp] theorem exec_sori d a im (s : State) : exec (.sori d a im) s = execSori d a im s := rfl
@[simp] theorem exec_sxori d a im (s : State) : exec (.sxori d a im) s = execSxori d a im s := rfl
@[simp] theorem exec_sshli d a im (s : State) : exec (.sshli d a im) s = execSshli d a im s := rfl
@[simp] theorem exec_sshri d a im (s : State) : exec (.sshri d a im) s = execSshri d a im s := rfl
@[simp] theorem exec_ssrai d a im (s : State) : exec (.ssrai d a im) s = execSsrai d a im s := rfl
@[simp] theorem exec_smovi d im j2 (s : State) : exec (.smovi d im j2) s = execSmovi d im j2 s := rfl
@[simp] theorem exec_scmpEq d a b (s : State) : exec (.scmpEq d a b) s = execScmpEq d a b s := rfl
@[simp] theorem exec_scmpNe d a b (s : State) : exec (.scmpNe d a b) s = execScmpNe d a b s := rfl
@[simp] theorem exec_scmpLt d a b (s : State) : exec (.scmpLt d a b) s = execScmpLt d a b s := rfl
@[simp] theorem exec_scmpLe d a b (s : State) : exec (.scmpLe d a b) s = execScmpLe d a b s := rfl
@[simp] theorem exec_scmpLtu d a b (s : State) : exec (.scmpLtu d a b) s = execScmpLtu d a b s := rfl
@[simp] theorem exec_scmpLeu d a b (s : State) : exec (.scmpLeu d a b) s = execScmpLeu d a b s := rfl
@[simp] theorem exec_ssel d a b (s : State) : exec (.ssel d a b) s = execSsel d a b s := rfl
@[simp] theorem exec_sbfx d a b (s : State) : exec (.sbfx d a b) s = execSbfx d a b s := rfl
@[simp] theorem exec_sbfxu d a b (s : State) : exec (.sbfxu d a b) s = execSbfxu d a b s := rfl
@[simp] theorem exec_sbfi d a b (s : State) : exec (.sbfi d a b) s = execSbfi d a b s := rfl
@[simp] theorem exec_vaddI32 d a b (s : State) : exec (.vaddI32 d a b) s = execVaddI32 d a b s := rfl
@[simp] theorem exec_vaddN32 d a b (s : State) : exec (.vaddN32 d a b) s = execVaddN32 d a b s := rfl
@[simp] theorem exec_vsubI32 d a b (s : State) : exec (.vsubI32 d a b) s = execVsubI32 d a b s := rfl
@[simp] theorem exec_vsubN32 d a b (s : State) : exec (.vsubN32 d a b) s = execVsubN32 d a b s := rfl
@[simp] theorem exec_vmulI32 d a b (s : State) : exec (.vmulI32 d a b) s = execVmulI32 d a b s := rfl
@[simp] theorem exec_vmulhI32 d a b (s : State) : exec (.vmulhI32 d a b) s = execVmulhI32 d a b s := rfl
@[simp] theorem exec_vmulhN32 d a b (s : State) : exec (.vmulhN32 d a b) s = execVmulhN32 d a b s := rfl
@[simp] theorem exec_vmadI32 d a b (s : State) : exec (.vmadI32 d a b) s = execVmadI32 d a b s := rfl
@[simp] theorem exec_vandB32 d a b (s : State) : exec (.vandB32 d a b) s = execVandB32 d a b s := rfl
@[simp] theorem exec_vorB32 d a b (s : State) : exec (.vorB32 d a b) s = execVorB32 d a b s := rfl
@[simp] theorem exec_vxorB32 d a b (s : State) : exec (.vxorB32 d a b) s = execVxorB32 d a b s := rfl
@[simp] theorem exec_vshlB32 d a b (s : State) : exec (.vshlB32 d a b) s = execVshlB32 d a b s := rfl
@[simp] theorem exec_vshrN32 d a b (s : State) : exec (.vshrN32 d a b) s = execVshrN32 d a b s := rfl
@[simp] theorem exec_vshrI32 d a b (s : State) : exec (.vshrI32 d a b) s = execVshrI32 d a b s := rfl
@[simp] theorem exec_vminI32 d a b (s : State) : exec (.vminI32 d a b) s = execVminI32 d a b s := rfl
@[simp] theorem exec_vminN32 d a b (s : State) : exec (.vminN32 d a b) s = execVminN32 d a b s := rfl
@[simp] theorem exec_vmaxI32 d a b (s : State) : exec (.vmaxI32 d a b) s = execVmaxI32 d a b s := rfl
@[simp] theorem exec_vmaxN32 d a b (s : State) : exec (.vmaxN32 d a b) s = execVmaxN32 d a b s := rfl
@[simp] theorem exec_vclzB32 d a (s : State) : exec (.vclzB32 d a) s = execVclzB32 d a s := rfl
@[simp] theorem exec_vpopcB32 d a (s : State) : exec (.vpopcB32 d a) s = execVpopcB32 d a s := rfl
@[simp] theorem exec_vselB32 d a b (s : State) : exec (.vselB32 d a b) s = execVselB32 d a b s := rfl
@[simp] theorem exec_vdot4I32 d a b (s : State) : exec (.vdot4I32 d a b) s = execVdot4I32 d a b s := rfl
@[simp] theorem exec_vdot4N32 d a b (s : State) : exec (.vdot4N32 d a b) s = execVdot4N32 d a b s := rfl
@[simp] theorem exec_vabsI32 d a (s : State) : exec (.vabsI32 d a) s = execVabsI32 d a s := rfl
@[simp] theorem exec_vaddi d a im (s : State) : exec (.vaddi d a im) s = execVaddi d a im s := rfl
@[simp] theorem exec_vandi d a im (s : State) : exec (.vandi d a im) s = execVandi d a im s := rfl
@[simp] theorem exec_vori d a im (s : State) : exec (.vori d a im) s = execVori d a im s := rfl
@[simp] theorem exec_vxori d a im (s : State) : exec (.vxori d a im) s = execVxori d a im s := rfl
@[simp] theorem exec_vshli d a im (s : State) : exec (.vshli d a im) s = execVshli d a im s := rfl
@[simp] theorem exec_vshri d a im (s : State) : exec (.vshri d a im) s = execVshri d a im s := rfl
@[simp] theorem exec_vsrai d a im (s : State) : exec (.vsrai d a im) s = execVsrai d a im s := rfl
@[simp] theorem exec_vmovi d im j2 (s : State) : exec (.vmovi d im j2) s = execVmovi d im j2 s := rfl
@[simp] theorem exec_vaddI64 d a b (s : State) : exec (.vaddI64 d a b) s = execVaddI64 d a b s := rfl
@[simp] theorem exec_vaddN64 d a b (s : State) : exec (.vaddN64 d a b) s = execVaddN64 d a b s := rfl
@[simp] theorem exec_vsubI64 d a b (s : State) : exec (.vsubI64 d a b) s = execVsubI64 d a b s := rfl
@[simp] theorem exec_vsubN64 d a b (s : State) : exec (.vsubN64 d a b) s = execVsubN64 d a b s := rfl
@[simp] theorem exec_vmulI64 d a b (s : State) : exec (.vmulI64 d a b) s = execVmulI64 d a b s := rfl
@[simp] theorem exec_vandN64 d a b (s : State) : exec (.vandN64 d a b) s = execVandN64 d a b s := rfl
@[simp] theorem exec_vorN64 d a b (s : State) : exec (.vorN64 d a b) s = execVorN64 d a b s := rfl
@[simp] theorem exec_vxorN64 d a b (s : State) : exec (.vxorN64 d a b) s = execVxorN64 d a b s := rfl
@[simp] theorem exec_vshlN64 d a b (s : State) : exec (.vshlN64 d a b) s = execVshlN64 d a b s := rfl
@[simp] theorem exec_vshrN64 d a b (s : State) : exec (.vshrN64 d a b) s = execVshrN64 d a b s := rfl
@[simp] theorem exec_vshrI64 d a b (s : State) : exec (.vshrI64 d a b) s = execVshrI64 d a b s := rfl
@[simp] theorem exec_vminI64 d a b (s : State) : exec (.vminI64 d a b) s = execVminI64 d a b s := rfl
@[simp] theorem exec_vminN64 d a b (s : State) : exec (.vminN64 d a b) s = execVminN64 d a b s := rfl
@[simp] theorem exec_vmaxI64 d a b (s : State) : exec (.vmaxI64 d a b) s = execVmaxI64 d a b s := rfl
@[simp] theorem exec_vmaxN64 d a b (s : State) : exec (.vmaxN64 d a b) s = execVmaxN64 d a b s := rfl
@[simp] theorem exec_vmulwI32 d a b (s : State) : exec (.vmulwI32 d a b) s = execVmulwI32 d a b s := rfl
@[simp] theorem exec_vmulwN32 d a b (s : State) : exec (.vmulwN32 d a b) s = execVmulwN32 d a b s := rfl
@[simp] theorem exec_vaddsI32 d a b (s : State) : exec (.vaddsI32 d a b) s = execVaddsI32 d a b s := rfl
@[simp] theorem exec_vsubsI32 d a b (s : State) : exec (.vsubsI32 d a b) s = execVsubsI32 d a b s := rfl
@[simp] theorem exec_vmulsI32 d a b (s : State) : exec (.vmulsI32 d a b) s = execVmulsI32 d a b s := rfl
@[simp] theorem exec_vandsB32 d a b (s : State) : exec (.vandsB32 d a b) s = execVandsB32 d a b s := rfl
@[simp] theorem exec_vorsB32 d a b (s : State) : exec (.vorsB32 d a b) s = execVorsB32 d a b s := rfl
@[simp] theorem exec_vxorsB32 d a b (s : State) : exec (.vxorsB32 d a b) s = execVxorsB32 d a b s := rfl
@[simp] theorem exec_vshlsB32 d a b (s : State) : exec (.vshlsB32 d a b) s = execVshlsB32 d a b s := rfl
@[simp] theorem exec_vshrsN32 d a b (s : State) : exec (.vshrsN32 d a b) s = execVshrsN32 d a b s := rfl
@[simp] theorem exec_vshrsI32 d a b (s : State) : exec (.vshrsI32 d a b) s = execVshrsI32 d a b s := rfl
@[simp] theorem exec_vminsI32 d a b (s : State) : exec (.vminsI32 d a b) s = execVminsI32 d a b s := rfl
@[simp] theorem exec_vmaxsI32 d a b (s : State) : exec (.vmaxsI32 d a b) s = execVmaxsI32 d a b s := rfl
@[simp] theorem exec_vaddsI64 d a b (s : State) : exec (.vaddsI64 d a b) s = execVaddsI64 d a b s := rfl
@[simp] theorem exec_vaddF32 d a b (s : State) : exec (.vaddF32 d a b) s = execVaddF32 d a b s := rfl
@[simp] theorem exec_vsubF32 d a b (s : State) : exec (.vsubF32 d a b) s = execVsubF32 d a b s := rfl
@[simp] theorem exec_vmulF32 d a b (s : State) : exec (.vmulF32 d a b) s = execVmulF32 d a b s := rfl
@[simp] theorem exec_vminF32 d a b (s : State) : exec (.vminF32 d a b) s = execVminF32 d a b s := rfl
@[simp] theorem exec_vmaxF32 d a b (s : State) : exec (.vmaxF32 d a b) s = execVmaxF32 d a b s := rfl
@[simp] theorem exec_vabsF32 d a (s : State) : exec (.vabsF32 d a) s = execVabsF32 d a s := rfl
@[simp] theorem exec_vnegF32 d a (s : State) : exec (.vnegF32 d a) s = execVnegF32 d a s := rfl
@[simp] theorem exec_vcpysF32 d a b (s : State) : exec (.vcpysF32 d a b) s = execVcpysF32 d a b s := rfl
@[simp] theorem exec_vrintF32 d a (s : State) : exec (.vrintF32 d a) s = execVrintF32 d a s := rfl
@[simp] theorem exec_vclassF32 d a (s : State) : exec (.vclassF32 d a) s = execVclassF32 d a s := rfl
@[simp] theorem exec_vaddF16Bf16 d a b f (s : State) : exec (.vaddF16Bf16 d a b f) s = execVaddF16Bf16 d a b f s := rfl
@[simp] theorem exec_vsubF16Bf16 d a b f (s : State) : exec (.vsubF16Bf16 d a b f) s = execVsubF16Bf16 d a b f s := rfl
@[simp] theorem exec_vmulF16Bf16 d a b f (s : State) : exec (.vmulF16Bf16 d a b f) s = execVmulF16Bf16 d a b f s := rfl
@[simp] theorem exec_vminF16Bf16 d a b f (s : State) : exec (.vminF16Bf16 d a b f) s = execVminF16Bf16 d a b f s := rfl
@[simp] theorem exec_vmaxF16Bf16 d a b f (s : State) : exec (.vmaxF16Bf16 d a b f) s = execVmaxF16Bf16 d a b f s := rfl
@[simp] theorem exec_vabsF16Bf16 d a f (s : State) : exec (.vabsF16Bf16 d a f) s = execVabsF16Bf16 d a f s := rfl
@[simp] theorem exec_vnegF16Bf16 d a f (s : State) : exec (.vnegF16Bf16 d a f) s = execVnegF16Bf16 d a f s := rfl
@[simp] theorem exec_vfmaF32 d a b (s : State) : exec (.vfmaF32 d a b) s = execVfmaF32 d a b s := rfl
@[simp] theorem exec_vfmsF32 d a b (s : State) : exec (.vfmsF32 d a b) s = execVfmsF32 d a b s := rfl
@[simp] theorem exec_vfnmaF32 d a b (s : State) : exec (.vfnmaF32 d a b) s = execVfnmaF32 d a b s := rfl
@[simp] theorem exec_vfnmsF32 d a b (s : State) : exec (.vfnmsF32 d a b) s = execVfnmsF32 d a b s := rfl
@[simp] theorem exec_vfmaF16Bf16 d a b f (s : State) : exec (.vfmaF16Bf16 d a b f) s = execVfmaF16Bf16 d a b f s := rfl
@[simp] theorem exec_vfmsF16Bf16 d a b f (s : State) : exec (.vfmsF16Bf16 d a b f) s = execVfmsF16Bf16 d a b f s := rfl
@[simp] theorem exec_vfnmaF16Bf16 d a b f (s : State) : exec (.vfnmaF16Bf16 d a b f) s = execVfnmaF16Bf16 d a b f s := rfl
@[simp] theorem exec_vfnmsF16Bf16 d a b f (s : State) : exec (.vfnmsF16Bf16 d a b f) s = execVfnmsF16Bf16 d a b f s := rfl
@[simp] theorem exec_vdot2 d a b f (s : State) : exec (.vdot2 d a b f) s = execVdot2 d a b f s := rfl
@[simp] theorem exec_vrcpF32 d a (s : State) : exec (.vrcpF32 d a) s = execVrcpF32 d a s := rfl
@[simp] theorem exec_vrsqrtF32 d a (s : State) : exec (.vrsqrtF32 d a) s = execVrsqrtF32 d a s := rfl
@[simp] theorem exec_vsqrtF32 d a (s : State) : exec (.vsqrtF32 d a) s = execVsqrtF32 d a s := rfl
@[simp] theorem exec_vexp2F32 d a (s : State) : exec (.vexp2F32 d a) s = execVexp2F32 d a s := rfl
@[simp] theorem exec_vlog2F32 d a (s : State) : exec (.vlog2F32 d a) s = execVlog2F32 d a s := rfl
@[simp] theorem exec_vsinF32 d a (s : State) : exec (.vsinF32 d a) s = execVsinF32 d a s := rfl
@[simp] theorem exec_vcosF32 d a (s : State) : exec (.vcosF32 d a) s = execVcosF32 d a s := rfl
@[simp] theorem exec_vtanhF32 d a (s : State) : exec (.vtanhF32 d a) s = execVtanhF32 d a s := rfl
@[simp] theorem exec_vdivF32 d a b (s : State) : exec (.vdivF32 d a b) s = execVdivF32 d a b s := rfl
@[simp] theorem exec_vaddsF32 d a b (s : State) : exec (.vaddsF32 d a b) s = execVaddsF32 d a b s := rfl
@[simp] theorem exec_vsubsF32 d a b (s : State) : exec (.vsubsF32 d a b) s = execVsubsF32 d a b s := rfl
@[simp] theorem exec_vmulsF32 d a b (s : State) : exec (.vmulsF32 d a b) s = execVmulsF32 d a b s := rfl
@[simp] theorem exec_vfmasF32 d a b (s : State) : exec (.vfmasF32 d a b) s = execVfmasF32 d a b s := rfl
@[simp] theorem exec_vminsF32 d a b (s : State) : exec (.vminsF32 d a b) s = execVminsF32 d a b s := rfl
@[simp] theorem exec_vmaxsF32 d a b (s : State) : exec (.vmaxsF32 d a b) s = execVmaxsF32 d a b s := rfl
@[simp] theorem exec_vcvtWide d a t h g sr (s : State) : exec (.vcvtWide d a t h g sr) s = execVcvtWide d a t h g sr s := rfl
@[simp] theorem exec_vcvtNarrowToF32 d a f im (s : State) : exec (.vcvtNarrowToF32 d a f im) s = execVcvtNarrowToF32 d a f im s := rfl
@[simp] theorem exec_vcvtF32ToNarrow d a f im (s : State) : exec (.vcvtF32ToNarrow d a f im) s = execVcvtF32ToNarrow d a f im s := rfl
@[simp] theorem exec_vcmpEqI32 d a b (s : State) : exec (.vcmpEqI32 d a b) s = execVcmpEqI32 d a b s := rfl
@[simp] theorem exec_vcmpNeI32 d a b (s : State) : exec (.vcmpNeI32 d a b) s = execVcmpNeI32 d a b s := rfl
@[simp] theorem exec_vcmpLtI32 d a b (s : State) : exec (.vcmpLtI32 d a b) s = execVcmpLtI32 d a b s := rfl
@[simp] theorem exec_vcmpLeI32 d a b (s : State) : exec (.vcmpLeI32 d a b) s = execVcmpLeI32 d a b s := rfl
@[simp] theorem exec_vcmpLtN32 d a b (s : State) : exec (.vcmpLtN32 d a b) s = execVcmpLtN32 d a b s := rfl
@[simp] theorem exec_vcmpLeN32 d a b (s : State) : exec (.vcmpLeN32 d a b) s = execVcmpLeN32 d a b s := rfl
@[simp] theorem exec_vcmpEqF32 d a b (s : State) : exec (.vcmpEqF32 d a b) s = execVcmpEqF32 d a b s := rfl
@[simp] theorem exec_vcmpNeF32 d a b (s : State) : exec (.vcmpNeF32 d a b) s = execVcmpNeF32 d a b s := rfl
@[simp] theorem exec_vcmpLtF32 d a b (s : State) : exec (.vcmpLtF32 d a b) s = execVcmpLtF32 d a b s := rfl
@[simp] theorem exec_vcmpLeF32 d a b (s : State) : exec (.vcmpLeF32 d a b) s = execVcmpLeF32 d a b s := rfl
@[simp] theorem exec_vcmpUnF32 d a b (s : State) : exec (.vcmpUnF32 d a b) s = execVcmpUnF32 d a b s := rfl
@[simp] theorem exec_pand d a b (s : State) : exec (.pand d a b) s = execPand d a b s := rfl
@[simp] theorem exec_por d a b (s : State) : exec (.por d a b) s = execPor d a b s := rfl
@[simp] theorem exec_pxor d a b (s : State) : exec (.pxor d a b) s = execPxor d a b s := rfl
@[simp] theorem exec_pandn d a b (s : State) : exec (.pandn d a b) s = execPandn d a b s := rfl
@[simp] theorem exec_pnot d a (s : State) : exec (.pnot d a) s = execPnot d a s := rfl
@[simp] theorem exec_vshfl d a b (s : State) : exec (.vshfl d a b) s = execVshfl d a b s := rfl
@[simp] theorem exec_vprmXor d a b (s : State) : exec (.vprmXor d a b) s = execVprmXor d a b s := rfl
@[simp] theorem exec_vprmRot d a b (s : State) : exec (.vprmRot d a b) s = execVprmRot d a b s := rfl
@[simp] theorem exec_vbcst d a b (s : State) : exec (.vbcst d a b) s = execVbcst d a b s := rfl
@[simp] theorem exec_vredF32 d a (s : State) : exec (.vredF32 d a) s = execVredF32 d a s := rfl
@[simp] theorem exec_vredI32 d a (s : State) : exec (.vredI32 d a) s = execVredI32 d a s := rfl
@[simp] theorem exec_vredminF32 d a (s : State) : exec (.vredminF32 d a) s = execVredminF32 d a s := rfl
@[simp] theorem exec_vredmaxF32 d a (s : State) : exec (.vredmaxF32 d a) s = execVredmaxF32 d a s := rfl
@[simp] theorem exec_vredminI32 d a (s : State) : exec (.vredminI32 d a) s = execVredminI32 d a s := rfl
@[simp] theorem exec_vredmaxI32 d a (s : State) : exec (.vredmaxI32 d a) s = execVredmaxI32 d a s := rfl
@[simp] theorem exec_vredandB32 d a (s : State) : exec (.vredandB32 d a) s = execVredandB32 d a s := rfl
@[simp] theorem exec_vredorB32 d a (s : State) : exec (.vredorB32 d a) s = execVredorB32 d a s := rfl
@[simp] theorem exec_vscanF32 d a (s : State) : exec (.vscanF32 d a) s = execVscanF32 d a s := rfl
@[simp] theorem exec_vscanI32 d a (s : State) : exec (.vscanI32 d a) s = execVscanI32 d a s := rfl
@[simp] theorem exec_vscanxF32 d a (s : State) : exec (.vscanxF32 d a) s = execVscanxF32 d a s := rfl
@[simp] theorem exec_vscanxI32 d a (s : State) : exec (.vscanxI32 d a) s = execVscanxI32 d a s := rfl
@[simp] theorem exec_vmatch d a (s : State) : exec (.vmatch d a) s = execVmatch d a s := rfl
@[simp] theorem exec_srd d sr (s : State) : exec (.srd d sr) s = execSrd d sr s := rfl
@[simp] theorem exec_fpcrd d (s : State) : exec (.fpcrd d) s = execFpcrd d s := rfl
@[simp] theorem exec_fpcwr a (s : State) : exec (.fpcwr a) s = execFpcwr a s := rfl
@[simp] theorem exec_vmov d a (s : State) : exec (.vmov d a) s = execVmov d a s := rfl
@[simp] theorem exec_vmovs d a (s : State) : exec (.vmovs d a) s = execVmovs d a s := rfl
@[simp] theorem exec_smovv d a b (s : State) : exec (.smovv d a b) s = execSmovv d a b s := rfl
@[simp] theorem exec_vins d a b (s : State) : exec (.vins d a b) s = execVins d a b s := rfl
@[simp] theorem exec_p2s d a (s : State) : exec (.p2s d a) s = execP2s d a s := rfl
@[simp] theorem exec_s2p d a (s : State) : exec (.s2p d a) s = execS2p d a s := rfl
@[simp] theorem exec_vld d a b z p (s : State) : exec (.vld d a b z p) s = execVld d a b z p s := rfl
@[simp] theorem exec_vst d a b z p (s : State) : exec (.vst d a b z p) s = execVst d a b z p s := rfl
@[simp] theorem exec_vldc d a z im (s : State) : exec (.vldc d a z im) s = execVldc d a z im s := rfl
@[simp] theorem exec_vstc d a z im (s : State) : exec (.vstc d a z im) s = execVstc d a z im s := rfl
@[simp] theorem exec_sld d a z im (s : State) : exec (.sld d a z im) s = execSld d a z im s := rfl
@[simp] theorem exec_sst d a z im (s : State) : exec (.sst d a z im) s = execSst d a z im s := rfl
@[simp] theorem exec_lld d a b z (s : State) : exec (.lld d a b z) s = execLld d a b z s := rfl
@[simp] theorem exec_lst d a b z (s : State) : exec (.lst d a b z) s = execLst d a b z s := rfl
@[simp] theorem exec_slda d a o z p (s : State) : exec (.slda d a o z p) s = execSlda d a o z p s := rfl
@[simp] theorem exec_sstr d a o z p (s : State) : exec (.sstr d a o z p) s = execSstr d a o z p s := rfl
@[simp] theorem exec_vlda d a o z p (s : State) : exec (.vlda d a o z p) s = execVlda d a o z p s := rfl
@[simp] theorem exec_vstr d a o z p (s : State) : exec (.vstr d a o z p) s = execVstr d a o z p s := rfl
@[simp] theorem exec_vatom d a b w c (s : State) : exec (.vatom d a b w c) s = execVatom d a b w c s := rfl
@[simp] theorem exec_satom d a b w c (s : State) : exec (.satom d a b w c) s = execSatom d a b w c s := rfl
@[simp] theorem exec_xcopy d a b (s : State) : exec (.xcopy d a b) s = execXcopy d a b s := rfl
@[simp] theorem exec_xcopyt d a b (s : State) : exec (.xcopyt d a b) s = execXcopyt d a b s := rfl
@[simp] theorem exec_xgath d a b (s : State) : exec (.xgath d a b) s = execXgath d a b s := rfl
@[simp] theorem exec_pft a b (s : State) : exec (.pft a b) s = execPft a b s := rfl
@[simp] theorem exec_look a b (s : State) : exec (.look a b) s = execLook a b s := rfl
@[simp] theorem exec_waitc c n (s : State) : exec (.waitc c n) s = execWaitc c n s := rfl
@[simp] theorem exec_tagwany a (s : State) : exec (.tagwany a) s = execTagwany a s := rfl
@[simp] theorem exec_tagwall a (s : State) : exec (.tagwall a) s = execTagwall a s := rfl
@[simp] theorem exec_tagffr d a (s : State) : exec (.tagffr d a) s = execTagffr d a s := rfl
@[simp] theorem exec_tagclr a (s : State) : exec (.tagclr a) s = execTagclr a s := rfl
@[simp] theorem exec_tagrd d (s : State) : exec (.tagrd d) s = execTagrd d s := rfl
@[simp] theorem exec_fence m (s : State) : exec (.fence m) s = execFence m s := rfl
@[simp] theorem exec_fenceTc (s : State) : exec .fenceTc s = execFenceTc s := rfl
@[simp] theorem exec_bar b (s : State) : exec (.bar b) s = execBar b s := rfl
@[simp] theorem exec_rbar b (s : State) : exec (.rbar b) s = execRbar b s := rfl
@[simp] theorem exec_mclose (s : State) : exec .mclose s = execMclose s := rfl
@[simp] theorem exec_send a n c (s : State) : exec (.send a n c) s = execSend a n c s := rfl
@[simp] theorem exec_recv d n c (s : State) : exec (.recv d n c) s = execRecv d n c s := rfl
@[simp] theorem exec_chpoll d c (s : State) : exec (.chpoll d c) s = execChpoll d c s := rfl
@[simp] theorem exec_amsg d a h (s : State) : exec (.amsg d a h) s = execAmsg d a h s := rfl
@[simp] theorem exec_launch d a b (s : State) : exec (.launch d a b) s = execLaunch d a b s := rfl
@[simp] theorem exec_lwait d a (s : State) : exec (.lwait d a) s = execLwait d a s := rfl
@[simp] theorem exec_spawn d a b (s : State) : exec (.spawn d a b) s = execSpawn d a b s := rfl
@[simp] theorem exec_tdef d a b (s : State) : exec (.tdef d a b) s = execTdef d a b s := rfl
@[simp] theorem exec_mma a b sr z t (s : State) : exec (.mma a b sr z t) s = execMma a b sr z t s := rfl
@[simp] theorem exec_mmas a b sr z t (s : State) : exec (.mmas a b sr z t) s = execMmas a b sr z t s := rfl
@[simp] theorem exec_mmax a b sr z t m (s : State) : exec (.mmax a b sr z t m) s = execMmax a b sr z t m s := rfl
@[simp] theorem exec_tcfg a sr (s : State) : exec (.tcfg a sr) s = execTcfg a sr s := rfl
@[simp] theorem exec_tld a sr (s : State) : exec (.tld a sr) s = execTld a sr s := rfl
@[simp] theorem exec_tst a sr (s : State) : exec (.tst a sr) s = execTst a sr s := rfl
@[simp] theorem exec_tzero a (s : State) : exec (.tzero a) s = execTzero a s := rfl
@[simp] theorem exec_txfer a p (s : State) : exec (.txfer a p) s = execTxfer a p s := rfl
@[simp] theorem exec_trecv a p (s : State) : exec (.trecv a p) s = execTrecv a p s := rfl
@[simp] theorem exec_amcpOut sr (s : State) : exec (.amcpOut sr) s = execAmcpOut sr s := rfl
@[simp] theorem exec_amcpIn sr (s : State) : exec (.amcpIn sr) s = execAmcpIn sr s := rfl
@[simp] theorem exec_amzero sr (s : State) : exec (.amzero sr) s = execAmzero sr s := rfl
@[simp] theorem exec_xratom d a b (s : State) : exec (.xratom d a b) s = execXratom d a b s := rfl
@[simp] theorem exec_xcoll a b (s : State) : exec (.xcoll a b) s = execXcoll a b s := rfl
@[simp] theorem exec_segq d a (s : State) : exec (.segq d a) s = execSegq d a s := rfl
@[simp] theorem exec_ferry a (s : State) : exec (.ferry a) s = execFerry a s := rfl
@[simp] theorem exec_ksel b a d (s : State) : exec (.ksel b a d) s = execKsel b a d s := rfl
@[simp] theorem exec_klw b a d (s : State) : exec (.klw b a d) s = execKlw b a d s := rfl
@[simp] theorem exec_ksw b a d (s : State) : exec (.ksw b a d) s = execKsw b a d s := rfl
@[simp] theorem exec_kfadd b a d (s : State) : exec (.kfadd b a d) s = execKfadd b a d s := rfl
@[simp] theorem exec_kend b a d (s : State) : exec (.kend b a d) s = execKend b a d s := rfl
@[simp] theorem exec_illegalInstruction w (s : State) : exec (.illegalInstruction w) s = execIllegalInstruction w s := rfl
@[simp] theorem exec_keeperBaseInstruction w (s : State) : exec (.keeperBaseInstruction w) s = execKeeperBaseInstruction w s := rfl
@[simp] theorem exec_prefetchComplete core n (s : State) : exec (.prefetchComplete core n) s = execPrefetchComplete core n s := rfl
@[simp] theorem exec_landingOccupancySample core (s : State) : exec (.landingOccupancySample core) s = execLandingOccupancySample core s := rfl
@[simp] theorem exec_lossOfTraining port (s : State) : exec (.lossOfTraining port) s = execLossOfTraining port s := rfl
@[simp] theorem exec_upstreamLinkUp (s : State) : exec .upstreamLinkUp s = execUpstreamLinkUp s := rfl
@[simp] theorem exec_stoppedWaveRestart w r (s : State) : exec (.stoppedWaveRestart w r) s = execStoppedWaveRestart w r s := rfl

end Sys2Proof.Machine
end

