-- ==== Sys2Proof/Laws/State.lean ====
section
/-!
SUPPORT. What each update of a wave or of the state leaves of every other field, each by `rfl`.
-/
namespace Sys2Proof.Machine

@[simp] theorem Wave.setS_core (w : Wave) (r : Nat) (x : DWord) : (w.setS r x).core = w.core := rfl
@[simp] theorem Wave.setS_slot (w : Wave) (r : Nat) (x : DWord) : (w.setS r x).slot = w.slot := rfl
@[simp] theorem Wave.setS_env (w : Wave) (r : Nat) (x : DWord) : (w.setS r x).env = w.env := rfl
@[simp] theorem Wave.setS_status (w : Wave) (r : Nat) (x : DWord) : (w.setS r x).status = w.status := rfl
@[simp] theorem Wave.setS_pos (w : Wave) (r : Nat) (x : DWord) : (w.setS r x).pos = w.pos := rfl
@[simp] theorem Wave.setS_hints (w : Wave) (r : Nat) (x : DWord) : (w.setS r x).hints = w.hints := rfl
@[simp] theorem Wave.setS_replay (w : Wave) (r : Nat) (x : DWord) : (w.setS r x).replay = w.replay := rfl
@[simp] theorem Wave.setS_badResume (w : Wave) (r : Nat) (x : DWord) : (w.setS r x).badResume = w.badResume := rfl
@[simp] theorem Wave.setS_fellX (w : Wave) (r : Nat) (x : DWord) : (w.setS r x).fellX = w.fellX := rfl
@[simp] theorem Wave.setS_ll (w : Wave) (r : Nat) (x : DWord) : (w.setS r x).ll = w.ll := rfl
@[simp] theorem Wave.setS_ocx (w : Wave) (r : Nat) (x : DWord) : (w.setS r x).ocx = w.ocx := rfl
@[simp] theorem Wave.setS_ocm (w : Wave) (r : Nat) (x : DWord) : (w.setS r x).ocm = w.ocm := rfl
@[simp] theorem Wave.setS_ocg (w : Wave) (r : Nat) (x : DWord) : (w.setS r x).ocg = w.ocg := rfl
@[simp] theorem Wave.setS_ock (w : Wave) (r : Nat) (x : DWord) : (w.setS r x).ock = w.ock := rfl
@[simp] theorem Wave.setS_openBatch (w : Wave) (r : Nat) (x : DWord) : (w.setS r x).openBatch = w.openBatch := rfl
@[simp] theorem Wave.setS_batches (w : Wave) (r : Nat) (x : DWord) : (w.setS r x).batches = w.batches := rfl
@[simp] theorem Wave.setS_pending (w : Wave) (r : Nat) (x : DWord) : (w.setS r x).pending = w.pending := rfl
@[simp] theorem Wave.setS_stepDue (w : Wave) (r : Nat) (x : DWord) : (w.setS r x).stepDue = w.stepDue := rfl
@[simp] theorem Wave.setS_expiryDue (w : Wave) (r : Nat) (x : DWord) : (w.setS r x).expiryDue = w.expiryDue := rfl
@[simp] theorem Wave.setS_failures (w : Wave) (r : Nat) (x : DWord) : (w.setS r x).failures = w.failures := rfl
@[simp] theorem Wave.setS_arrival (w : Wave) (r : Nat) (x : DWord) : (w.setS r x).arrival = w.arrival := rfl
@[simp] theorem Wave.setS_stop (w : Wave) (r : Nat) (x : DWord) : (w.setS r x).stop = w.stop := rfl
@[simp] theorem Wave.setS_svStart (w : Wave) (r : Nat) (x : DWord) : (w.setS r x).svStart = w.svStart := rfl
@[simp] theorem Wave.setS_svDepth (w : Wave) (r : Nat) (x : DWord) : (w.setS r x).svDepth = w.svDepth := rfl
@[simp] theorem Wave.setS_prio (w : Wave) (r : Nat) (x : DWord) : (w.setS r x).prio = w.prio := rfl
@[simp] theorem Wave.setS_noShare (w : Wave) (r : Nat) (x : DWord) : (w.setS r x).noShare = w.noShare := rfl
@[simp] theorem Wave.setS_yieldDue (w : Wave) (r : Nat) (x : DWord) : (w.setS r x).yieldDue = w.yieldDue := rfl
@[simp] theorem Wave.setS_yielded (w : Wave) (r : Nat) (x : DWord) : (w.setS r x).yielded = w.yielded := rfl
@[simp] theorem Wave.setS_age (w : Wave) (r : Nat) (x : DWord) : (w.setS r x).age = w.age := rfl
@[simp] theorem Wave.setS_readySince (w : Wave) (r : Nat) (x : DWord) : (w.setS r x).readySince = w.readySince := rfl
@[simp] theorem Wave.setS_unserved (w : Wave) (r : Nat) (x : DWord) : (w.setS r x).unserved = w.unserved := rfl
@[simp] theorem Wave.setS_issueSlot (w : Wave) (r : Nat) (x : DWord) : (w.setS r x).issueSlot = w.issueSlot := rfl
@[simp] theorem Wave.setS_boostedAt (w : Wave) (r : Nat) (x : DWord) : (w.setS r x).boostedAt = w.boostedAt := rfl
@[simp] theorem Wave.setS_entries (w : Wave) (r : Nat) (x : DWord) : (w.setS r x).entries = w.entries := rfl
@[simp] theorem Wave.setS_entryDue (w : Wave) (r : Nat) (x : DWord) : (w.setS r x).entryDue = w.entryDue := rfl
@[simp] theorem Wave.setS_issued (w : Wave) (r : Nat) (x : DWord) : (w.setS r x).issued = w.issued := rfl
@[simp] theorem Wave.setS_waitInv (w : Wave) (r : Nat) (x : DWord) : (w.setS r x).waitInv = w.waitInv := rfl
@[simp] theorem Wave.setS_fenceAt (w : Wave) (r : Nat) (x : DWord) : (w.setS r x).fenceAt = w.fenceAt := rfl
@[simp] theorem Wave.setS_lookoutOf (w : Wave) (r : Nat) (x : DWord) : (w.setS r x).lookoutOf = w.lookoutOf := rfl
@[simp] theorem Wave.setS_lookoutStart (w : Wave) (r : Nat) (x : DWord) : (w.setS r x).lookoutStart = w.lookoutStart := rfl
@[simp] theorem Wave.setS_lookoutRange (w : Wave) (r : Nat) (x : DWord) : (w.setS r x).lookoutRange = w.lookoutRange := rfl
@[simp] theorem Wave.setS_lookoutOver (w : Wave) (r : Nat) (x : DWord) : (w.setS r x).lookoutOver = w.lookoutOver := rfl
@[simp] theorem Wave.setS_arch_exm (w : Wave) (r : Nat) (x : DWord) : (w.setS r x).arch.exm = w.arch.exm := rfl
@[simp] theorem Wave.setS_arch_vregs (w : Wave) (r : Nat) (x : DWord) : (w.setS r x).arch.vregs = w.arch.vregs := rfl
@[simp] theorem Wave.setS_arch_preds (w : Wave) (r : Nat) (x : DWord) : (w.setS r x).arch.preds = w.arch.preds := rfl
@[simp] theorem Wave.setS_arch_fpc (w : Wave) (r : Nat) (x : DWord) : (w.setS r x).arch.fpc = w.arch.fpc := rfl
@[simp] theorem Wave.setS_arch_rvsp (w : Wave) (r : Nat) (x : DWord) : (w.setS r x).arch.rvsp = w.arch.rvsp := rfl
@[simp] theorem Wave.setS_arch_mode (w : Wave) (r : Nat) (x : DWord) : (w.setS r x).arch.mode = w.arch.mode := rfl
@[simp] theorem Wave.setS_arch_sdepth (w : Wave) (r : Nat) (x : DWord) : (w.setS r x).arch.sdepth = w.arch.sdepth := rfl
@[simp] theorem Wave.setS_arch_ddepth (w : Wave) (r : Nat) (x : DWord) : (w.setS r x).arch.ddepth = w.arch.ddepth := rfl
@[simp] theorem Wave.setS_arch_sstep (w : Wave) (r : Nat) (x : DWord) : (w.setS r x).arch.sstep = w.arch.sstep := rfl
@[simp] theorem Wave.setS_arch_estat (w : Wave) (r : Nat) (x : DWord) : (w.setS r x).arch.estat = w.arch.estat := rfl
@[simp] theorem Wave.setS_arch_epc (w : Wave) (r : Nat) (x : DWord) : (w.setS r x).arch.epc = w.arch.epc := rfl
@[simp] theorem Wave.setS_arch_ecause (w : Wave) (r : Nat) (x : DWord) : (w.setS r x).arch.ecause = w.arch.ecause := rfl
@[simp] theorem Wave.setS_arch_emask (w : Wave) (r : Nat) (x : DWord) : (w.setS r x).arch.emask = w.arch.emask := rfl
@[simp] theorem Wave.setS_arch_eaddr (w : Wave) (r : Nat) (x : DWord) : (w.setS r x).arch.eaddr = w.arch.eaddr := rfl
@[simp] theorem Wave.setS_arch_evec (w : Wave) (r : Nat) (x : DWord) : (w.setS r x).arch.evec = w.arch.evec := rfl
@[simp] theorem Wave.setS_arch_uhtv (w : Wave) (r : Nat) (x : DWord) : (w.setS r x).arch.uhtv = w.arch.uhtv := rfl
@[simp] theorem Wave.setS_arch_wdog (w : Wave) (r : Nat) (x : DWord) : (w.setS r x).arch.wdog = w.arch.wdog := rfl
@[simp] theorem Wave.setS_arch_hstat (w : Wave) (r : Nat) (x : DWord) : (w.setS r x).arch.hstat = w.arch.hstat := rfl
@[simp] theorem Wave.setS_arch_hepc (w : Wave) (r : Nat) (x : DWord) : (w.setS r x).arch.hepc = w.arch.hepc := rfl

@[simp] theorem Wave.setV_core (w : Wave) (r l : Nat) (x : Word) : (w.setV r l x).core = w.core := rfl
@[simp] theorem Wave.setV_slot (w : Wave) (r l : Nat) (x : Word) : (w.setV r l x).slot = w.slot := rfl
@[simp] theorem Wave.setV_env (w : Wave) (r l : Nat) (x : Word) : (w.setV r l x).env = w.env := rfl
@[simp] theorem Wave.setV_status (w : Wave) (r l : Nat) (x : Word) : (w.setV r l x).status = w.status := rfl
@[simp] theorem Wave.setV_pos (w : Wave) (r l : Nat) (x : Word) : (w.setV r l x).pos = w.pos := rfl
@[simp] theorem Wave.setV_hints (w : Wave) (r l : Nat) (x : Word) : (w.setV r l x).hints = w.hints := rfl
@[simp] theorem Wave.setV_replay (w : Wave) (r l : Nat) (x : Word) : (w.setV r l x).replay = w.replay := rfl
@[simp] theorem Wave.setV_badResume (w : Wave) (r l : Nat) (x : Word) : (w.setV r l x).badResume = w.badResume := rfl
@[simp] theorem Wave.setV_fellX (w : Wave) (r l : Nat) (x : Word) : (w.setV r l x).fellX = w.fellX := rfl
@[simp] theorem Wave.setV_ll (w : Wave) (r l : Nat) (x : Word) : (w.setV r l x).ll = w.ll := rfl
@[simp] theorem Wave.setV_ocx (w : Wave) (r l : Nat) (x : Word) : (w.setV r l x).ocx = w.ocx := rfl
@[simp] theorem Wave.setV_ocm (w : Wave) (r l : Nat) (x : Word) : (w.setV r l x).ocm = w.ocm := rfl
@[simp] theorem Wave.setV_ocg (w : Wave) (r l : Nat) (x : Word) : (w.setV r l x).ocg = w.ocg := rfl
@[simp] theorem Wave.setV_ock (w : Wave) (r l : Nat) (x : Word) : (w.setV r l x).ock = w.ock := rfl
@[simp] theorem Wave.setV_openBatch (w : Wave) (r l : Nat) (x : Word) : (w.setV r l x).openBatch = w.openBatch := rfl
@[simp] theorem Wave.setV_batches (w : Wave) (r l : Nat) (x : Word) : (w.setV r l x).batches = w.batches := rfl
@[simp] theorem Wave.setV_pending (w : Wave) (r l : Nat) (x : Word) : (w.setV r l x).pending = w.pending := rfl
@[simp] theorem Wave.setV_stepDue (w : Wave) (r l : Nat) (x : Word) : (w.setV r l x).stepDue = w.stepDue := rfl
@[simp] theorem Wave.setV_expiryDue (w : Wave) (r l : Nat) (x : Word) : (w.setV r l x).expiryDue = w.expiryDue := rfl
@[simp] theorem Wave.setV_failures (w : Wave) (r l : Nat) (x : Word) : (w.setV r l x).failures = w.failures := rfl
@[simp] theorem Wave.setV_arrival (w : Wave) (r l : Nat) (x : Word) : (w.setV r l x).arrival = w.arrival := rfl
@[simp] theorem Wave.setV_stop (w : Wave) (r l : Nat) (x : Word) : (w.setV r l x).stop = w.stop := rfl
@[simp] theorem Wave.setV_svStart (w : Wave) (r l : Nat) (x : Word) : (w.setV r l x).svStart = w.svStart := rfl
@[simp] theorem Wave.setV_svDepth (w : Wave) (r l : Nat) (x : Word) : (w.setV r l x).svDepth = w.svDepth := rfl
@[simp] theorem Wave.setV_prio (w : Wave) (r l : Nat) (x : Word) : (w.setV r l x).prio = w.prio := rfl
@[simp] theorem Wave.setV_noShare (w : Wave) (r l : Nat) (x : Word) : (w.setV r l x).noShare = w.noShare := rfl
@[simp] theorem Wave.setV_yieldDue (w : Wave) (r l : Nat) (x : Word) : (w.setV r l x).yieldDue = w.yieldDue := rfl
@[simp] theorem Wave.setV_yielded (w : Wave) (r l : Nat) (x : Word) : (w.setV r l x).yielded = w.yielded := rfl
@[simp] theorem Wave.setV_age (w : Wave) (r l : Nat) (x : Word) : (w.setV r l x).age = w.age := rfl
@[simp] theorem Wave.setV_readySince (w : Wave) (r l : Nat) (x : Word) : (w.setV r l x).readySince = w.readySince := rfl
@[simp] theorem Wave.setV_unserved (w : Wave) (r l : Nat) (x : Word) : (w.setV r l x).unserved = w.unserved := rfl
@[simp] theorem Wave.setV_issueSlot (w : Wave) (r l : Nat) (x : Word) : (w.setV r l x).issueSlot = w.issueSlot := rfl
@[simp] theorem Wave.setV_boostedAt (w : Wave) (r l : Nat) (x : Word) : (w.setV r l x).boostedAt = w.boostedAt := rfl
@[simp] theorem Wave.setV_entries (w : Wave) (r l : Nat) (x : Word) : (w.setV r l x).entries = w.entries := rfl
@[simp] theorem Wave.setV_entryDue (w : Wave) (r l : Nat) (x : Word) : (w.setV r l x).entryDue = w.entryDue := rfl
@[simp] theorem Wave.setV_issued (w : Wave) (r l : Nat) (x : Word) : (w.setV r l x).issued = w.issued := rfl
@[simp] theorem Wave.setV_waitInv (w : Wave) (r l : Nat) (x : Word) : (w.setV r l x).waitInv = w.waitInv := rfl
@[simp] theorem Wave.setV_fenceAt (w : Wave) (r l : Nat) (x : Word) : (w.setV r l x).fenceAt = w.fenceAt := rfl
@[simp] theorem Wave.setV_lookoutOf (w : Wave) (r l : Nat) (x : Word) : (w.setV r l x).lookoutOf = w.lookoutOf := rfl
@[simp] theorem Wave.setV_lookoutStart (w : Wave) (r l : Nat) (x : Word) : (w.setV r l x).lookoutStart = w.lookoutStart := rfl
@[simp] theorem Wave.setV_lookoutRange (w : Wave) (r l : Nat) (x : Word) : (w.setV r l x).lookoutRange = w.lookoutRange := rfl
@[simp] theorem Wave.setV_lookoutOver (w : Wave) (r l : Nat) (x : Word) : (w.setV r l x).lookoutOver = w.lookoutOver := rfl
@[simp] theorem Wave.setV_arch_exm (w : Wave) (r l : Nat) (x : Word) : (w.setV r l x).arch.exm = w.arch.exm := rfl
@[simp] theorem Wave.setV_arch_sregs (w : Wave) (r l : Nat) (x : Word) : (w.setV r l x).arch.sregs = w.arch.sregs := rfl
@[simp] theorem Wave.setV_arch_preds (w : Wave) (r l : Nat) (x : Word) : (w.setV r l x).arch.preds = w.arch.preds := rfl
@[simp] theorem Wave.setV_arch_fpc (w : Wave) (r l : Nat) (x : Word) : (w.setV r l x).arch.fpc = w.arch.fpc := rfl
@[simp] theorem Wave.setV_arch_rvsp (w : Wave) (r l : Nat) (x : Word) : (w.setV r l x).arch.rvsp = w.arch.rvsp := rfl
@[simp] theorem Wave.setV_arch_mode (w : Wave) (r l : Nat) (x : Word) : (w.setV r l x).arch.mode = w.arch.mode := rfl
@[simp] theorem Wave.setV_arch_sdepth (w : Wave) (r l : Nat) (x : Word) : (w.setV r l x).arch.sdepth = w.arch.sdepth := rfl
@[simp] theorem Wave.setV_arch_ddepth (w : Wave) (r l : Nat) (x : Word) : (w.setV r l x).arch.ddepth = w.arch.ddepth := rfl
@[simp] theorem Wave.setV_arch_sstep (w : Wave) (r l : Nat) (x : Word) : (w.setV r l x).arch.sstep = w.arch.sstep := rfl
@[simp] theorem Wave.setV_arch_estat (w : Wave) (r l : Nat) (x : Word) : (w.setV r l x).arch.estat = w.arch.estat := rfl
@[simp] theorem Wave.setV_arch_epc (w : Wave) (r l : Nat) (x : Word) : (w.setV r l x).arch.epc = w.arch.epc := rfl
@[simp] theorem Wave.setV_arch_ecause (w : Wave) (r l : Nat) (x : Word) : (w.setV r l x).arch.ecause = w.arch.ecause := rfl
@[simp] theorem Wave.setV_arch_emask (w : Wave) (r l : Nat) (x : Word) : (w.setV r l x).arch.emask = w.arch.emask := rfl
@[simp] theorem Wave.setV_arch_eaddr (w : Wave) (r l : Nat) (x : Word) : (w.setV r l x).arch.eaddr = w.arch.eaddr := rfl
@[simp] theorem Wave.setV_arch_evec (w : Wave) (r l : Nat) (x : Word) : (w.setV r l x).arch.evec = w.arch.evec := rfl
@[simp] theorem Wave.setV_arch_uhtv (w : Wave) (r l : Nat) (x : Word) : (w.setV r l x).arch.uhtv = w.arch.uhtv := rfl
@[simp] theorem Wave.setV_arch_wdog (w : Wave) (r l : Nat) (x : Word) : (w.setV r l x).arch.wdog = w.arch.wdog := rfl
@[simp] theorem Wave.setV_arch_hstat (w : Wave) (r l : Nat) (x : Word) : (w.setV r l x).arch.hstat = w.arch.hstat := rfl
@[simp] theorem Wave.setV_arch_hepc (w : Wave) (r l : Nat) (x : Word) : (w.setV r l x).arch.hepc = w.arch.hepc := rfl

@[simp] theorem Wave.setPred_core (w : Wave) (p : Nat) (m : DWord) : (w.setPred p m).core = w.core := rfl
@[simp] theorem Wave.setPred_slot (w : Wave) (p : Nat) (m : DWord) : (w.setPred p m).slot = w.slot := rfl
@[simp] theorem Wave.setPred_env (w : Wave) (p : Nat) (m : DWord) : (w.setPred p m).env = w.env := rfl
@[simp] theorem Wave.setPred_status (w : Wave) (p : Nat) (m : DWord) : (w.setPred p m).status = w.status := rfl
@[simp] theorem Wave.setPred_pos (w : Wave) (p : Nat) (m : DWord) : (w.setPred p m).pos = w.pos := rfl
@[simp] theorem Wave.setPred_hints (w : Wave) (p : Nat) (m : DWord) : (w.setPred p m).hints = w.hints := rfl
@[simp] theorem Wave.setPred_replay (w : Wave) (p : Nat) (m : DWord) : (w.setPred p m).replay = w.replay := rfl
@[simp] theorem Wave.setPred_badResume (w : Wave) (p : Nat) (m : DWord) : (w.setPred p m).badResume = w.badResume := rfl
@[simp] theorem Wave.setPred_fellX (w : Wave) (p : Nat) (m : DWord) : (w.setPred p m).fellX = w.fellX := rfl
@[simp] theorem Wave.setPred_ll (w : Wave) (p : Nat) (m : DWord) : (w.setPred p m).ll = w.ll := rfl
@[simp] theorem Wave.setPred_ocx (w : Wave) (p : Nat) (m : DWord) : (w.setPred p m).ocx = w.ocx := rfl
@[simp] theorem Wave.setPred_ocm (w : Wave) (p : Nat) (m : DWord) : (w.setPred p m).ocm = w.ocm := rfl
@[simp] theorem Wave.setPred_ocg (w : Wave) (p : Nat) (m : DWord) : (w.setPred p m).ocg = w.ocg := rfl
@[simp] theorem Wave.setPred_ock (w : Wave) (p : Nat) (m : DWord) : (w.setPred p m).ock = w.ock := rfl
@[simp] theorem Wave.setPred_openBatch (w : Wave) (p : Nat) (m : DWord) : (w.setPred p m).openBatch = w.openBatch := rfl
@[simp] theorem Wave.setPred_batches (w : Wave) (p : Nat) (m : DWord) : (w.setPred p m).batches = w.batches := rfl
@[simp] theorem Wave.setPred_pending (w : Wave) (p : Nat) (m : DWord) : (w.setPred p m).pending = w.pending := rfl
@[simp] theorem Wave.setPred_stepDue (w : Wave) (p : Nat) (m : DWord) : (w.setPred p m).stepDue = w.stepDue := rfl
@[simp] theorem Wave.setPred_expiryDue (w : Wave) (p : Nat) (m : DWord) : (w.setPred p m).expiryDue = w.expiryDue := rfl
@[simp] theorem Wave.setPred_failures (w : Wave) (p : Nat) (m : DWord) : (w.setPred p m).failures = w.failures := rfl
@[simp] theorem Wave.setPred_arrival (w : Wave) (p : Nat) (m : DWord) : (w.setPred p m).arrival = w.arrival := rfl
@[simp] theorem Wave.setPred_stop (w : Wave) (p : Nat) (m : DWord) : (w.setPred p m).stop = w.stop := rfl
@[simp] theorem Wave.setPred_svStart (w : Wave) (p : Nat) (m : DWord) : (w.setPred p m).svStart = w.svStart := rfl
@[simp] theorem Wave.setPred_svDepth (w : Wave) (p : Nat) (m : DWord) : (w.setPred p m).svDepth = w.svDepth := rfl
@[simp] theorem Wave.setPred_prio (w : Wave) (p : Nat) (m : DWord) : (w.setPred p m).prio = w.prio := rfl
@[simp] theorem Wave.setPred_noShare (w : Wave) (p : Nat) (m : DWord) : (w.setPred p m).noShare = w.noShare := rfl
@[simp] theorem Wave.setPred_yieldDue (w : Wave) (p : Nat) (m : DWord) : (w.setPred p m).yieldDue = w.yieldDue := rfl
@[simp] theorem Wave.setPred_yielded (w : Wave) (p : Nat) (m : DWord) : (w.setPred p m).yielded = w.yielded := rfl
@[simp] theorem Wave.setPred_age (w : Wave) (p : Nat) (m : DWord) : (w.setPred p m).age = w.age := rfl
@[simp] theorem Wave.setPred_readySince (w : Wave) (p : Nat) (m : DWord) : (w.setPred p m).readySince = w.readySince := rfl
@[simp] theorem Wave.setPred_unserved (w : Wave) (p : Nat) (m : DWord) : (w.setPred p m).unserved = w.unserved := rfl
@[simp] theorem Wave.setPred_issueSlot (w : Wave) (p : Nat) (m : DWord) : (w.setPred p m).issueSlot = w.issueSlot := rfl
@[simp] theorem Wave.setPred_boostedAt (w : Wave) (p : Nat) (m : DWord) : (w.setPred p m).boostedAt = w.boostedAt := rfl
@[simp] theorem Wave.setPred_entries (w : Wave) (p : Nat) (m : DWord) : (w.setPred p m).entries = w.entries := rfl
@[simp] theorem Wave.setPred_entryDue (w : Wave) (p : Nat) (m : DWord) : (w.setPred p m).entryDue = w.entryDue := rfl
@[simp] theorem Wave.setPred_issued (w : Wave) (p : Nat) (m : DWord) : (w.setPred p m).issued = w.issued := rfl
@[simp] theorem Wave.setPred_waitInv (w : Wave) (p : Nat) (m : DWord) : (w.setPred p m).waitInv = w.waitInv := rfl
@[simp] theorem Wave.setPred_fenceAt (w : Wave) (p : Nat) (m : DWord) : (w.setPred p m).fenceAt = w.fenceAt := rfl
@[simp] theorem Wave.setPred_lookoutOf (w : Wave) (p : Nat) (m : DWord) : (w.setPred p m).lookoutOf = w.lookoutOf := rfl
@[simp] theorem Wave.setPred_lookoutStart (w : Wave) (p : Nat) (m : DWord) : (w.setPred p m).lookoutStart = w.lookoutStart := rfl
@[simp] theorem Wave.setPred_lookoutRange (w : Wave) (p : Nat) (m : DWord) : (w.setPred p m).lookoutRange = w.lookoutRange := rfl
@[simp] theorem Wave.setPred_lookoutOver (w : Wave) (p : Nat) (m : DWord) : (w.setPred p m).lookoutOver = w.lookoutOver := rfl
@[simp] theorem Wave.setPred_arch_exm (w : Wave) (p : Nat) (m : DWord) : (w.setPred p m).arch.exm = w.arch.exm := rfl
@[simp] theorem Wave.setPred_arch_vregs (w : Wave) (p : Nat) (m : DWord) : (w.setPred p m).arch.vregs = w.arch.vregs := rfl
@[simp] theorem Wave.setPred_arch_sregs (w : Wave) (p : Nat) (m : DWord) : (w.setPred p m).arch.sregs = w.arch.sregs := rfl
@[simp] theorem Wave.setPred_arch_fpc (w : Wave) (p : Nat) (m : DWord) : (w.setPred p m).arch.fpc = w.arch.fpc := rfl
@[simp] theorem Wave.setPred_arch_rvsp (w : Wave) (p : Nat) (m : DWord) : (w.setPred p m).arch.rvsp = w.arch.rvsp := rfl
@[simp] theorem Wave.setPred_arch_mode (w : Wave) (p : Nat) (m : DWord) : (w.setPred p m).arch.mode = w.arch.mode := rfl
@[simp] theorem Wave.setPred_arch_sdepth (w : Wave) (p : Nat) (m : DWord) : (w.setPred p m).arch.sdepth = w.arch.sdepth := rfl
@[simp] theorem Wave.setPred_arch_ddepth (w : Wave) (p : Nat) (m : DWord) : (w.setPred p m).arch.ddepth = w.arch.ddepth := rfl
@[simp] theorem Wave.setPred_arch_sstep (w : Wave) (p : Nat) (m : DWord) : (w.setPred p m).arch.sstep = w.arch.sstep := rfl
@[simp] theorem Wave.setPred_arch_estat (w : Wave) (p : Nat) (m : DWord) : (w.setPred p m).arch.estat = w.arch.estat := rfl
@[simp] theorem Wave.setPred_arch_epc (w : Wave) (p : Nat) (m : DWord) : (w.setPred p m).arch.epc = w.arch.epc := rfl
@[simp] theorem Wave.setPred_arch_ecause (w : Wave) (p : Nat) (m : DWord) : (w.setPred p m).arch.ecause = w.arch.ecause := rfl
@[simp] theorem Wave.setPred_arch_emask (w : Wave) (p : Nat) (m : DWord) : (w.setPred p m).arch.emask = w.arch.emask := rfl
@[simp] theorem Wave.setPred_arch_eaddr (w : Wave) (p : Nat) (m : DWord) : (w.setPred p m).arch.eaddr = w.arch.eaddr := rfl
@[simp] theorem Wave.setPred_arch_evec (w : Wave) (p : Nat) (m : DWord) : (w.setPred p m).arch.evec = w.arch.evec := rfl
@[simp] theorem Wave.setPred_arch_uhtv (w : Wave) (p : Nat) (m : DWord) : (w.setPred p m).arch.uhtv = w.arch.uhtv := rfl
@[simp] theorem Wave.setPred_arch_wdog (w : Wave) (p : Nat) (m : DWord) : (w.setPred p m).arch.wdog = w.arch.wdog := rfl
@[simp] theorem Wave.setPred_arch_hstat (w : Wave) (p : Nat) (m : DWord) : (w.setPred p m).arch.hstat = w.arch.hstat := rfl
@[simp] theorem Wave.setPred_arch_hepc (w : Wave) (p : Nat) (m : DWord) : (w.setPred p m).arch.hepc = w.arch.hepc := rfl

@[simp] theorem Wave.setExm_core (w : Wave) (m : DWord) : (w.setExm m).core = w.core := rfl
@[simp] theorem Wave.setExm_slot (w : Wave) (m : DWord) : (w.setExm m).slot = w.slot := rfl
@[simp] theorem Wave.setExm_env (w : Wave) (m : DWord) : (w.setExm m).env = w.env := rfl
@[simp] theorem Wave.setExm_status (w : Wave) (m : DWord) : (w.setExm m).status = w.status := rfl
@[simp] theorem Wave.setExm_pos (w : Wave) (m : DWord) : (w.setExm m).pos = w.pos := rfl
@[simp] theorem Wave.setExm_hints (w : Wave) (m : DWord) : (w.setExm m).hints = w.hints := rfl
@[simp] theorem Wave.setExm_replay (w : Wave) (m : DWord) : (w.setExm m).replay = w.replay := rfl
@[simp] theorem Wave.setExm_badResume (w : Wave) (m : DWord) : (w.setExm m).badResume = w.badResume := rfl
@[simp] theorem Wave.setExm_fellX (w : Wave) (m : DWord) : (w.setExm m).fellX = w.fellX := rfl
@[simp] theorem Wave.setExm_ll (w : Wave) (m : DWord) : (w.setExm m).ll = w.ll := rfl
@[simp] theorem Wave.setExm_ocx (w : Wave) (m : DWord) : (w.setExm m).ocx = w.ocx := rfl
@[simp] theorem Wave.setExm_ocm (w : Wave) (m : DWord) : (w.setExm m).ocm = w.ocm := rfl
@[simp] theorem Wave.setExm_ocg (w : Wave) (m : DWord) : (w.setExm m).ocg = w.ocg := rfl
@[simp] theorem Wave.setExm_ock (w : Wave) (m : DWord) : (w.setExm m).ock = w.ock := rfl
@[simp] theorem Wave.setExm_openBatch (w : Wave) (m : DWord) : (w.setExm m).openBatch = w.openBatch := rfl
@[simp] theorem Wave.setExm_batches (w : Wave) (m : DWord) : (w.setExm m).batches = w.batches := rfl
@[simp] theorem Wave.setExm_pending (w : Wave) (m : DWord) : (w.setExm m).pending = w.pending := rfl
@[simp] theorem Wave.setExm_stepDue (w : Wave) (m : DWord) : (w.setExm m).stepDue = w.stepDue := rfl
@[simp] theorem Wave.setExm_expiryDue (w : Wave) (m : DWord) : (w.setExm m).expiryDue = w.expiryDue := rfl
@[simp] theorem Wave.setExm_failures (w : Wave) (m : DWord) : (w.setExm m).failures = w.failures := rfl
@[simp] theorem Wave.setExm_arrival (w : Wave) (m : DWord) : (w.setExm m).arrival = w.arrival := rfl
@[simp] theorem Wave.setExm_stop (w : Wave) (m : DWord) : (w.setExm m).stop = w.stop := rfl
@[simp] theorem Wave.setExm_svStart (w : Wave) (m : DWord) : (w.setExm m).svStart = w.svStart := rfl
@[simp] theorem Wave.setExm_svDepth (w : Wave) (m : DWord) : (w.setExm m).svDepth = w.svDepth := rfl
@[simp] theorem Wave.setExm_prio (w : Wave) (m : DWord) : (w.setExm m).prio = w.prio := rfl
@[simp] theorem Wave.setExm_noShare (w : Wave) (m : DWord) : (w.setExm m).noShare = w.noShare := rfl
@[simp] theorem Wave.setExm_yieldDue (w : Wave) (m : DWord) : (w.setExm m).yieldDue = w.yieldDue := rfl
@[simp] theorem Wave.setExm_yielded (w : Wave) (m : DWord) : (w.setExm m).yielded = w.yielded := rfl
@[simp] theorem Wave.setExm_age (w : Wave) (m : DWord) : (w.setExm m).age = w.age := rfl
@[simp] theorem Wave.setExm_readySince (w : Wave) (m : DWord) : (w.setExm m).readySince = w.readySince := rfl
@[simp] theorem Wave.setExm_unserved (w : Wave) (m : DWord) : (w.setExm m).unserved = w.unserved := rfl
@[simp] theorem Wave.setExm_issueSlot (w : Wave) (m : DWord) : (w.setExm m).issueSlot = w.issueSlot := rfl
@[simp] theorem Wave.setExm_boostedAt (w : Wave) (m : DWord) : (w.setExm m).boostedAt = w.boostedAt := rfl
@[simp] theorem Wave.setExm_entries (w : Wave) (m : DWord) : (w.setExm m).entries = w.entries := rfl
@[simp] theorem Wave.setExm_entryDue (w : Wave) (m : DWord) : (w.setExm m).entryDue = w.entryDue := rfl
@[simp] theorem Wave.setExm_issued (w : Wave) (m : DWord) : (w.setExm m).issued = w.issued := rfl
@[simp] theorem Wave.setExm_waitInv (w : Wave) (m : DWord) : (w.setExm m).waitInv = w.waitInv := rfl
@[simp] theorem Wave.setExm_fenceAt (w : Wave) (m : DWord) : (w.setExm m).fenceAt = w.fenceAt := rfl
@[simp] theorem Wave.setExm_lookoutOf (w : Wave) (m : DWord) : (w.setExm m).lookoutOf = w.lookoutOf := rfl
@[simp] theorem Wave.setExm_lookoutStart (w : Wave) (m : DWord) : (w.setExm m).lookoutStart = w.lookoutStart := rfl
@[simp] theorem Wave.setExm_lookoutRange (w : Wave) (m : DWord) : (w.setExm m).lookoutRange = w.lookoutRange := rfl
@[simp] theorem Wave.setExm_lookoutOver (w : Wave) (m : DWord) : (w.setExm m).lookoutOver = w.lookoutOver := rfl
@[simp] theorem Wave.setExm_arch_vregs (w : Wave) (m : DWord) : (w.setExm m).arch.vregs = w.arch.vregs := rfl
@[simp] theorem Wave.setExm_arch_sregs (w : Wave) (m : DWord) : (w.setExm m).arch.sregs = w.arch.sregs := rfl
@[simp] theorem Wave.setExm_arch_preds (w : Wave) (m : DWord) : (w.setExm m).arch.preds = w.arch.preds := rfl
@[simp] theorem Wave.setExm_arch_fpc (w : Wave) (m : DWord) : (w.setExm m).arch.fpc = w.arch.fpc := rfl
@[simp] theorem Wave.setExm_arch_rvsp (w : Wave) (m : DWord) : (w.setExm m).arch.rvsp = w.arch.rvsp := rfl
@[simp] theorem Wave.setExm_arch_mode (w : Wave) (m : DWord) : (w.setExm m).arch.mode = w.arch.mode := rfl
@[simp] theorem Wave.setExm_arch_sdepth (w : Wave) (m : DWord) : (w.setExm m).arch.sdepth = w.arch.sdepth := rfl
@[simp] theorem Wave.setExm_arch_ddepth (w : Wave) (m : DWord) : (w.setExm m).arch.ddepth = w.arch.ddepth := rfl
@[simp] theorem Wave.setExm_arch_sstep (w : Wave) (m : DWord) : (w.setExm m).arch.sstep = w.arch.sstep := rfl
@[simp] theorem Wave.setExm_arch_estat (w : Wave) (m : DWord) : (w.setExm m).arch.estat = w.arch.estat := rfl
@[simp] theorem Wave.setExm_arch_epc (w : Wave) (m : DWord) : (w.setExm m).arch.epc = w.arch.epc := rfl
@[simp] theorem Wave.setExm_arch_ecause (w : Wave) (m : DWord) : (w.setExm m).arch.ecause = w.arch.ecause := rfl
@[simp] theorem Wave.setExm_arch_emask (w : Wave) (m : DWord) : (w.setExm m).arch.emask = w.arch.emask := rfl
@[simp] theorem Wave.setExm_arch_eaddr (w : Wave) (m : DWord) : (w.setExm m).arch.eaddr = w.arch.eaddr := rfl
@[simp] theorem Wave.setExm_arch_evec (w : Wave) (m : DWord) : (w.setExm m).arch.evec = w.arch.evec := rfl
@[simp] theorem Wave.setExm_arch_uhtv (w : Wave) (m : DWord) : (w.setExm m).arch.uhtv = w.arch.uhtv := rfl
@[simp] theorem Wave.setExm_arch_wdog (w : Wave) (m : DWord) : (w.setExm m).arch.wdog = w.arch.wdog := rfl
@[simp] theorem Wave.setExm_arch_hstat (w : Wave) (m : DWord) : (w.setExm m).arch.hstat = w.arch.hstat := rfl
@[simp] theorem Wave.setExm_arch_hepc (w : Wave) (m : DWord) : (w.setExm m).arch.hepc = w.arch.hepc := rfl

@[simp] theorem Wave.setFpc_core (w : Wave) (x : DWord) : (w.setFpc x).core = w.core := rfl
@[simp] theorem Wave.setFpc_slot (w : Wave) (x : DWord) : (w.setFpc x).slot = w.slot := rfl
@[simp] theorem Wave.setFpc_env (w : Wave) (x : DWord) : (w.setFpc x).env = w.env := rfl
@[simp] theorem Wave.setFpc_status (w : Wave) (x : DWord) : (w.setFpc x).status = w.status := rfl
@[simp] theorem Wave.setFpc_pos (w : Wave) (x : DWord) : (w.setFpc x).pos = w.pos := rfl
@[simp] theorem Wave.setFpc_hints (w : Wave) (x : DWord) : (w.setFpc x).hints = w.hints := rfl
@[simp] theorem Wave.setFpc_replay (w : Wave) (x : DWord) : (w.setFpc x).replay = w.replay := rfl
@[simp] theorem Wave.setFpc_badResume (w : Wave) (x : DWord) : (w.setFpc x).badResume = w.badResume := rfl
@[simp] theorem Wave.setFpc_fellX (w : Wave) (x : DWord) : (w.setFpc x).fellX = w.fellX := rfl
@[simp] theorem Wave.setFpc_ll (w : Wave) (x : DWord) : (w.setFpc x).ll = w.ll := rfl
@[simp] theorem Wave.setFpc_ocx (w : Wave) (x : DWord) : (w.setFpc x).ocx = w.ocx := rfl
@[simp] theorem Wave.setFpc_ocm (w : Wave) (x : DWord) : (w.setFpc x).ocm = w.ocm := rfl
@[simp] theorem Wave.setFpc_ocg (w : Wave) (x : DWord) : (w.setFpc x).ocg = w.ocg := rfl
@[simp] theorem Wave.setFpc_ock (w : Wave) (x : DWord) : (w.setFpc x).ock = w.ock := rfl
@[simp] theorem Wave.setFpc_openBatch (w : Wave) (x : DWord) : (w.setFpc x).openBatch = w.openBatch := rfl
@[simp] theorem Wave.setFpc_batches (w : Wave) (x : DWord) : (w.setFpc x).batches = w.batches := rfl
@[simp] theorem Wave.setFpc_pending (w : Wave) (x : DWord) : (w.setFpc x).pending = w.pending := rfl
@[simp] theorem Wave.setFpc_stepDue (w : Wave) (x : DWord) : (w.setFpc x).stepDue = w.stepDue := rfl
@[simp] theorem Wave.setFpc_expiryDue (w : Wave) (x : DWord) : (w.setFpc x).expiryDue = w.expiryDue := rfl
@[simp] theorem Wave.setFpc_failures (w : Wave) (x : DWord) : (w.setFpc x).failures = w.failures := rfl
@[simp] theorem Wave.setFpc_arrival (w : Wave) (x : DWord) : (w.setFpc x).arrival = w.arrival := rfl
@[simp] theorem Wave.setFpc_stop (w : Wave) (x : DWord) : (w.setFpc x).stop = w.stop := rfl
@[simp] theorem Wave.setFpc_svStart (w : Wave) (x : DWord) : (w.setFpc x).svStart = w.svStart := rfl
@[simp] theorem Wave.setFpc_svDepth (w : Wave) (x : DWord) : (w.setFpc x).svDepth = w.svDepth := rfl
@[simp] theorem Wave.setFpc_prio (w : Wave) (x : DWord) : (w.setFpc x).prio = w.prio := rfl
@[simp] theorem Wave.setFpc_noShare (w : Wave) (x : DWord) : (w.setFpc x).noShare = w.noShare := rfl
@[simp] theorem Wave.setFpc_yieldDue (w : Wave) (x : DWord) : (w.setFpc x).yieldDue = w.yieldDue := rfl
@[simp] theorem Wave.setFpc_yielded (w : Wave) (x : DWord) : (w.setFpc x).yielded = w.yielded := rfl
@[simp] theorem Wave.setFpc_age (w : Wave) (x : DWord) : (w.setFpc x).age = w.age := rfl
@[simp] theorem Wave.setFpc_readySince (w : Wave) (x : DWord) : (w.setFpc x).readySince = w.readySince := rfl
@[simp] theorem Wave.setFpc_unserved (w : Wave) (x : DWord) : (w.setFpc x).unserved = w.unserved := rfl
@[simp] theorem Wave.setFpc_issueSlot (w : Wave) (x : DWord) : (w.setFpc x).issueSlot = w.issueSlot := rfl
@[simp] theorem Wave.setFpc_boostedAt (w : Wave) (x : DWord) : (w.setFpc x).boostedAt = w.boostedAt := rfl
@[simp] theorem Wave.setFpc_entries (w : Wave) (x : DWord) : (w.setFpc x).entries = w.entries := rfl
@[simp] theorem Wave.setFpc_entryDue (w : Wave) (x : DWord) : (w.setFpc x).entryDue = w.entryDue := rfl
@[simp] theorem Wave.setFpc_issued (w : Wave) (x : DWord) : (w.setFpc x).issued = w.issued := rfl
@[simp] theorem Wave.setFpc_waitInv (w : Wave) (x : DWord) : (w.setFpc x).waitInv = w.waitInv := rfl
@[simp] theorem Wave.setFpc_fenceAt (w : Wave) (x : DWord) : (w.setFpc x).fenceAt = w.fenceAt := rfl
@[simp] theorem Wave.setFpc_lookoutOf (w : Wave) (x : DWord) : (w.setFpc x).lookoutOf = w.lookoutOf := rfl
@[simp] theorem Wave.setFpc_lookoutStart (w : Wave) (x : DWord) : (w.setFpc x).lookoutStart = w.lookoutStart := rfl
@[simp] theorem Wave.setFpc_lookoutRange (w : Wave) (x : DWord) : (w.setFpc x).lookoutRange = w.lookoutRange := rfl
@[simp] theorem Wave.setFpc_lookoutOver (w : Wave) (x : DWord) : (w.setFpc x).lookoutOver = w.lookoutOver := rfl
@[simp] theorem Wave.setFpc_arch_exm (w : Wave) (x : DWord) : (w.setFpc x).arch.exm = w.arch.exm := rfl
@[simp] theorem Wave.setFpc_arch_vregs (w : Wave) (x : DWord) : (w.setFpc x).arch.vregs = w.arch.vregs := rfl
@[simp] theorem Wave.setFpc_arch_sregs (w : Wave) (x : DWord) : (w.setFpc x).arch.sregs = w.arch.sregs := rfl
@[simp] theorem Wave.setFpc_arch_preds (w : Wave) (x : DWord) : (w.setFpc x).arch.preds = w.arch.preds := rfl
@[simp] theorem Wave.setFpc_arch_rvsp (w : Wave) (x : DWord) : (w.setFpc x).arch.rvsp = w.arch.rvsp := rfl
@[simp] theorem Wave.setFpc_arch_mode (w : Wave) (x : DWord) : (w.setFpc x).arch.mode = w.arch.mode := rfl
@[simp] theorem Wave.setFpc_arch_sdepth (w : Wave) (x : DWord) : (w.setFpc x).arch.sdepth = w.arch.sdepth := rfl
@[simp] theorem Wave.setFpc_arch_ddepth (w : Wave) (x : DWord) : (w.setFpc x).arch.ddepth = w.arch.ddepth := rfl
@[simp] theorem Wave.setFpc_arch_sstep (w : Wave) (x : DWord) : (w.setFpc x).arch.sstep = w.arch.sstep := rfl
@[simp] theorem Wave.setFpc_arch_estat (w : Wave) (x : DWord) : (w.setFpc x).arch.estat = w.arch.estat := rfl
@[simp] theorem Wave.setFpc_arch_epc (w : Wave) (x : DWord) : (w.setFpc x).arch.epc = w.arch.epc := rfl
@[simp] theorem Wave.setFpc_arch_ecause (w : Wave) (x : DWord) : (w.setFpc x).arch.ecause = w.arch.ecause := rfl
@[simp] theorem Wave.setFpc_arch_emask (w : Wave) (x : DWord) : (w.setFpc x).arch.emask = w.arch.emask := rfl
@[simp] theorem Wave.setFpc_arch_eaddr (w : Wave) (x : DWord) : (w.setFpc x).arch.eaddr = w.arch.eaddr := rfl
@[simp] theorem Wave.setFpc_arch_evec (w : Wave) (x : DWord) : (w.setFpc x).arch.evec = w.arch.evec := rfl
@[simp] theorem Wave.setFpc_arch_uhtv (w : Wave) (x : DWord) : (w.setFpc x).arch.uhtv = w.arch.uhtv := rfl
@[simp] theorem Wave.setFpc_arch_wdog (w : Wave) (x : DWord) : (w.setFpc x).arch.wdog = w.arch.wdog := rfl
@[simp] theorem Wave.setFpc_arch_hstat (w : Wave) (x : DWord) : (w.setFpc x).arch.hstat = w.arch.hstat := rfl
@[simp] theorem Wave.setFpc_arch_hepc (w : Wave) (x : DWord) : (w.setFpc x).arch.hepc = w.arch.hepc := rfl

@[simp] theorem Wave.setRvsp_core (w : Wave) (x : DWord) : (w.setRvsp x).core = w.core := rfl
@[simp] theorem Wave.setRvsp_slot (w : Wave) (x : DWord) : (w.setRvsp x).slot = w.slot := rfl
@[simp] theorem Wave.setRvsp_env (w : Wave) (x : DWord) : (w.setRvsp x).env = w.env := rfl
@[simp] theorem Wave.setRvsp_status (w : Wave) (x : DWord) : (w.setRvsp x).status = w.status := rfl
@[simp] theorem Wave.setRvsp_pos (w : Wave) (x : DWord) : (w.setRvsp x).pos = w.pos := rfl
@[simp] theorem Wave.setRvsp_hints (w : Wave) (x : DWord) : (w.setRvsp x).hints = w.hints := rfl
@[simp] theorem Wave.setRvsp_replay (w : Wave) (x : DWord) : (w.setRvsp x).replay = w.replay := rfl
@[simp] theorem Wave.setRvsp_badResume (w : Wave) (x : DWord) : (w.setRvsp x).badResume = w.badResume := rfl
@[simp] theorem Wave.setRvsp_fellX (w : Wave) (x : DWord) : (w.setRvsp x).fellX = w.fellX := rfl
@[simp] theorem Wave.setRvsp_ll (w : Wave) (x : DWord) : (w.setRvsp x).ll = w.ll := rfl
@[simp] theorem Wave.setRvsp_ocx (w : Wave) (x : DWord) : (w.setRvsp x).ocx = w.ocx := rfl
@[simp] theorem Wave.setRvsp_ocm (w : Wave) (x : DWord) : (w.setRvsp x).ocm = w.ocm := rfl
@[simp] theorem Wave.setRvsp_ocg (w : Wave) (x : DWord) : (w.setRvsp x).ocg = w.ocg := rfl
@[simp] theorem Wave.setRvsp_ock (w : Wave) (x : DWord) : (w.setRvsp x).ock = w.ock := rfl
@[simp] theorem Wave.setRvsp_openBatch (w : Wave) (x : DWord) : (w.setRvsp x).openBatch = w.openBatch := rfl
@[simp] theorem Wave.setRvsp_batches (w : Wave) (x : DWord) : (w.setRvsp x).batches = w.batches := rfl
@[simp] theorem Wave.setRvsp_pending (w : Wave) (x : DWord) : (w.setRvsp x).pending = w.pending := rfl
@[simp] theorem Wave.setRvsp_stepDue (w : Wave) (x : DWord) : (w.setRvsp x).stepDue = w.stepDue := rfl
@[simp] theorem Wave.setRvsp_expiryDue (w : Wave) (x : DWord) : (w.setRvsp x).expiryDue = w.expiryDue := rfl
@[simp] theorem Wave.setRvsp_failures (w : Wave) (x : DWord) : (w.setRvsp x).failures = w.failures := rfl
@[simp] theorem Wave.setRvsp_arrival (w : Wave) (x : DWord) : (w.setRvsp x).arrival = w.arrival := rfl
@[simp] theorem Wave.setRvsp_stop (w : Wave) (x : DWord) : (w.setRvsp x).stop = w.stop := rfl
@[simp] theorem Wave.setRvsp_svStart (w : Wave) (x : DWord) : (w.setRvsp x).svStart = w.svStart := rfl
@[simp] theorem Wave.setRvsp_svDepth (w : Wave) (x : DWord) : (w.setRvsp x).svDepth = w.svDepth := rfl
@[simp] theorem Wave.setRvsp_prio (w : Wave) (x : DWord) : (w.setRvsp x).prio = w.prio := rfl
@[simp] theorem Wave.setRvsp_noShare (w : Wave) (x : DWord) : (w.setRvsp x).noShare = w.noShare := rfl
@[simp] theorem Wave.setRvsp_yieldDue (w : Wave) (x : DWord) : (w.setRvsp x).yieldDue = w.yieldDue := rfl
@[simp] theorem Wave.setRvsp_yielded (w : Wave) (x : DWord) : (w.setRvsp x).yielded = w.yielded := rfl
@[simp] theorem Wave.setRvsp_age (w : Wave) (x : DWord) : (w.setRvsp x).age = w.age := rfl
@[simp] theorem Wave.setRvsp_readySince (w : Wave) (x : DWord) : (w.setRvsp x).readySince = w.readySince := rfl
@[simp] theorem Wave.setRvsp_unserved (w : Wave) (x : DWord) : (w.setRvsp x).unserved = w.unserved := rfl
@[simp] theorem Wave.setRvsp_issueSlot (w : Wave) (x : DWord) : (w.setRvsp x).issueSlot = w.issueSlot := rfl
@[simp] theorem Wave.setRvsp_boostedAt (w : Wave) (x : DWord) : (w.setRvsp x).boostedAt = w.boostedAt := rfl
@[simp] theorem Wave.setRvsp_entries (w : Wave) (x : DWord) : (w.setRvsp x).entries = w.entries := rfl
@[simp] theorem Wave.setRvsp_entryDue (w : Wave) (x : DWord) : (w.setRvsp x).entryDue = w.entryDue := rfl
@[simp] theorem Wave.setRvsp_issued (w : Wave) (x : DWord) : (w.setRvsp x).issued = w.issued := rfl
@[simp] theorem Wave.setRvsp_waitInv (w : Wave) (x : DWord) : (w.setRvsp x).waitInv = w.waitInv := rfl
@[simp] theorem Wave.setRvsp_fenceAt (w : Wave) (x : DWord) : (w.setRvsp x).fenceAt = w.fenceAt := rfl
@[simp] theorem Wave.setRvsp_lookoutOf (w : Wave) (x : DWord) : (w.setRvsp x).lookoutOf = w.lookoutOf := rfl
@[simp] theorem Wave.setRvsp_lookoutStart (w : Wave) (x : DWord) : (w.setRvsp x).lookoutStart = w.lookoutStart := rfl
@[simp] theorem Wave.setRvsp_lookoutRange (w : Wave) (x : DWord) : (w.setRvsp x).lookoutRange = w.lookoutRange := rfl
@[simp] theorem Wave.setRvsp_lookoutOver (w : Wave) (x : DWord) : (w.setRvsp x).lookoutOver = w.lookoutOver := rfl
@[simp] theorem Wave.setRvsp_arch_exm (w : Wave) (x : DWord) : (w.setRvsp x).arch.exm = w.arch.exm := rfl
@[simp] theorem Wave.setRvsp_arch_vregs (w : Wave) (x : DWord) : (w.setRvsp x).arch.vregs = w.arch.vregs := rfl
@[simp] theorem Wave.setRvsp_arch_sregs (w : Wave) (x : DWord) : (w.setRvsp x).arch.sregs = w.arch.sregs := rfl
@[simp] theorem Wave.setRvsp_arch_preds (w : Wave) (x : DWord) : (w.setRvsp x).arch.preds = w.arch.preds := rfl
@[simp] theorem Wave.setRvsp_arch_fpc (w : Wave) (x : DWord) : (w.setRvsp x).arch.fpc = w.arch.fpc := rfl
@[simp] theorem Wave.setRvsp_arch_mode (w : Wave) (x : DWord) : (w.setRvsp x).arch.mode = w.arch.mode := rfl
@[simp] theorem Wave.setRvsp_arch_sdepth (w : Wave) (x : DWord) : (w.setRvsp x).arch.sdepth = w.arch.sdepth := rfl
@[simp] theorem Wave.setRvsp_arch_ddepth (w : Wave) (x : DWord) : (w.setRvsp x).arch.ddepth = w.arch.ddepth := rfl
@[simp] theorem Wave.setRvsp_arch_sstep (w : Wave) (x : DWord) : (w.setRvsp x).arch.sstep = w.arch.sstep := rfl
@[simp] theorem Wave.setRvsp_arch_estat (w : Wave) (x : DWord) : (w.setRvsp x).arch.estat = w.arch.estat := rfl
@[simp] theorem Wave.setRvsp_arch_epc (w : Wave) (x : DWord) : (w.setRvsp x).arch.epc = w.arch.epc := rfl
@[simp] theorem Wave.setRvsp_arch_ecause (w : Wave) (x : DWord) : (w.setRvsp x).arch.ecause = w.arch.ecause := rfl
@[simp] theorem Wave.setRvsp_arch_emask (w : Wave) (x : DWord) : (w.setRvsp x).arch.emask = w.arch.emask := rfl
@[simp] theorem Wave.setRvsp_arch_eaddr (w : Wave) (x : DWord) : (w.setRvsp x).arch.eaddr = w.arch.eaddr := rfl
@[simp] theorem Wave.setRvsp_arch_evec (w : Wave) (x : DWord) : (w.setRvsp x).arch.evec = w.arch.evec := rfl
@[simp] theorem Wave.setRvsp_arch_uhtv (w : Wave) (x : DWord) : (w.setRvsp x).arch.uhtv = w.arch.uhtv := rfl
@[simp] theorem Wave.setRvsp_arch_wdog (w : Wave) (x : DWord) : (w.setRvsp x).arch.wdog = w.arch.wdog := rfl
@[simp] theorem Wave.setRvsp_arch_hstat (w : Wave) (x : DWord) : (w.setRvsp x).arch.hstat = w.arch.hstat := rfl
@[simp] theorem Wave.setRvsp_arch_hepc (w : Wave) (x : DWord) : (w.setRvsp x).arch.hepc = w.arch.hepc := rfl

@[simp] theorem State.hold_clock (s : State) (k : HeldKind) : (s.hold k).clock = s.clock := rfl
@[simp] theorem State.hold_free (s : State) (k : HeldKind) : (s.hold k).free = s.free := rfl
@[simp] theorem State.hold_ids (s : State) (k : HeldKind) : (s.hold k).ids = s.ids := rfl
@[simp] theorem State.hold_agenda (s : State) (k : HeldKind) : (s.hold k).agenda = s.agenda := rfl
@[simp] theorem State.hold_waves (s : State) (k : HeldKind) : (s.hold k).waves = s.waves := rfl
@[simp] theorem State.hold_cores (s : State) (k : HeldKind) : (s.hold k).cores = s.cores := rfl
@[simp] theorem State.hold_mem (s : State) (k : HeldKind) : (s.hold k).mem = s.mem := rfl
@[simp] theorem State.hold_poison (s : State) (k : HeldKind) : (s.hold k).poison = s.poison := rfl
@[simp] theorem State.hold_storePoison (s : State) (k : HeldKind) : (s.hold k).storePoison = s.storePoison := rfl
@[simp] theorem State.hold_vis (s : State) (k : HeldKind) : (s.hold k).vis = s.vis := rfl
@[simp] theorem State.hold_launch (s : State) (k : HeldKind) : (s.hold k).launch = s.launch := rfl
@[simp] theorem State.hold_grids (s : State) (k : HeldKind) : (s.hold k).grids = s.grids := rfl
@[simp] theorem State.hold_ops (s : State) (k : HeldKind) : (s.hold k).ops = s.ops := rfl
@[simp] theorem State.hold_net (s : State) (k : HeldKind) : (s.hold k).net = s.net := rfl
@[simp] theorem State.hold_keeper (s : State) (k : HeldKind) : (s.hold k).keeper = s.keeper := rfl
@[simp] theorem State.hold_keepers (s : State) (k : HeldKind) : (s.hold k).keepers = s.keepers := rfl
@[simp] theorem State.hold_control (s : State) (k : HeldKind) : (s.hold k).control = s.control := rfl
@[simp] theorem State.hold_fabric (s : State) (k : HeldKind) : (s.hold k).fabric = s.fabric := rfl
@[simp] theorem State.hold_ring (s : State) (k : HeldKind) : (s.hold k).ring = s.ring := rfl
@[simp] theorem State.hold_hub (s : State) (k : HeldKind) : (s.hold k).hub = s.hub := rfl
@[simp] theorem State.hold_platform (s : State) (k : HeldKind) : (s.hold k).platform = s.platform := rfl
@[simp] theorem State.hold_tlbs (s : State) (k : HeldKind) : (s.hold k).tlbs = s.tlbs := rfl
@[simp] theorem State.hold_caches (s : State) (k : HeldKind) : (s.hold k).caches = s.caches := rfl

@[simp] theorem State.tell_clock (s : State) (e : HubEvent) : (s.tell e).clock = s.clock := rfl
@[simp] theorem State.tell_free (s : State) (e : HubEvent) : (s.tell e).free = s.free := rfl
@[simp] theorem State.tell_ids (s : State) (e : HubEvent) : (s.tell e).ids = s.ids := rfl
@[simp] theorem State.tell_agenda (s : State) (e : HubEvent) : (s.tell e).agenda = s.agenda := rfl
@[simp] theorem State.tell_wave (s : State) (e : HubEvent) : (s.tell e).wave = s.wave := rfl
@[simp] theorem State.tell_core (s : State) (e : HubEvent) : (s.tell e).core = s.core := rfl
@[simp] theorem State.tell_waves (s : State) (e : HubEvent) : (s.tell e).waves = s.waves := rfl
@[simp] theorem State.tell_cores (s : State) (e : HubEvent) : (s.tell e).cores = s.cores := rfl
@[simp] theorem State.tell_mem (s : State) (e : HubEvent) : (s.tell e).mem = s.mem := rfl
@[simp] theorem State.tell_poison (s : State) (e : HubEvent) : (s.tell e).poison = s.poison := rfl
@[simp] theorem State.tell_storePoison (s : State) (e : HubEvent) : (s.tell e).storePoison = s.storePoison := rfl
@[simp] theorem State.tell_vis (s : State) (e : HubEvent) : (s.tell e).vis = s.vis := rfl
@[simp] theorem State.tell_launch (s : State) (e : HubEvent) : (s.tell e).launch = s.launch := rfl
@[simp] theorem State.tell_grids (s : State) (e : HubEvent) : (s.tell e).grids = s.grids := rfl
@[simp] theorem State.tell_ops (s : State) (e : HubEvent) : (s.tell e).ops = s.ops := rfl
@[simp] theorem State.tell_net (s : State) (e : HubEvent) : (s.tell e).net = s.net := rfl
@[simp] theorem State.tell_keeper (s : State) (e : HubEvent) : (s.tell e).keeper = s.keeper := rfl
@[simp] theorem State.tell_keepers (s : State) (e : HubEvent) : (s.tell e).keepers = s.keepers := rfl
@[simp] theorem State.tell_control (s : State) (e : HubEvent) : (s.tell e).control = s.control := rfl
@[simp] theorem State.tell_fabric (s : State) (e : HubEvent) : (s.tell e).fabric = s.fabric := rfl
@[simp] theorem State.tell_ring (s : State) (e : HubEvent) : (s.tell e).ring = s.ring := rfl
@[simp] theorem State.tell_platform (s : State) (e : HubEvent) : (s.tell e).platform = s.platform := rfl
@[simp] theorem State.tell_tlbs (s : State) (e : HubEvent) : (s.tell e).tlbs = s.tlbs := rfl
@[simp] theorem State.tell_caches (s : State) (e : HubEvent) : (s.tell e).caches = s.caches := rfl

@[simp] theorem State.soon_clock (s : State) (h : Happening) : (s.soon h).clock = s.clock := rfl
@[simp] theorem State.soon_free (s : State) (h : Happening) : (s.soon h).free = s.free := rfl
@[simp] theorem State.soon_ids (s : State) (h : Happening) : (s.soon h).ids = s.ids := rfl
@[simp] theorem State.soon_wave (s : State) (h : Happening) : (s.soon h).wave = s.wave := rfl
@[simp] theorem State.soon_core (s : State) (h : Happening) : (s.soon h).core = s.core := rfl
@[simp] theorem State.soon_waves (s : State) (h : Happening) : (s.soon h).waves = s.waves := rfl
@[simp] theorem State.soon_cores (s : State) (h : Happening) : (s.soon h).cores = s.cores := rfl
@[simp] theorem State.soon_mem (s : State) (h : Happening) : (s.soon h).mem = s.mem := rfl
@[simp] theorem State.soon_poison (s : State) (h : Happening) : (s.soon h).poison = s.poison := rfl
@[simp] theorem State.soon_storePoison (s : State) (h : Happening) : (s.soon h).storePoison = s.storePoison := rfl
@[simp] theorem State.soon_vis (s : State) (h : Happening) : (s.soon h).vis = s.vis := rfl
@[simp] theorem State.soon_launch (s : State) (h : Happening) : (s.soon h).launch = s.launch := rfl
@[simp] theorem State.soon_grids (s : State) (h : Happening) : (s.soon h).grids = s.grids := rfl
@[simp] theorem State.soon_ops (s : State) (h : Happening) : (s.soon h).ops = s.ops := rfl
@[simp] theorem State.soon_net (s : State) (h : Happening) : (s.soon h).net = s.net := rfl
@[simp] theorem State.soon_keeper (s : State) (h : Happening) : (s.soon h).keeper = s.keeper := rfl
@[simp] theorem State.soon_keepers (s : State) (h : Happening) : (s.soon h).keepers = s.keepers := rfl
@[simp] theorem State.soon_control (s : State) (h : Happening) : (s.soon h).control = s.control := rfl
@[simp] theorem State.soon_fabric (s : State) (h : Happening) : (s.soon h).fabric = s.fabric := rfl
@[simp] theorem State.soon_ring (s : State) (h : Happening) : (s.soon h).ring = s.ring := rfl
@[simp] theorem State.soon_hub (s : State) (h : Happening) : (s.soon h).hub = s.hub := rfl
@[simp] theorem State.soon_platform (s : State) (h : Happening) : (s.soon h).platform = s.platform := rfl
@[simp] theorem State.soon_tlbs (s : State) (h : Happening) : (s.soon h).tlbs = s.tlbs := rfl
@[simp] theorem State.soon_caches (s : State) (h : Happening) : (s.soon h).caches = s.caches := rfl

@[simp] theorem State.hold_wave (s : State) (k : HeldKind) : (s.hold k).wave = s.wave.settleLoads := rfl

end Sys2Proof.Machine
end

