-- ==== Sys2Proof/Laws/Ops.lean ====
section
/-!
SUPPORT. The shared operations: what each can do, said once.
-/
namespace Sys2Proof.Machine

/-- Every check passed: the effect. -/
theorem State.group_clears {s : State} {f : Form} (h : s.clears f) (k : Hints → Out) : s.group f k = k s.wave.group := by
  obtain ⟨h1, h2⟩ := h
  have h3 : ¬(s.wave.lookoutOf.isSome = true ∧ f.lookout = false) := by
    rintro ⟨a, b⟩; rw [h2 a] at b; cases b
  unfold State.group
  rw [h1]
  exact if_neg h3

/-- A group answers a next state: the trap that its checks name, the end of a lookout, or what its effect answers. -/
theorem State.group_cases (s : State) (f : Form) (k : Hints → Out) :
    (∃ c, f.refuses s.wave = some c ∧ s.group f k = s.trapCode c) ∨
    (f.refuses s.wave = none ∧ s.group f k = .next { s with wave := s.wave.endLookout }) ∨
    (s.clears f ∧ s.group f k = k s.wave.group) := by
  unfold State.group
  cases h : f.refuses s.wave with
  | some c => exact .inl ⟨c, rfl, rfl⟩
  | none =>
    by_cases h2 : s.wave.lookoutOf.isSome = true ∧ f.lookout = false
    · exact .inr (.inl ⟨rfl, if_pos h2⟩)
    · refine .inr (.inr ⟨⟨h, fun a => ?_⟩, if_neg h2⟩)
      cases hf : f.lookout with
      | true => rfl
      | false => exact absurd ⟨a, hf⟩ h2

/-- A trap always answers a next state. -/
theorem State.trap_next (s : State) (t : Trap) : s.trap t = .next (s.takeTrap t) := rfl

theorem State.trapCode_next (s : State) (c : Nat) :
    s.trapCode c = .next (s.takeTrap (s.wave.wholeTrap (BitVec.ofNat 32 c) none)) := rfl

/-- An instruction that is done answers a next state. -/
theorem State.done_next (s : State) : s.done = .next ({ s with wave := s.wave.retire } : State).aged := rfl

/-! ## Registers -/

theorem vkey_inj {r l q m : Nat} (hl : l < 64) (hm : m < 64) (h : vkey r l = vkey q m) : r = q ∧ l = m := by
  unfold vkey at h; omega

theorem Wave.setS_s (w : Wave) (r q : Nat) (x : DWord) : (w.setS r x).s q = if q = r then x else w.s q := by
  simp [Wave.setS, Wave.s, Cells.read_write]

theorem Wave.setV_v (w : Wave) (r l q m : Nat) (x : Word) (hl : l < 64) (hm : m < 64) :
    (w.setV r l x).v q m = if q = r ∧ m = l then x else w.v q m := by
  simp only [Wave.setV, Wave.v, Cells.read_write]
  by_cases h : vkey q m = vkey r l
  · obtain ⟨rfl, rfl⟩ := vkey_inj hm hl h; simp
  · have : ¬(q = r ∧ m = l) := by rintro ⟨rfl, rfl⟩; exact h rfl
    simp [h, this]

@[simp] theorem Wave.setS_v (w : Wave) (r q l : Nat) (x : DWord) : (w.setS r x).v q l = w.v q l := rfl
@[simp] theorem Wave.setS_pred (w : Wave) (r p : Nat) (x : DWord) : (w.setS r x).pred p = w.pred p := rfl
@[simp] theorem Wave.setV_s (w : Wave) (r l q : Nat) (x : Word) : (w.setV r l x).s q = w.s q := rfl
@[simp] theorem Wave.setV_pred (w : Wave) (r l p : Nat) (x : Word) : (w.setV r l x).pred p = w.pred p := rfl
@[simp] theorem Wave.setPred_s (w : Wave) (p r : Nat) (m : DWord) : (w.setPred p m).s r = w.s r := rfl
@[simp] theorem Wave.setPred_v (w : Wave) (p r l : Nat) (m : DWord) : (w.setPred p m).v r l = w.v r l := rfl

theorem Wave.setPred_pred (w : Wave) (p q : Nat) (m : DWord) :
    (w.setPred p m).pred q = if q = p then m &&& w.lanes else w.pred q := by
  simp only [Wave.pred, Wave.setPred, Cells.read_write]
  split
  · show (m &&& w.lanes) &&& w.lanes = _
    rw [BitVec.and_assoc, BitVec.and_self]
  · rfl

/-- The active lanes are below 64. -/
theorem Wave.active_lt {w : Wave} {l : Nat} (h : l ∈ w.active) : l < 64 := by
  simp only [Wave.active, lanesOf, bitOf, List.mem_filter] at h
  by_cases h64 : l < 64
  · exact h64
  · rw [BitVec.getLsbD_of_ge _ _ (by omega)] at h; simp at h

/-- Writing lanes of one register: the value in the lanes written, the old value elsewhere. -/
theorem Wave.writeLanes_v (w : Wave) (d : Nat) (f : Nat → Word) (ls : List Nat) (hls : ∀ l ∈ ls, l < 64) (r m : Nat) (hm : m < 64) :
    (w.writeLanes d f ls).v r m = if r = d ∧ m ∈ ls then f m else w.v r m := by
  induction ls generalizing w with
  | nil => simp [Wave.writeLanes]
  | cons l ls ih =>
    have hl : l < 64 := hls l (by simp)
    have h1 := ih (w.setV d l (f l)) (fun x hx => hls x (by simp [hx]))
    simp only [Wave.writeLanes, List.foldl_cons] at h1 ⊢
    rw [h1, Wave.setV_v _ _ _ _ _ _ hl hm]
    by_cases hr : r = d <;> by_cases hml : m = l <;> by_cases hin : m ∈ ls <;> simp_all

/-- Writing lanes changes the vector registers only. -/
theorem Wave.writeLanes_frame (w : Wave) (d : Nat) (f : Nat → Word) (ls : List Nat) :
    w.writeLanes d f ls = { w with arch := { w.arch with vregs := (w.writeLanes d f ls).arch.vregs } } := by
  induction ls generalizing w with
  | nil => rfl
  | cons l ls ih =>
    have h1 := ih (w.setV d l (f l))
    simp only [Wave.writeLanes, List.foldl_cons] at h1 ⊢
    rw [h1]; rfl

theorem Wave.writePairs_frame (w : Wave) (d : Nat) (f : Nat → DWord) (ls : List Nat) :
    w.writePairs d f ls = { w with arch := { w.arch with vregs := (w.writePairs d f ls).arch.vregs } } := by
  induction ls generalizing w with
  | nil => rfl
  | cons l ls ih =>
    have h1 := ih (w.setPair d l (f l))
    simp only [Wave.writePairs, List.foldl_cons] at h1 ⊢
    rw [h1]; rfl

theorem Wave.writePairs_v (w : Wave) (d : Nat) (f : Nat → DWord) (ls : List Nat) (hls : ∀ l ∈ ls, l < 64) (r m : Nat) (hm : m < 64) :
    (w.writePairs d f ls).v r m =
      if r = d ∧ m ∈ ls then (f m).setWidth 32 else if r = d + 1 ∧ m ∈ ls then (f m >>> 32).setWidth 32 else w.v r m := by
  induction ls generalizing w with
  | nil => simp [Wave.writePairs]
  | cons l ls ih =>
    have hl : l < 64 := hls l (by simp)
    have h1 := ih (w.setPair d l (f l)) (fun x hx => hls x (by simp [hx]))
    simp only [Wave.writePairs, List.foldl_cons] at h1 ⊢
    rw [h1, Wave.setPair, Wave.setV_v _ _ _ _ _ _ hl hm, Wave.setV_v _ _ _ _ _ _ hl hm]
    by_cases hr : r = d <;> by_cases hr1 : r = d + 1 <;> by_cases hml : m = l <;> by_cases hin : m ∈ ls <;> simp_all

/-! ## Going on to the next word -/

/-- The scheduling hints change the scheduling fields only (R170). -/
theorem Wave.schedule_frame (w : Wave) :
    w.schedule = { w with prio := w.schedule.prio, noShare := w.schedule.noShare, yieldDue := w.schedule.yieldDue } := by
  unfold Wave.schedule
  split
  · rfl
  · dsimp only
    split <;> split <;> split <;> rfl

theorem Wave.pastWord_frame (w : Wave) :
    w.pastWord = { w with pos := w.pastWord.pos, fellX := w.pastWord.fellX, status := w.pastWord.status } := by
  unfold Wave.pastWord; split <;> rfl

/-- A replay's mask is restored, or nothing happens (R432). -/
theorem Wave.restoreMask_frame (w : Wave) :
    w.restoreMask = { w with arch := { w.arch with exm := w.maskAfter }, replay := none } := by
  unfold Wave.restoreMask Wave.maskAfter
  generalize h : w.replay = r
  cases r with
  | none => cases w; cases h; rfl
  | some m => rfl

/-- What a group that completes leaves of its wave: everything but the mask of a replay, its place in the code and its
scheduling. -/
theorem Wave.retire_frame (w : Wave) :
    w.retire =
      { w with
        arch := { w.arch with exm := w.maskAfter }, pos := w.retire.pos, fellX := w.retire.fellX, status := w.retire.status,
        hints := [], issued := false, fenceAt := none, replay := none, stepDue := w.retire.stepDue, prio := w.retire.prio,
        noShare := w.retire.noShare, yieldDue := w.retire.yieldDue } := by
  have h : w.schedule.maskAfter = w.maskAfter := by unfold Wave.maskAfter; rw [w.schedule_frame]; rfl
  have e : w.retire = { w.schedule.restoreMask.pastWord with hints := [], issued := false, fenceAt := none, stepDue := w.retire.stepDue } := rfl
  rw [e, Wave.pastWord_frame, Wave.restoreMask_frame, h, w.schedule_frame]

/-- Where a wave stands after its word (R148, R152). -/
theorem Wave.retire_wentOn (w : Wave) : w.wentOn w.retire := by
  refine ⟨by rw [w.retire_frame], by rw [w.retire_frame], ?_⟩
  have h1 : w.schedule.restoreMask.pos = w.pos := by rw [Wave.restoreMask_frame, w.schedule_frame]
  have h2 : w.retire.pos = w.schedule.restoreMask.pastWord.pos := rfl
  have h3 : w.retire.status = w.schedule.restoreMask.pastWord.status := rfl
  rw [h2, h3]
  unfold Wave.pastWord Wave.lastWord
  rw [h1]
  split <;> exact ⟨rfl, rfl⟩

/-- The wave after an instruction that changed registers only, and the wave before it. -/
theorem Wave.retire_sameElse (w : Wave) (a : Arch) : w.sameElse ({ w with arch := a } : Wave).retire := by
  unfold Wave.sameElse
  rw [Wave.retire_frame]

theorem Wave.sameElse_env {w v : Wave} (h : w.sameElse v) : v.env = w.env := by
  unfold Wave.sameElse at h
  rw [← h]

theorem State.aged_cases (s : State) :
    s.aged = s ∨ ∃ a n c, s.aged = { s with wave := { s.wave with age := a, yieldDue := false },
                                            core := { s.core with nextAge := n, ageAt := c } } := by
  unfold State.aged; split
  · exact .inr ⟨_, _, _, rfl⟩
  · exact .inl rfl

/-- Where only the wave has changed, every byte reads as before. -/
theorem State.byte_onlyWave {s t : State} (h : s.onlyWave t) (hs : t.wave.slot = s.wave.slot) (p : Place) : t.byte p = s.byte p := by
  have h1 : s.byte p = State.byte { t.agesOf s with wave := s.wave } p := by rw [show { t.agesOf s with wave := s.wave } = s from h]
  have h2 : State.released { t.agesOf s with wave := s.wave } p = t.released p := by
    cases p with
    | mem k => rfl
    | store c o =>
      unfold State.agesOf State.released State.coreAt
      dsimp only
      split <;> rfl
  rw [h1]
  unfold State.byte
  rw [h2, hs]
  rfl

/-- The end of an instruction that gave its wave the registers `a`, the mask untouched: the registers, where the wave goes on,
and that nothing else has changed. -/
theorem State.done_arch (s : State) (a : Arch) (he : a.exm = s.wave.arch.exm) :
    ∃ t, ({ s with wave := { s.wave with arch := a } } : State).done = .next t ∧
      t.wave.arch = { a with exm := s.wave.maskAfter } ∧ s.wave.sameElse t.wave ∧ s.wave.wentOn t.wave ∧ s.onlyWave t ∧
      ∀ p, t.byte p = s.byte p := by
  have hm : ({ s.wave with arch := a } : Wave).maskAfter = s.wave.maskAfter := by
    unfold Wave.maskAfter Wave.lanes; rw [he]
  have ha : ({ s.wave with arch := a } : Wave).retire.arch = { a with exm := s.wave.maskAfter } := by
    rw [Wave.retire_frame, hm]
  have hs := Wave.retire_sameElse s.wave a
  have hw : s.wave.wentOn ({ s.wave with arch := a } : Wave).retire := Wave.retire_wentOn { s.wave with arch := a }
  have hsl : ({ s.wave with arch := a } : Wave).retire.slot = s.wave.slot := by rw [Wave.retire_frame]
  refine ⟨_, rfl, ?_⟩
  rcases State.aged_cases ({ s with wave := ({ s.wave with arch := a } : Wave).retire } : State) with h | ⟨b, n, c, h⟩ <;> rw [h]
  · exact ⟨ha, hs, hw, rfl, State.byte_onlyWave rfl hsl⟩
  · exact ⟨ha, hs, hw, rfl, State.byte_onlyWave rfl hsl⟩

/-- The same for a wave that differs from the one before in registers only. -/
theorem State.done_keeps (s : State) (w : Wave) (ss vs ps : List Nat) (fp : Bool) (hw : w = { s.wave with arch := w.arch })
    (hk : s.wave.keeps w ss vs ps fp) (he : w.arch.exm = s.wave.arch.exm) :
    ∃ t, ({ s with wave := w } : State).done = .next t ∧ s.ran t ss vs ps fp ∧ t.wave.arch = { w.arch with exm := s.wave.maskAfter } ∧
      t.wave.env = w.env := by
  obtain ⟨t, ht, ha, h1, h2, h3, h4⟩ := s.done_arch w.arch he
  obtain ⟨k1, k2, k3, k4, k5⟩ := hk
  have hl : t.wave.lanes = s.wave.lanes := by unfold Wave.lanes; rw [Wave.sameElse_env h1]
  have hl2 : w.lanes = s.wave.lanes := by unfold Wave.lanes; rw [hw]
  refine ⟨t, by rw [← ht, ← hw], ⟨⟨⟨?_, ?_, ?_, ?_, ?_⟩, h1, h3, h4⟩, by rw [ha], h2⟩, ha, ?_⟩
  · rw [ha, k1]
  · intro r hr; rw [← k2 r hr]; unfold Wave.s; rw [ha]
  · intro r l hl hr; rw [← k3 r l hl hr]; unfold Wave.v; rw [ha]
  · intro p hp; rw [← k4 p hp]; unfold Wave.pred; rw [ha, hl, hl2]
  · intro hf; rw [← k5 hf, ha]
  · rw [Wave.sameElse_env h1, hw]

/-! ## The ends of instructions that write no register -/

/-- An instruction completes without changing anything: it has run. -/
theorem State.done_ran (s : State) : ∃ t, s.done = .next t ∧ s.ran t [] [] [] false := by
  obtain ⟨t, h1, h2, -⟩ := s.done_keeps s.wave [] [] [] false rfl
    ⟨rfl, fun _ _ => rfl, fun _ _ _ _ => rfl, fun _ _ => rfl, fun _ => rfl⟩ rfl
  exact ⟨t, h1, h2⟩

/-- A region entry at the end of an instruction changes only the wave's entries (R457). -/
theorem State.enter_frame (s : State) :
    ∃ e, s.enter = { s with wave := { s.wave with entries := s.wave.entries ++ [e], entryDue := false } } := ⟨_, rfl⟩

/-- What completes with `done` completes with `doneEnd` too, and begins a region. -/
theorem State.doneEnd_ranEnd {s u t : State} {ss vs ps : List Nat} (h : s.done = .next t) (hu : u.wave.entries = t.wave.entries)
    (hd : u.wave.entryDue = t.wave.entryDue) (hr : u.ran t ss vs ps false) :
    ∃ v, s.doneEnd = .next v ∧ ranToRegionEnd u v ss vs ps ∧ v.wave.arch = t.wave.arch ∧ v.wave.env = t.wave.env ∧
      ∀ p, v.byte p = t.byte p := by
  obtain ⟨e, he⟩ := t.enter_frame
  have h1 : s.doneEnd = .next t.enter := by
    have : t = ({ s with wave := s.wave.retire } : State).aged := by
      simpa [State.done] using h.symm
    rw [this]; rfl
  refine ⟨t.enter, h1, ?_, by rw [he], by rw [he], by rw [he]; intro p; cases p <;> rfl⟩
  rw [he]
  refine ⟨?_, by simp [hu], by simp [hu], rfl⟩
  simp only [hu, hd]
  exact hr

/-! ## The ends of the arithmetic instructions -/

/-- A scalar-class instruction completes: `sd` holds the result and nothing else has changed (R184). -/
theorem State.scalarResult_ran (s : State) (d : Nat) (x : DWord) :
    ∃ t, s.scalarResult d x = .next t ∧ t.wave.s d = x ∧ s.ran t [d] [] [] false := by
  obtain ⟨t, ht, ha, h1, h2, h3, h4⟩ := s.done_arch (s.wave.setS d x).arch rfl
  have hl : t.wave.lanes = s.wave.lanes := by unfold Wave.lanes; rw [Wave.sameElse_env h1]
  refine ⟨t, ht, ?_, ⟨⟨by rw [ha]; rfl, ?_, ?_, ?_, ?_⟩, h1, h3, h4⟩, by rw [ha], h2⟩
  · unfold Wave.s; rw [ha]; simpa [Wave.s] using Wave.setS_s s.wave d d x
  · intro r hr
    have h := Wave.setS_s s.wave d r x
    rw [if_neg (by simpa using hr)] at h
    unfold Wave.s at *; rw [ha]; exact h
  · intro r l _ _; unfold Wave.v; rw [ha]; rfl
  · intro p _; unfold Wave.pred; rw [ha, hl]; rfl
  · intro _; rw [ha]; rfl

/-- A vector-class instruction completes: the active lanes of `vd` hold their results, the others keep their values, and
nothing else has changed (R184). -/
theorem State.vecLanes_ran (s : State) (d : Nat) (f : Nat → Word) (ls : List Nat) (hls : ∀ l ∈ ls, l < 64) :
    ∃ t, ({ s with wave := s.wave.writeLanes d f ls } : State).done = .next t ∧
      (∀ l, l < 64 → t.wave.v d l = if l ∈ ls then f l else s.wave.v d l) ∧ s.ran t [] [d] [] false := by
  have hf := Wave.writeLanes_frame s.wave d f ls
  obtain ⟨t, ht, ha, h1, h2, h3, h4⟩ := s.done_arch (s.wave.writeLanes d f ls).arch (by rw [hf])
  have hl : t.wave.lanes = s.wave.lanes := by unfold Wave.lanes; rw [Wave.sameElse_env h1]
  have ht' : ({ s with wave := s.wave.writeLanes d f ls } : State).done = .next t := by
    rw [← ht]; congr 2; rw [hf]
  have hv : ∀ r l, l < 64 → t.wave.v r l = if r = d ∧ l ∈ ls then f l else s.wave.v r l := by
    intro r l h
    rw [← Wave.writeLanes_v s.wave d f ls hls r l h]
    unfold Wave.v; rw [ha]
  refine ⟨t, ht', fun l h => by simpa using hv d l h, ⟨⟨?_, ?_, ?_, ?_, ?_⟩, h1, h3, h4⟩, by rw [ha], h2⟩
  · rw [ha, hf]
  · intro r _; unfold Wave.s; rw [ha, hf]
  · intro r l h hr
    rw [hv r l h, if_neg (by simp at hr; simp [hr])]
  · intro p _; unfold Wave.pred; rw [ha, hl, hf]
  · intro _; rw [ha, hf]

/-- The same for 64-bit results in the pair at `d` (R185, R198). -/
theorem State.pairLanes_ran (s : State) (d : Nat) (f : Nat → DWord) (ls : List Nat) (hls : ∀ l ∈ ls, l < 64) :
    ∃ t, ({ s with wave := s.wave.writePairs d f ls } : State).done = .next t ∧
      (∀ l, l < 64 → t.wave.pair d l = if l ∈ ls then f l else s.wave.pair d l) ∧ s.ran t [] [d, d + 1] [] false := by
  have hf := Wave.writePairs_frame s.wave d f ls
  obtain ⟨t, ht, ha, h1, h2, h3, h4⟩ := s.done_arch (s.wave.writePairs d f ls).arch (by rw [hf])
  have hl : t.wave.lanes = s.wave.lanes := by unfold Wave.lanes; rw [Wave.sameElse_env h1]
  have ht' : ({ s with wave := s.wave.writePairs d f ls } : State).done = .next t := by
    rw [← ht]; congr 2; rw [hf]
  have hv : ∀ r l, l < 64 → t.wave.v r l =
      if r = d ∧ l ∈ ls then (f l).setWidth 32 else if r = d + 1 ∧ l ∈ ls then (f l >>> 32).setWidth 32 else s.wave.v r l := by
    intro r l h
    rw [← Wave.writePairs_v s.wave d f ls hls r l h]
    unfold Wave.v; rw [ha]
  refine ⟨t, ht', fun l h => ?_, ⟨⟨?_, ?_, ?_, ?_, ?_⟩, h1, h3, h4⟩, by rw [ha], h2⟩
  · unfold Wave.pair
    rw [hv d l h, hv (d + 1) l h]
    by_cases hin : l ∈ ls
    · simp only [hin, and_true, if_true]
      rw [if_neg (by omega)]
      apply BitVec.eq_of_toNat_eq
      have := (f l).isLt
      simp only [BitVec.toNat_ofNat, BitVec.toNat_setWidth, BitVec.toNat_ushiftRight, Nat.shiftRight_eq_div_pow]
      omega
    · simp [hin]
  · rw [ha, hf]
  · intro r _; unfold Wave.s; rw [ha, hf]
  · intro r l h hr
    simp at hr
    rw [hv r l h, if_neg (by simp [hr]), if_neg (by simp [hr])]
  · intro p _; unfold Wave.pred; rw [ha, hl, hf]
  · intro _; rw [ha, hf]

end Sys2Proof.Machine
end

