-- ==== Sys2Proof/Laws/Flags.lean ====
section
/-!
SUPPORT. The ends of the floating-point instructions, of the compares and of the predicate operations.
-/
namespace Sys2Proof.Machine

theorem getLsbD_laneBit (l k : Nat) : (laneBit l).getLsbD k = decide (k < 64 ∧ k = l) := by
  unfold laneBit
  rw [BitVec.getLsbD_ofNat, Nat.testBit_two_pow, ← Bool.decide_and]
  exact decide_eq_decide.2 (by omega)

theorem maskOf_foldl (ls : List Nat) (m : DWord) (k : Nat) :
    (ls.foldl (fun m l => m ||| laneBit l) m).getLsbD k = (m.getLsbD k || decide (k < 64 ∧ k ∈ ls)) := by
  induction ls generalizing m with
  | nil => simp
  | cons l ls ih =>
    rw [List.foldl_cons, ih, BitVec.getLsbD_or, getLsbD_laneBit, Bool.or_assoc]
    congr 1
    rw [← Bool.decide_or]
    refine decide_eq_decide.2 ?_
    simp only [List.mem_cons]
    constructor
    · rintro (⟨a, b⟩ | ⟨a, b⟩)
      · exact ⟨a, .inl b⟩
      · exact ⟨a, .inr b⟩
    · rintro ⟨a, b | b⟩
      · exact .inl ⟨a, b⟩
      · exact .inr ⟨a, b⟩

/-- The bits of a mask made from lanes. -/
theorem getLsbD_maskOf (ls : List Nat) (k : Nat) : (maskOf ls).getLsbD k = decide (k < 64 ∧ k ∈ ls) := by
  unfold maskOf; rw [maskOf_foldl]; simp

/-- The mask of the wave's lanes, bit by bit. -/
theorem Wave.getLsbD_lanes (w : Wave) (k : Nat) : w.lanes.getLsbD k = decide (k < 64 ∧ k < w.env.wavew) := by
  unfold Wave.lanes lowMask
  rw [BitVec.getLsbD_ofNat, Nat.testBit_two_pow_sub_one, ← Bool.decide_and]

theorem Wave.mem_active {w : Wave} {l : Nat} : l ∈ w.active ↔ l < w.env.wavew ∧ w.exm.getLsbD l = true := by
  unfold Wave.active lanesOf bitOf
  rw [List.mem_filter, List.mem_range]

theorem Wave.active_lanes {w : Wave} {l : Nat} (h : l ∈ w.active) : w.lanes.getLsbD l = true := by
  rw [Wave.getLsbD_lanes]
  exact decide_eq_true ⟨Wave.active_lt h, (Wave.mem_active.1 h).1⟩

/-- Writing bits of a predicate for some of the wave's lanes: those bits, the others kept (R214, R215). -/
theorem Wave.writePred_bit (w : Wave) (d : Nat) (f : Nat → Bool) (ls : List Nat) (hls : ∀ l ∈ ls, w.lanes.getLsbD l = true) (l : Nat) :
    bitOf ((w.writePred d f ls).pred d) l = if l ∈ ls then f l else bitOf (w.pred d) l := by
  unfold Wave.writePred
  rw [Wave.setPred_pred, if_pos rfl]
  unfold bitOf
  rw [BitVec.getLsbD_and, BitVec.getLsbD_or, BitVec.getLsbD_and, BitVec.getLsbD_not, getLsbD_maskOf, getLsbD_maskOf]
  have hp : (w.pred d).getLsbD l = ((w.pred d).getLsbD l && w.lanes.getLsbD l) := by
    unfold Wave.pred
    rw [← BitVec.getLsbD_and, BitVec.and_assoc, BitVec.and_self]
  by_cases h : l ∈ ls
  · have h1 := hls l h
    have h2 : l < 64 := by
      by_cases hc : l < 64
      · exact hc
      · rw [BitVec.getLsbD_of_ge _ _ (by omega)] at h1; cases h1
    simp [h, h1, h2, List.mem_filter]
  · rw [if_neg h, hp]
    cases hw : w.lanes.getLsbD l with
    | false => simp
    | true =>
      have h2 : l < 64 := by
        by_cases hc : l < 64
        · exact hc
        · rw [BitVec.getLsbD_of_ge _ _ (by omega)] at hw; cases hw
      simp [h, h2, List.mem_filter]

theorem Wave.writePred_frame (w : Wave) (d : Nat) (f : Nat → Bool) (ls : List Nat) :
    w.writePred d f ls = { w with arch := { w.arch with preds := (w.writePred d f ls).arch.preds } } := rfl

/-! ## The lanes that complete and the lanes that trap -/

theorem Wave.fpGood_eq_active {w : Wave} {fl : Nat → FpFlags} (h : ∀ l ∈ w.active, fl l &&& fpcTrapEn w.arch.fpc = 0) :
    w.fpGood fl = w.active := by
  unfold Wave.fpGood
  exact List.filter_eq_self.2 fun l hl => decide_eq_true (h l hl)

theorem Wave.fpBad_eq_nil {w : Wave} {fl : Nat → FpFlags} (h : ∀ l ∈ w.active, fl l &&& fpcTrapEn w.arch.fpc = 0) :
    w.fpBad fl = [] := by
  unfold Wave.fpBad
  refine List.filter_eq_nil_iff.2 fun l hl => ?_
  simp [h l hl]

theorem Wave.fpBad_ne_nil {w : Wave} {fl : Nat → FpFlags} (h : ∃ l ∈ w.active, fl l &&& fpcTrapEn w.arch.fpc ≠ 0) :
    (w.fpBad fl).isEmpty = false := by
  obtain ⟨l, hl, hf⟩ := h
  rw [List.isEmpty_eq_false_iff_exists_mem]
  exact ⟨l, List.mem_filter.2 ⟨hl, decide_eq_true hf⟩⟩

theorem Wave.mem_fpGood {w : Wave} {fl : Nat → FpFlags} {l : Nat} :
    l ∈ w.fpGood fl ↔ l ∈ w.active ∧ fl l &&& fpcTrapEn w.arch.fpc = 0 := by
  unfold Wave.fpGood; rw [List.mem_filter, decide_eq_true_eq]

theorem Wave.fpGood_lt {w : Wave} {fl : Nat → FpFlags} {l : Nat} (h : l ∈ w.fpGood fl) : l < 64 :=
  Wave.active_lt (Wave.mem_fpGood.1 h).1

/-- No lane traps: the active lanes write, their flags enter FLAGS, and the instruction completes (R83). -/
theorem State.fpEnd_completes (s : State) (fl : Nat → FpFlags) (put : Wave → List Nat → Wave)
    (h : ∀ l ∈ s.wave.active, fl l &&& fpcTrapEn s.wave.arch.fpc = 0) :
    s.fpEnd fl put = ({ s with wave := (put s.wave s.wave.active).raise (flagsOf fl s.wave.active) } : State).done := by
  unfold State.fpEnd
  simp only [Wave.fpGood_eq_active h, Wave.fpBad_eq_nil h, List.isEmpty_nil, if_true]

/-- Some lanes trap: the others write and their flags enter FLAGS, but not in hypervisor mode; the trap names the trapping lanes (R83,
R447). -/
theorem State.fpEnd_traps (s : State) (fl : Nat → FpFlags) (put : Wave → List Nat → Wave)
    (h : ∃ l ∈ s.wave.active, fl l &&& fpcTrapEn s.wave.arch.fpc ≠ 0) :
    s.fpEnd fl put = .next ((s.partly { s with wave := (put s.wave (s.wave.fpGood fl)).raise (flagsOf fl (s.wave.fpGood fl)) }).takeTrap
      (laneTrap ((s.wave.fpBad fl).map fun l => (l, fpCause (fl l), none)))) := by
  unfold State.fpEnd
  simp only [Wave.fpBad_ne_nil h]
  rfl

end Sys2Proof.Machine
end

