-- ==== Sys2Proof/Laws/Memory.lean ====
section
/-!
SUPPORT. Stores as the quarantine holds them: what a wave reads afterwards, and that nothing else changes.
-/
namespace Sys2Proof.Machine

/-- The last value of an own write at a place is what its wave sees there, the earlier ones show elsewhere. -/
theorem heldByteIn_own {slot : Nat} (p : Place) (before : List Nat) (r : Option Byte) (hs : List Held) (h : Held) (he : h.slot = slot) :
    heldByteIn slot p before r (hs ++ [h]) = (h.byteAt p).or (heldByteIn slot p before r hs) := by
  induction hs generalizing before r with
  | nil => simp [heldByteIn, Held.seenBy, he]
  | cons x xs ih => exact ih _ _

/-- A byte of a held write of one byte. -/
theorem Held.byteAt_one (slot at_ policy : Nat) (rel : Bool) (p q : Place) (b : Byte) :
    ({ slot := slot, at_ := at_, kind := .write p [b], policy := policy, rel := rel } : Held).byteAt q = if p = q then some b else none := by
  cases p <;> cases q <;> unfold Held.byteAt <;> dsimp only
  · rename_i j k
    by_cases h : j = k
    · subst h; simp
    · rw [if_neg (by simp only [List.length_cons, List.length_nil]; omega), if_neg (by simpa using h)]
  · simp
  · simp
  · rename_i c j d k
    by_cases hc : c = d
    · subst hc
      by_cases h : j = k
      · subst h; simp
      · rw [if_neg (by simp only [List.length_cons, List.length_nil]; omega), if_neg (by simpa using h)]
    · rw [if_neg (fun x => hc x.1), if_neg (by simp [hc])]

/-- A core with other held items holds the same bytes. -/
theorem State.released_held (s : State) (w : Wave) (hs : List Held) (q : Place) :
    State.released { s with wave := w, core := { s.core with held := hs } } q = s.released q := by
  cases q with
  | mem k => rfl
  | store c o =>
    unfold State.released State.coreAt
    dsimp only
    split <;> rfl

/-- A store of one byte as its wave reads it: the byte at its place, every other byte as before (R456). -/
theorem State.byte_hold_write (s : State) (policy : Nat) (rel : Bool) (p q : Place) (b : Byte) :
    (s.holdAs policy rel (.write p [b])).byte q = if p = q then b else s.byte q := by
  unfold State.byte State.holdAs Core.heldByte
  rw [State.released_held]
  dsimp only [Wave.settleLoads]
  rw [heldByteIn_own (slot := s.wave.slot) q [] none s.core.held
    { slot := s.wave.slot, at_ := s.now, kind := .write p [b], policy := policy, rel := rel } rfl, Held.byteAt_one]
  split <;> simp

/-- A store as its wave reads it (R294, R456). -/
theorem State.byte_storeAs (policy : Nat) (rel : Bool) (s : State) (ps : List Place) (bs : List Byte) (q : Place) :
    (State.storeAs policy rel s ps bs).byte q = overlaid (ps.zip bs) s.byte q := by
  induction ps generalizing s bs with
  | nil => cases bs <;> rfl
  | cons p ps ih =>
    cases bs with
    | nil => rfl
    | cons b bs =>
      show (State.storeAs policy rel (s.holdAs policy rel (.write p [b])) ps bs).byte q = _
      rw [ih]
      show (ps.zip bs).foldl _ ((s.holdAs policy rel (.write p [b])).byte q) = _
      rw [State.byte_hold_write]
      rfl

theorem State.byte_store (s : State) (ps : List Place) (bs : List Byte) (q : Place) :
    (s.store ps bs).byte q = overlaid (ps.zip bs) s.byte q := s.byte_storeAs 0 false ps bs q

theorem Wave.settleLoads_twice (w : Wave) : w.settleLoads.settleLoads = w.settleLoads := by
  simp [Wave.settleLoads, Function.comp_def]

/-- A state in which the wave's loads are settled is calm. -/
theorem State.calm_twice (s : State) : s.calm.calm = s.calm := by
  unfold State.calm
  dsimp only
  rw [Wave.settleLoads_twice]

/-- A store changes nothing but what its core holds, and settles what the wave's loads have returned. -/
theorem State.storeAs_frame (policy : Nat) (rel : Bool) (s : State) (ps : List Place) (bs : List Byte) :
    (State.storeAs policy rel s ps bs).calm =
      { s.calm with core := { s.core with held := (State.storeAs policy rel s ps bs).core.held } } := by
  induction ps generalizing s bs with
  | nil => cases bs <;> rfl
  | cons p ps ih =>
    cases bs with
    | nil => rfl
    | cons b bs =>
      show (State.storeAs policy rel (s.holdAs policy rel (.write p [b])) ps bs).calm = _
      rw [ih]
      have h : (s.holdAs policy rel (.write p [b])).calm =
          { s.calm with core := (s.holdAs policy rel (.write p [b])).core } := by
        unfold State.calm State.holdAs
        dsimp only
        rw [Wave.settleLoads_twice]
      rw [h]
      rfl

/-- Bytes written one after another: those of the first list, then those of the second. -/
theorem overlaid_append (xs ys : List (Place × Byte)) (f : Place → Byte) (p : Place) :
    overlaid (xs ++ ys) f p = overlaid ys (overlaid xs f) p := by
  unfold overlaid
  rw [List.foldl_append]

/-- Where the wave goes on behind its stores, its bytes read as when it stored them. -/
theorem State.byte_aged (s : State) (p : Place) : s.aged.byte p = s.byte p := by
  rcases s.aged_cases with h | ⟨a, n, c, h⟩ <;> rw [h]
  exact State.byte_onlyWave (s := s) (t := { s with wave := { s.wave with age := a, yieldDue := false },
                                                    core := { s.core with nextAge := n, ageAt := c } }) rfl rfl p

/-- An instruction that has stored, and changed registers to `a`, completes. -/
theorem State.stored_done (s u : State) (a : Arch) (hu : u = { s with core := { s.core with held := u.core.held } })
    (he : a.exm = s.wave.arch.exm) :
    ∃ t, ({ u with wave := { s.wave with arch := a } } : State).done = .next t ∧ s.onlyStores t ∧ s.wave.sameElse t.wave ∧
      s.wave.wentOn t.wave ∧ t.wave.arch = { a with exm := s.wave.maskAfter } ∧ ∀ p, t.byte p = u.byte p := by
  have hw : u.wave = s.wave := by rw [hu]
  obtain ⟨t, h1, h2, h3, h4, h5, h6⟩ := u.done_arch a (by rw [hw]; exact he)
  rw [hw] at h1 h2 h3 h4
  refine ⟨t, h1, ?_, h3, h4, h2, h6⟩
  unfold State.onlyStores
  unfold State.onlyWave State.agesOf at h5
  unfold State.agesOf
  rw [hw] at h5
  have hc : u.core = { s.core with held := u.core.held } := by rw [hu]
  have h7 : ({ t.core with nextAge := s.core.nextAge, ageAt := s.core.ageAt, held := s.core.held } : Core) = s.core := by
    have h9 := congrArg (fun x : State => { x.core with held := s.core.held }) h5
    dsimp only at h9
    rw [hc] at h9
    exact h9
  have h8 : ({ t with wave := s.wave, core := s.core } : State) = s := by
    have h9 := congrArg (fun x : State => { x with core := s.core }) h5
    dsimp only at h9
    rw [h9, hu]
  dsimp only
  rw [h7]
  exact h8

end Sys2Proof.Machine
end

