-- ==== Sys2Proof/Tests/Slice0.lean ====
section
/-!
SUPPORT. The smoke test of the operand checks, and small tests of one step each, with results taken from the spec's tables.
-/
namespace Sys2Proof.Machine

set_option Elab.async false

/-! ## An ill-formed term for each check (R160, R163 to R179, R422) -/

theorem test_ill_predicate : (Instr.pand 12 0 0).check = some .predicate := by decide +kernel
theorem test_ill_odd_pair : (Instr.vaddI64 1 2 4).check = some .oddPair := by decide +kernel
theorem test_ill_quad : (Instr.vld 2 4 0 4 0).check = some .quad := by decide +kernel
theorem test_ill_size : (Instr.vst 0 4 0 5 0).check = some .size := by decide +kernel
theorem test_ill_privileged : (Instr.prd 0 0x0E).check = some .privileged := by decide +kernel
theorem test_ill_count : (Instr.hsrc 0 1 0 0).check = some .count := by decide +kernel
theorem test_ill_range : (Instr.hlive 127 2).check = some .range := by decide +kernel
theorem test_ill_format : (Instr.vcvtWide 0 0 7 0 0 0).check = some .format := by decide +kernel
theorem test_ill_half : (Instr.vcvtWide 0 0 0 1 0 0).check = some .half := by decide +kernel
theorem test_ill_selector : (Instr.srd 0 8).check = some .selector := by decide +kernel
theorem test_ill_zero_mask : (Instr.slda 0 0 0 0 0).check = some .zeroMask := by decide +kernel
theorem test_ill_operation : (Instr.vatom 0 0 0 0 13).check = some .operation := by decide +kernel
theorem test_ill_tile : (Instr.mmax 0 2 0 0 0 0).check = some .tile := by decide +kernel
theorem test_ill_does_not_decode : (Instr.pand 12 0 0).WellFormed = false ∧ decodeTableWord 32 0x5C600010 = none := by decide +kernel

/-! ## A small wave -/

/-- Registers that the small wave holds: scalars and lanes of vectors by key (64 r + lane). -/
def smallArch (ss : Cells 64) (vs : Cells 32) : Arch := { Arch.start 0xFFFF 0x4000000000000000 [] with sregs := ss, vregs := vs }

/-- A wave of sixteen lanes at the first of two words of its clause, in a VI that does not exist. -/
def small (ss : Cells 64) (vs : Cells 32) : State :=
  { State.reset with wave := { State.reset.wave with
      status := .inClause, arch := smallArch ss vs,
      pos := { Position.at 0x4000000000000000 with header := 0x000FF010, words := [0x04000000, 0x04000000] } } }

/-- A meaning answers a next state of which `p` holds. -/
def gives (o : Out) (p : State → Bool) : Bool :=
  match o with
  | .next t => p t
  | _ => false

/-! ## Results -/

/-- R190: sums are taken modulo 2^64. -/
theorem test_sadd_wraps : gives (execSadd 1 2 3 (small [(2, 0xFFFFFFFFFFFFFFFF), (3, 2)] [])) (fun t => t.wave.s 1 == 1) = true := by decide +kernel
/-- R190: the high half of (−1) × (−1). -/
theorem test_smulh_signed : gives (execSmulh 1 2 2 (small [(2, 0xFFFFFFFFFFFFFFFF)] [])) (fun t => t.wave.s 1 == 0) = true := by decide +kernel
theorem test_smulhu : gives (execSmulhu 1 2 2 (small [(2, 0xFFFFFFFFFFFFFFFF)] [])) (fun t => t.wave.s 1 == 0xFFFFFFFFFFFFFFFE) = true := by decide +kernel
/-- R190: a shift takes its amount modulo 64, and copies bit 63. -/
theorem test_ssra_amount : gives (execSsra 1 2 3 (small [(2, 0x8000000000000000), (3, 0x41)] [])) (fun t => t.wave.s 1 == 0xC000000000000000) = true := by decide +kernel
/-- R185: a destination may name a source. -/
theorem test_ssub_in_place : gives (execSsub 2 2 2 (small [(2, 7)] [])) (fun t => t.wave.s 2 == 0) = true := by decide +kernel
/-- R184: an inactive lane keeps its value. -/
theorem test_vadd_inactive_lane :
    gives (execVaddI32 1 2 2 (let s := small [] [(64, 9), (128, 5), (129, 6)]
      { s with wave := { s.wave with arch := { s.wave.arch with exm := 2 } } })) (fun t => t.wave.v 1 0 == 9 && t.wave.v 1 1 == 12) = true := by
  decide +kernel
/-- R194: VSHR.I32 fills with copies of the sign. -/
theorem test_vshr_sign : gives (execVshrI32 1 2 3 (small [] [(128, 0x80000000), (192, 4)])) (fun t => t.wave.v 1 0 == 0xF8000000) = true := by decide +kernel
/-- R198: the low and the high word of a product of 32-bit lanes. -/
theorem test_vmulw_pair : gives (execVmulwN32 4 2 3 (small [] [(128, 0xFFFFFFFF), (192, 0xFFFFFFFF)]))
    (fun t => t.wave.v 4 0 == 1 && t.wave.v 5 0 == 0xFFFFFFFE) = true := by decide +kernel
/-- R200, R78: 1 + 2^−24 ties to even. -/
theorem test_vadd_f32_tie : gives (execVaddF32 1 2 3 (small [] [(128, 0x3F800000), (192, 0x33800000)]))
    (fun t => t.wave.v 1 0 == 0x3F800000) = true := by decide +kernel
/-- R205: ∞ × 0 raises NV and gives the canonical NaN. -/
theorem test_vfma_invalid : gives (execVfmaF32 1 2 3 (small [] [(128, 0x7F800000)])) (fun t => t.wave.v 1 0 == 0x7FC00000 && t.wave.v 1 1 == 0) = true := by decide +kernel
/-- R214: a comparison with a NaN is false, and .NE true. -/
theorem test_vcmp_nan : gives (execVcmpLtF32 1 2 3 (small [] [(128, 0x7FC00000)])) (fun t => (t.wave.pred 1).getLsbD 0 == false) = true ∧
    gives (execVcmpNeF32 1 2 3 (small [] [(128, 0x7FC00000)])) (fun t => (t.wave.pred 1).getLsbD 0) = true := by decide +kernel
/-- R216: VPRM.XOR reads lane l xor the amount. -/
theorem test_vprm_xor : gives (execVprmXor 1 2 3 (small [(3, 1)] [(128, 5), (129, 6)])) (fun t => t.wave.v 1 0 == 6 && t.wave.v 1 1 == 5) = true := by decide +kernel
/-- R217: the identity of a maximum with no active lane. -/
theorem test_vredmax_empty : gives (execVredmaxI32 1 2 (let s := small [] []
      { s with wave := { s.wave with arch := { s.wave.arch with exm := 0 } } })) (fun t => t.wave.s 1 == 0xFFFFFFFF80000000) = true := by decide +kernel
/-- R231: MSPLIT saves the mask and keeps the lanes of the predicate. -/
theorem test_msplit : gives (execMsplit 1 2 (let s := small [] []
      { s with wave := { s.wave with arch := { s.wave.arch with preds := [(2, 0xF0)] } } }))
    (fun t => t.wave.s 1 == 0xFFFF && t.wave.arch.exm == 0xF0) = true := by decide +kernel
/-- R426, R434: SYSC in user mode enters the supervisor with the service number in the cause of every active lane. -/
theorem test_sysc : gives (execSysc 5 (let s := small [] []
      { s with wave := { s.wave with env := { s.wave.env with sections := [{ kind := 2, seg := 0, off := 0, size := 65536 }] } } }))
    (fun t => t.wave.arch.mode == .supervisor || t.wave.arch.mode == .hypervisor) = true := by decide +kernel
/-- R406: a receive entry with a send field set is stored without its valid bit. -/
theorem test_chent_bad : chStored [] 3 0xC010010000000000 = 0x4010010000000000 := by decide +kernel
/-- R414: between stops that lie opposite each other a message goes clockwise. -/
theorem test_ring_tie : ringCcw 0 1 5 = false ∧ ringCcw 0 1 6 = true := by decide +kernel

end Sys2Proof.Machine
end

