-- ==== Sys2Proof/Tests/Words.lean ====
section
/-!
SUPPORT. A word of every row that has one, written out from the row's bits in the spec's encoding (the fixed bits of the opcode
table, its operand fields at values of our own), and the instruction that it stands for.
-/
namespace Sys2Proof

set_option Elab.async false

/-- NOP to PRD. -/
noncomputable def wordsAndInstrs0 : List (Word × Instr) :=
  [(0x04000000, .nop), (0x04200000, .yield), (0x04400000, .exit), (0x08000003, .br 3), (0x08200003, .call 3),
   (0x08420000, .ret 8), (0x08620000, .jmpr 8), (0x0C600005, .brsNz 3 5), (0x0C680005, .brsZ 3 5),
   (0x10600005, .brpAny 3 5), (0x10680005, .brpAll 3 5), (0x10700005, .brpNone 3 5), (0x14403000, .msplit 8 3),
   (0x14008061, .melse 8 3), (0x14008002, .mjoin 8), (0x14008203, .mpush 8 16), (0x14400004, .mpop 8),
   (0x14400005, .exmrd 8), (0x14008006, .exmwr 8), (0x14000067, .bexz 3), (0x18000003, .sysc 3), (0x18200003, .hvc 3),
   (0x18400001, .rett 1), (0x18600003, .bkpt 3), (0x18820005, .prd 8 5)]

theorem test_words_0 : wordsAndInstrs0.all (fun x => match decodeWord x.1 with | .ok i => decide (i = x.2) | .error _ => false) = true := by
  decide +kernel

theorem test_encode_0 : wordsAndInstrs0.all (fun x => decide (encode x.2 = some x.1)) = true := by
  decide +kernel

/-- PWR to SCTZ. -/
noncomputable def wordsAndInstrs1 : List (Word × Instr) :=
  [(0x18A20005, .pwr 8 5), (0x18C20000, .wdog 8), (0x1C240000, .hsrc 1 16 0 0), (0x1DBDC680, .hmod 1 1 1 1 1 1 1 17 1 1),
   (0x1E100005, .hlive 8 5), (0x1FBC0000, .hsch 1 1 1 1 1), (0x20000003, .himm 3), (0x24410300, .sadd 8 16 24),
   (0x24410301, .ssub 8 16 24), (0x24410302, .smul 8 16 24), (0x24410303, .smulh 8 16 24), (0x24410304, .smulhu 8 16 24),
   (0x24410305, .sand 8 16 24), (0x24410306, .sor 8 16 24), (0x24410307, .sxor 8 16 24), (0x24410308, .sshl 8 16 24),
   (0x24410309, .sshr 8 16 24), (0x2441030A, .ssra 8 16 24), (0x2441030B, .smin 8 16 24), (0x2441030C, .smax 8 16 24),
   (0x2441030D, .sminu 8 16 24), (0x2441030E, .smaxu 8 16 24), (0x2441000F, .smov 8 16), (0x24410010, .sclz 8 16),
   (0x24410011, .sctz 8 16)]

theorem test_words_1 : wordsAndInstrs1.all (fun x => match decodeWord x.1 with | .ok i => decide (i = x.2) | .error _ => false) = true := by
  decide +kernel

theorem test_encode_1 : wordsAndInstrs1.all (fun x => decide (encode x.2 = some x.1)) = true := by
  decide +kernel

/-- SPOPC to VMULH_I32. -/
noncomputable def wordsAndInstrs2 : List (Word × Instr) :=
  [(0x24410012, .spopc 8 16), (0x28410007, .saddi 8 16 7), (0x28410207, .sandi 8 16 7), (0x28410407, .sori 8 16 7),
   (0x28410607, .sxori 8 16 7), (0x28410807, .sshli 8 16 7), (0x28410A07, .sshri 8 16 7), (0x28410C07, .ssrai 8 16 7),
   (0x28410E07, .smovi 8 16 7), (0x2C410300, .scmpEq 8 16 24), (0x2C410301, .scmpNe 8 16 24),
   (0x2C410302, .scmpLt 8 16 24), (0x2C410303, .scmpLe 8 16 24), (0x2C410304, .scmpLtu 8 16 24),
   (0x2C410305, .scmpLeu 8 16 24), (0x2C410306, .ssel 8 16 24), (0x2C410307, .sbfx 8 16 24),
   (0x2C410308, .sbfxu 8 16 24), (0x2C410309, .sbfi 8 16 24), (0x30410300, .vaddI32 8 16 24),
   (0x30410301, .vaddN32 8 16 24), (0x30410302, .vsubI32 8 16 24), (0x30410303, .vsubN32 8 16 24),
   (0x30410304, .vmulI32 8 16 24), (0x30410305, .vmulhI32 8 16 24)]

theorem test_words_2 : wordsAndInstrs2.all (fun x => match decodeWord x.1 with | .ok i => decide (i = x.2) | .error _ => false) = true := by
  decide +kernel

theorem test_encode_2 : wordsAndInstrs2.all (fun x => decide (encode x.2 = some x.1)) = true := by
  decide +kernel

/-- VMULH_N32 to VSRAI. -/
noncomputable def wordsAndInstrs3 : List (Word × Instr) :=
  [(0x30410306, .vmulhN32 8 16 24), (0x30410307, .vmadI32 8 16 24), (0x30410308, .vandB32 8 16 24),
   (0x30410309, .vorB32 8 16 24), (0x3041030A, .vxorB32 8 16 24), (0x3041030B, .vshlB32 8 16 24),
   (0x3041030C, .vshrN32 8 16 24), (0x3041030D, .vshrI32 8 16 24), (0x3041030E, .vminI32 8 16 24),
   (0x3041030F, .vminN32 8 16 24), (0x30410310, .vmaxI32 8 16 24), (0x30410311, .vmaxN32 8 16 24),
   (0x30410012, .vclzB32 8 16), (0x30410013, .vpopcB32 8 16), (0x30410314, .vselB32 8 16 24),
   (0x30410315, .vdot4I32 8 16 24), (0x30410316, .vdot4N32 8 16 24), (0x30410017, .vabsI32 8 16),
   (0x34410007, .vaddi 8 16 7), (0x34410207, .vandi 8 16 7), (0x34410407, .vori 8 16 7), (0x34410607, .vxori 8 16 7),
   (0x34410807, .vshli 8 16 7), (0x34410A07, .vshri 8 16 7), (0x34410C07, .vsrai 8 16 7)]

theorem test_words_3 : wordsAndInstrs3.all (fun x => match decodeWord x.1 with | .ok i => decide (i = x.2) | .error _ => false) = true := by
  decide +kernel

theorem test_encode_3 : wordsAndInstrs3.all (fun x => decide (encode x.2 = some x.1)) = true := by
  decide +kernel

/-- VMOVI to VSHLS_B32. -/
noncomputable def wordsAndInstrs4 : List (Word × Instr) :=
  [(0x34410E07, .vmovi 8 16 7), (0x38410300, .vaddI64 8 16 24), (0x38410301, .vaddN64 8 16 24),
   (0x38410302, .vsubI64 8 16 24), (0x38410303, .vsubN64 8 16 24), (0x38410304, .vmulI64 8 16 24),
   (0x38410305, .vandN64 8 16 24), (0x38410306, .vorN64 8 16 24), (0x38410307, .vxorN64 8 16 24),
   (0x38410308, .vshlN64 8 16 24), (0x38410309, .vshrN64 8 16 24), (0x3841030A, .vshrI64 8 16 24),
   (0x3841030B, .vminI64 8 16 24), (0x3841030C, .vminN64 8 16 24), (0x3841030D, .vmaxI64 8 16 24),
   (0x3841030E, .vmaxN64 8 16 24), (0x3841030F, .vmulwI32 8 16 24), (0x38410310, .vmulwN32 8 16 24),
   (0x3C410300, .vaddsI32 8 16 24), (0x3C410301, .vsubsI32 8 16 24), (0x3C410302, .vmulsI32 8 16 24),
   (0x3C410303, .vandsB32 8 16 24), (0x3C410304, .vorsB32 8 16 24), (0x3C410305, .vxorsB32 8 16 24),
   (0x3C410306, .vshlsB32 8 16 24)]

theorem test_words_4 : wordsAndInstrs4.all (fun x => match decodeWord x.1 with | .ok i => decide (i = x.2) | .error _ => false) = true := by
  decide +kernel

theorem test_encode_4 : wordsAndInstrs4.all (fun x => decide (encode x.2 = some x.1)) = true := by
  decide +kernel

/-- VSHRS_N32 to VFNMA_F32. -/
noncomputable def wordsAndInstrs5 : List (Word × Instr) :=
  [(0x3C410307, .vshrsN32 8 16 24), (0x3C410308, .vshrsI32 8 16 24), (0x3C410309, .vminsI32 8 16 24),
   (0x3C41030A, .vmaxsI32 8 16 24), (0x3C41030B, .vaddsI64 8 16 24), (0x40410300, .vaddF32 8 16 24),
   (0x40410301, .vsubF32 8 16 24), (0x40410302, .vmulF32 8 16 24), (0x40410303, .vminF32 8 16 24),
   (0x40410304, .vmaxF32 8 16 24), (0x40410005, .vabsF32 8 16), (0x40410006, .vnegF32 8 16),
   (0x40410307, .vcpysF32 8 16 24), (0x40410008, .vrintF32 8 16), (0x40410009, .vclassF32 8 16),
   (0x44410310, .vaddF16Bf16 8 16 24 1), (0x44410311, .vsubF16Bf16 8 16 24 1), (0x44410312, .vmulF16Bf16 8 16 24 1),
   (0x44410313, .vminF16Bf16 8 16 24 1), (0x44410314, .vmaxF16Bf16 8 16 24 1), (0x44410015, .vabsF16Bf16 8 16 1),
   (0x44410016, .vnegF16Bf16 8 16 1), (0x48410300, .vfmaF32 8 16 24), (0x48410301, .vfmsF32 8 16 24),
   (0x48410302, .vfnmaF32 8 16 24)]

theorem test_words_5 : wordsAndInstrs5.all (fun x => match decodeWord x.1 with | .ok i => decide (i = x.2) | .error _ => false) = true := by
  decide +kernel

theorem test_encode_5 : wordsAndInstrs5.all (fun x => decide (encode x.2 = some x.1)) = true := by
  decide +kernel

/-- VFNMS_F32 to VCMP_EQ_I32. -/
noncomputable def wordsAndInstrs6 : List (Word × Instr) :=
  [(0x48410303, .vfnmsF32 8 16 24), (0x4C410310, .vfmaF16Bf16 8 16 24 1), (0x4C410311, .vfmsF16Bf16 8 16 24 1),
   (0x4C410312, .vfnmaF16Bf16 8 16 24 1), (0x4C410313, .vfnmsF16Bf16 8 16 24 1), (0x4C410314, .vdot2 8 16 24 1),
   (0x50410000, .vrcpF32 8 16), (0x50410001, .vrsqrtF32 8 16), (0x50410002, .vsqrtF32 8 16),
   (0x50410003, .vexp2F32 8 16), (0x50410004, .vlog2F32 8 16), (0x50410005, .vsinF32 8 16), (0x50410006, .vcosF32 8 16),
   (0x50410007, .vtanhF32 8 16), (0x50410308, .vdivF32 8 16 24), (0x54410300, .vaddsF32 8 16 24),
   (0x54410301, .vsubsF32 8 16 24), (0x54410302, .vmulsF32 8 16 24), (0x54410303, .vfmasF32 8 16 24),
   (0x54410304, .vminsF32 8 16 24), (0x54410305, .vmaxsF32 8 16 24), (0x58410381, .vcvtWide 8 16 1 1 1 1),
   (0x5841048B, .vcvtNarrowToF32 8 16 36 3), (0x58410493, .vcvtF32ToNarrow 8 16 36 3), (0x5C410300, .vcmpEqI32 8 16 24)]

theorem test_words_6 : wordsAndInstrs6.all (fun x => match decodeWord x.1 with | .ok i => decide (i = x.2) | .error _ => false) = true := by
  decide +kernel

theorem test_encode_6 : wordsAndInstrs6.all (fun x => decide (encode x.2 = some x.1)) = true := by
  decide +kernel

/-- VCMP_NE_I32 to VREDMAX_I32. -/
noncomputable def wordsAndInstrs7 : List (Word × Instr) :=
  [(0x5C410301, .vcmpNeI32 8 16 24), (0x5C410302, .vcmpLtI32 8 16 24), (0x5C410303, .vcmpLeI32 8 16 24),
   (0x5C410304, .vcmpLtN32 8 16 24), (0x5C410305, .vcmpLeN32 8 16 24), (0x5C410306, .vcmpEqF32 8 16 24),
   (0x5C410307, .vcmpNeF32 8 16 24), (0x5C410308, .vcmpLtF32 8 16 24), (0x5C410309, .vcmpLeF32 8 16 24),
   (0x5C41030A, .vcmpUnF32 8 16 24), (0x5C082070, .pand 1 2 3), (0x5C082071, .por 1 2 3), (0x5C082072, .pxor 1 2 3),
   (0x5C082073, .pandn 1 2 3), (0x5C082014, .pnot 1 2), (0x60410300, .vshfl 8 16 24), (0x60410301, .vprmXor 8 16 24),
   (0x60410302, .vprmRot 8 16 24), (0x60410303, .vbcst 8 16 24), (0x60410004, .vredF32 8 16),
   (0x60410005, .vredI32 8 16), (0x60410006, .vredminF32 8 16), (0x60410007, .vredmaxF32 8 16),
   (0x60410008, .vredminI32 8 16), (0x60410009, .vredmaxI32 8 16)]

theorem test_words_7 : wordsAndInstrs7.all (fun x => match decodeWord x.1 with | .ok i => decide (i = x.2) | .error _ => false) = true := by
  decide +kernel

theorem test_encode_7 : wordsAndInstrs7.all (fun x => decide (encode x.2 = some x.1)) = true := by
  decide +kernel

/-- VREDAND_B32 to SLDA. -/
noncomputable def wordsAndInstrs8 : List (Word × Instr) :=
  [(0x6041000A, .vredandB32 8 16), (0x6041000B, .vredorB32 8 16), (0x6041000C, .vscanF32 8 16),
   (0x6041000D, .vscanI32 8 16), (0x6041000E, .vscanxF32 8 16), (0x6041000F, .vscanxI32 8 16),
   (0x60410010, .vmatch 8 16), (0x64405000, .srd 8 5), (0x64400001, .fpcrd 8), (0x64008002, .fpcwr 8),
   (0x64410003, .vmov 8 16), (0x64410004, .vmovs 8 16), (0x64410305, .smovv 8 16 24), (0x64410306, .vins 8 16 24),
   (0x64403007, .p2s 8 3), (0x64188008, .s2p 3 8), (0x68410305, .vld 8 16 24 1 1), (0x6C410305, .vst 8 16 24 1 1),
   (0x70410209, .vldc 8 16 1 9), (0x70410A09, .vstc 8 16 1 9), (0x74410209, .sld 8 16 1 9), (0x74410A09, .sst 8 16 1 9),
   (0x78410304, .lld 8 16 24 1), (0x78410305, .lst 8 16 24 1), (0x7C41038D, .slda 8 16 7 1 1)]

theorem test_words_8 : wordsAndInstrs8.all (fun x => match decodeWord x.1 with | .ok i => decide (i = x.2) | .error _ => false) = true := by
  decide +kernel

theorem test_encode_8 : wordsAndInstrs8.all (fun x => decide (encode x.2 = some x.1)) = true := by
  decide +kernel

/-- SSTR to AMSG. -/
noncomputable def wordsAndInstrs9 : List (Word × Instr) :=
  [(0x7C4103AD, .sstr 8 16 7 1 1), (0x7C4103CD, .vlda 8 16 7 1 1), (0x7C4103ED, .vstr 8 16 7 1 1),
   (0x80410315, .vatom 8 16 24 1 5), (0x84410315, .satom 8 16 24 1 5), (0x88410300, .xcopy 8 16 24),
   (0x88410301, .xcopyt 8 16 24), (0x88410302, .xgath 8 16 24), (0x88008203, .pft 8 16), (0x88008204, .look 8 16),
   (0x8C080005, .waitc 1 5), (0x8C200400, .tagwany 8), (0x8C400400, .tagwall 8), (0x8C620800, .tagffr 8 16),
   (0x8C800400, .tagclr 8), (0x8CA20000, .tagrd 8), (0x90000003, .fence 3), (0x90200000, .fenceTc), (0x90400003, .bar 3),
   (0x90600003, .rbar 3), (0x90800000, .mclose), (0x94008047, .send 8 1 7), (0x94400247, .recv 8 1 7),
   (0x94400405, .chpoll 8 5), (0x94410607, .amsg 8 16 7)]

theorem test_words_9 : wordsAndInstrs9.all (fun x => match decodeWord x.1 with | .ok i => decide (i = x.2) | .error _ => false) = true := by
  decide +kernel

theorem test_encode_9 : wordsAndInstrs9.all (fun x => decide (encode x.2 = some x.1)) = true := by
  decide +kernel

/-- LAUNCH to FERRY. -/
noncomputable def wordsAndInstrs10 : List (Word × Instr) :=
  [(0x98410300, .launch 8 16 24), (0x98410001, .lwait 8 16), (0x98410302, .spawn 8 16 24), (0x98410303, .tdef 8 16 24),
   (0x9CD4C180, .mma 3 5 24 1 1), (0x9CD4C380, .mmas 3 5 24 1 1), (0x9CD8C5A0, .mmax 3 6 24 1 1 4),
   (0xA0C08000, .tcfg 3 16), (0xA0C08100, .tld 3 16), (0xA0C08200, .tst 3 16), (0xA0C00300, .tzero 3),
   (0xA0C00440, .txfer 3 1), (0xA0C00540, .trecv 3 1), (0xA0004600, .amcpOut 8), (0xA0004680, .amcpIn 8),
   (0xA0004700, .amzero 8), (0xA4410300, .xratom 8 16 24), (0xA4008201, .xcoll 8 16), (0xA8410000, .segq 8 16),
   (0xA8008001, .ferry 8)]

theorem test_words_10 : wordsAndInstrs10.all (fun x => match decodeWord x.1 with | .ok i => decide (i = x.2) | .error _ => false) = true := by
  decide +kernel

theorem test_encode_10 : wordsAndInstrs10.all (fun x => decide (encode x.2 = some x.1)) = true := by
  decide +kernel

/-- The words of a keeper's own instructions (R288). -/
noncomputable def keeperWordsAndInstrs : List (Nat × Instr) :=
  [(0x0032838B, .ksel 3 5 7), (0x0032938B, .klw 3 5 7), (0x0032A38B, .ksw 3 5 7), (0x0032B38B, .kfadd 3 5 7), (0x0032C38B, .kend 3 5 7)]

theorem test_words_keeper : keeperWordsAndInstrs.all (fun x => decide (decodeKeeper x.1 = some x.2)) = true := by
  decide +kernel

end Sys2Proof
end

