-- ==== Sys2Proof/Tests/Setting.lean ====
section
/-!
SUPPORT. A small machine with one virtual interface, in which the hypotheses of the statements are met: two pages of memory, some
local store, a section of code, a supervisor's section, a wave of sixteen lanes on core 0.
-/
namespace Sys2Proof.Machine

/-- A descriptor that passes the checks of R29. -/
def someDesc : ViDesc :=
  { asidBase := 0, asidCnt := 16, qcount := 4, prioMax := 3, pinWin := 1, pinQuota := 16, tenBase := 0, tenSize := 2 ^ 30, ctlBase := 0,
    ctlSize := 2 ^ 30, capBase := 0x4000000000030000, svBudget := 0 }

/-- VI 0, active, with a page of control memory that may only be read and fetched, one that may be written, and a page of tensor
memory. -/
def someVi : Vi :=
  { Vi.built 0 0 someDesc with
    phase := .active, coreSet := [0, 1],
    pages := [{ asid := 0, vpage := 0x4000000000000000, key := 2 ^ 40, read := true, write := false, user := true },
              { asid := 0, vpage := 0x4000000000010000, key := 2 ^ 40 + 2 ^ 16, read := true, write := true, user := true },
              { asid := 0, vpage := 0x6000000000000000, key := 0, read := true, write := true, user := true }] }

/-- A wave's environment: code in the first two kilobytes of the image, the supervisor's section behind them, a private block in tensor
memory, the first kilobyte of the local store. -/
def someEnv : Env :=
  { Env.idle with
    sections := [{ kind := 1, seg := 0, off := 0, size := 2048 }, { kind := 3, seg := 0, off := 2048, size := 2048 }],
    privLane := 64, privWave := 128, privBase := 0x6000000000008000, privSize := 0x1000,
    own := { pos := 0, core := 0, base := 0, limit := 1024 } }

/-- Copies that the package has of its own control lines: the first of both pages of the VI and of its tables. -/
def ownLines : List (Nat × Moesi) := ([0, 512, 1536, 2048, 2112, 64, 576, 608].flatMap fun n => (List.range 40).map (n + ·)).map fun l => (l, .modified)

/-- The wave of `small` in VI 0. -/
def setting (ss : Cells 64) (vs : Cells 32) : State :=
  let s := small ss vs
  { s with vis := [someVi], control := { s.control with copies := ownLines },
           wave := { s.wave with env := someEnv, arch := { s.wave.arch with evec := 0x4000000000000800 } } }

/-- Every core, and every slice and the hub, with as many cycles behind them, and some microseconds. -/
def clockAt (core uncore us : Nat) : Clock :=
  { beat := 0, sectors := List.replicate 6 (8 * core), groups := List.replicate 12 (8 * uncore), hub := 8 * uncore, us := us }

/-- The checks before an instruction's effect pass, as a Bool. -/
def State.clearsB (s : State) (f : Form) : Bool :=
  decide (f.refuses s.wave = none) && (s.wave.lookoutOf.isNone || f.lookout)

theorem clears_of_clearsB {s : State} {f : Form} (h : s.clearsB f = true) : s.clears f := by
  simp only [State.clearsB, Bool.and_eq_true, decide_eq_true_eq, Bool.or_eq_true] at h
  refine ⟨h.1, fun hl => ?_⟩
  rcases h.2 with h2 | h2
  · rw [Option.isNone_iff_eq_none] at h2
    rw [h2] at hl
    cases hl
  · exact h2

end Sys2Proof.Machine
end

