-- ==== Sys2Proof/Tests/WitnessA.lean ====
section
/-!
SUPPORT. Concrete states and operands that meet the hypotheses of the statements on registers and lanes, clause by clause, with the
highest register numbers of a wave of 128.
-/
namespace Sys2Proof.Machine

set_option Elab.async false

open Sys2Proof.Claims

/-- The wave of `setting` with hint words before the instruction that issues. -/
def hinted (hs : List Word) : State :=
  let s := setting [(3, 1)] []
  { s with wave := { s.wave with hints := hs } }

/-- At the last word of its clause. -/
def lastly (hs : List Word) (m : Mode) : State :=
  let s := hinted hs
  { s with wave := { s.wave with pos := { s.wave.pos with ridx := 1 }, arch := { s.wave.arch with mode := m } } }

/-- The words of a group before its instruction: one HSRC register where the form needs one. -/
def hintsFor (f : Form) : List Word := if f.counts.contains 0 then [] else [0x1C208000]

/-- Every row that has a form runs at the last word of a clause in hypervisor mode, with one HSRC register (s2, v2, p2) where it needs
one: its checks pass. -/
noncomputable def someRows : List Instr :=
  (wordsAndInstrs0 ++ wordsAndInstrs1 ++ wordsAndInstrs2 ++ wordsAndInstrs3 ++ wordsAndInstrs4 ++ wordsAndInstrs5 ++ wordsAndInstrs6 ++
   wordsAndInstrs7 ++ wordsAndInstrs8 ++ wordsAndInstrs9 ++ wordsAndInstrs10).map (·.2)

theorem test_every_form_clears :
    someRows.all (fun i => match (groupForm i).or (matrixForm i) with
      | some f => (lastly (if f.counts.contains 2 && !f.counts.contains 1 then [0x1C408180] else hintsFor f) .hypervisor).clearsB f
      | none => true) = true := by
  decide +kernel

theorem meets_ScalarResults : ∃ (i : Instr) (s : State) (d a b : BitVec 7) (m : Bool) (f : DWord → DWord → DWord),
    scalarRow s.wave.group i = some (d, a, b, m, f) ∧ s.clears { ss := [d.toNat, a.toNat, b.toNat], sat := m } :=
  ⟨.sadd 127 127 127, hinted [0x1D180000], _, _, _, _, _, rfl, clears_of_clearsB (by decide +kernel)⟩

theorem meets_ScalarResults_others :
    (∃ (i : Instr) (s : State) (d a : BitVec 7) (f : DWord → DWord),
      scalarUnaryRow i = some (d, a, f) ∧ s.clears { ss := [d.toNat, a.toNat] }) ∧
    (∃ (i : Instr) (s : State) (d a : BitVec 7) (n : BitVec 9) (f : DWord → DWord → DWord),
      scalarImmRow i = some (d, a, n, f) ∧ s.clears { ss := [d.toNat, a.toNat], himm := true }) ∧
    (∃ (s : State) (d : BitVec 7), s.clears { ss := [d.toNat], himm := true }) ∧
    (∃ (s : State) (d a b : BitVec 7) (c : Nat), s.wave.group.extra = [c] ∧
      s.clears { ss := [d.toNat, a.toNat, b.toNat], counts := [1], extra := .scalar }) ∧
    (∃ (s : State) (d a b : BitVec 7), s.clears { ss := [d.toNat, a.toNat, b.toNat] }) ∧
    (∃ (s : State) (d a b : BitVec 7), s.clears { ss := [d.toNat, a.toNat, b.toNat], counts := [0, 1], extra := .scalar }) :=
  ⟨⟨.ssrai 127 127 63, hinted [], _, _, _, rfl, clears_of_clearsB (by decide +kernel)⟩,
   ⟨.saddi 127 127 0x100, hinted [0x20000003], _, _, _, _, rfl, clears_of_clearsB (by decide +kernel)⟩,
   ⟨hinted [0x20000003], 127, clears_of_clearsB (by decide +kernel)⟩,
   ⟨hinted [0x1C208000], 127, 126, 0, 2, by decide +kernel, clears_of_clearsB (by decide +kernel)⟩,
   ⟨hinted [], 127, 126, 0, clears_of_clearsB (by decide +kernel)⟩,
   ⟨hinted [0x1C208000], 127, 126, 0, clears_of_clearsB (by decide +kernel)⟩⟩

theorem meets_VectorLaneResults :
    (∃ (i : Instr) (s : State) (d a b : BitVec 7) (m : Bool) (f : Word → Word → Word → Word),
      vecRow i = some (d, a, b) ∧ laneOp s.wave.group i = some (m, f) ∧ s.clears { vs := [d.toNat, a.toNat, b.toNat], sat := m }) ∧
    (∃ (i : Instr) (s : State) (d a b : BitVec 7) (m : Bool) (f : Word → Word → Word → Word),
      vecScalarRow i = some (d, a, b) ∧ laneOp s.wave.group i = some (m, f) ∧
      s.clears { vs := [d.toNat, a.toNat], ss := [b.toNat], sat := m }) :=
  ⟨⟨.vsubN32 127 127 127, hinted [0x1D180000], _, _, _, _, _, rfl, rfl, clears_of_clearsB (by decide +kernel)⟩,
   ⟨.vsubsI32 127 127 127, hinted [0x1D180000], _, _, _, _, _, rfl, rfl, clears_of_clearsB (by decide +kernel)⟩⟩

theorem meets_VectorOtherLaneResults :
    (∃ (i : Instr) (s : State) (d a : BitVec 7) (f : Word → Word), vecUnaryRow i = some (d, a, f) ∧ s.clears { vs := [d.toNat, a.toNat] }) ∧
    (∃ (i : Instr) (s : State) (d a : BitVec 7) (n : BitVec 9) (f : Word → Word → Word),
      vecImmRow i = some (d, a, n, f) ∧ s.clears { vs := [d.toNat, a.toNat], himm := true }) ∧
    (∃ (s : State) (d : BitVec 7), s.clears { vs := [d.toNat], himm := true }) ∧
    (∃ (s : State) (d a b : BitVec 7), s.clears { vs := [d.toNat, a.toNat, b.toNat], counts := [0, 1], extra := .vector }) ∧
    (∃ (s : State) (d a b : BitVec 7) (p : Nat), s.wave.group.extra = [p] ∧
      s.clears { vs := [d.toNat, a.toNat, b.toNat], counts := [1], extra := .predicate }) :=
  ⟨⟨.vabsI32 127 127, hinted [], _, _, _, rfl, clears_of_clearsB (by decide +kernel)⟩,
   ⟨.vaddi 127 127 0x1FF, hinted [], _, _, _, _, rfl, clears_of_clearsB (by decide +kernel)⟩,
   ⟨hinted [0x20000003], 127, clears_of_clearsB (by decide +kernel)⟩,
   ⟨hinted [0x1C208000], 127, 127, 127, clears_of_clearsB (by decide +kernel)⟩,
   ⟨hinted [0x1C22C000], 127, 126, 0, 11, by decide +kernel, clears_of_clearsB (by decide +kernel)⟩⟩

theorem meets_VectorPairResults :
    (∃ (i : Instr) (s : State) (d a b : BitVec 7) (m : Bool) (f : DWord → DWord → DWord),
      pairRow s.wave.group i = some (d, a, b, m, f) ∧ s.clears { vs := [d.toNat + 1, a.toNat + 1, b.toNat + 1], sat := m }) ∧
    (∃ (s : State) (d a b : BitVec 7), s.clears { vs := [d.toNat + 1, a.toNat, b.toNat] }) ∧
    (∃ (s : State) (d a b : BitVec 7), s.clears { vs := [d.toNat + 1, a.toNat + 1], ss := [b.toNat] }) :=
  ⟨⟨.vaddN64 126 126 124, hinted [0x1D180000], _, _, _, _, _, rfl, clears_of_clearsB (by decide +kernel)⟩,
   ⟨hinted [], 126, 127, 126, clears_of_clearsB (by decide +kernel)⟩,
   ⟨hinted [], 126, 126, 127, clears_of_clearsB (by decide +kernel)⟩⟩

/-! ## Floating point -/

/-- Trap enables in `fpc`, so that some lanes trap: lane 0 of v1 is a signalling NaN. -/
def trapping (en : DWord) : State :=
  let s := setting [] [(64, 0x7F800001)]
  { s with wave := { s.wave with arch := { s.wave.arch with fpc := en } } }

theorem meets_RoundingFollowsItsMode : ∃ k : Nat, 0 < k := ⟨1, by decide⟩

theorem meets_FloatingPointLanes :
    (∃ (i : Instr) (s : State) (f : Form) (d : BitVec 7) (res : Nat → LaneRes),
      fpRow s.wave s.wave.group i = some (f, d, res) ∧ s.clears f ∧
      ∀ l ∈ s.wave.active, (res l).flags &&& fpcTrapEn s.wave.arch.fpc = 0) ∧
    (∃ (i : Instr) (s : State) (f : Form) (d : BitVec 7) (res : Nat → LaneRes),
      fpRow s.wave s.wave.group i = some (f, d, res) ∧ s.clears f ∧
      ∃ l ∈ s.wave.active, (res l).flags &&& fpcTrapEn s.wave.arch.fpc ≠ 0) :=
  ⟨⟨.vaddF32 127 1 1, trapping 0, _, _, _, rfl, clears_of_clearsB (by decide +kernel), by decide +kernel⟩,
   ⟨.vaddF32 127 1 1, trapping 0x3E0, _, _, _, rfl, clears_of_clearsB (by decide +kernel), 0, by decide +kernel, by decide +kernel⟩⟩

theorem meets_FloatingPointFunctions :
    (∃ (i : Instr) (s : State) (d : BitVec 7) (srcs : List Nat) (res : Nat → LaneRes),
      fpFunctionRow s.wave s.wave.group i = some (d, srcs, res) ∧ s.clears (.fp (d.toNat :: srcs) []) ∧
      fpcTrapEn s.wave.arch.fpc = 0 ∧ s.wave.active ≠ []) ∧
    (∃ (i : Instr) (s : State) (d : BitVec 7) (srcs : List Nat) (res : Nat → LaneRes),
      fpFunctionRow s.wave s.wave.group i = some (d, srcs, res) ∧ s.clears (.fp (d.toNat :: srcs) []) ∧
      fpcTrapEn s.wave.arch.fpc ≠ 0) :=
  ⟨⟨.vrcpF32 127 127, trapping 0, _, _, _, rfl, clears_of_clearsB (by decide +kernel), by decide +kernel, by decide +kernel⟩,
   ⟨.vdivF32 127 127 126, trapping 0x20, _, _, _, rfl, clears_of_clearsB (by decide +kernel), by decide +kernel⟩⟩

theorem meets_FloatingPointBitCopies : ∃ (i : Instr) (s : State) (d a b : BitVec 7) (f : Word → Word → Word),
    fpBitsRow i = some (d, a, b, f) ∧ s.clears (.fp [d.toNat, a.toNat, b.toNat] []) :=
  ⟨.vclassF32 127 127, trapping 0x3E0, _, _, _, _, rfl, clears_of_clearsB (by decide +kernel)⟩

theorem meets_WideConversions :
    (∃ (s : State) (d a : BitVec 7) (t src : BitVec 3), 5 ≤ t.toNat ∧
      s.clears (.fp [d.toNat + (if 5 ≤ t.toNat then 1 else 0), a.toNat + (if 5 ≤ src.toNat then 1 else 0)] [])) ∧
    (∃ (s : State) (d a : BitVec 7) (t src : BitVec 3), (t = 1 ∨ t = 2) ∧
      s.clears (.fp [d.toNat + (if 5 ≤ t.toNat then 1 else 0), a.toNat + (if 5 ≤ src.toNat then 1 else 0)] [])) ∧
    (∃ (s : State) (d a : BitVec 7) (t src : BitVec 3), (t = 0 ∨ t = 3 ∨ t = 4) ∧
      s.clears (.fp [d.toNat + (if 5 ≤ t.toNat then 1 else 0), a.toNat + (if 5 ≤ src.toNat then 1 else 0)] [])) :=
  ⟨⟨trapping 0, 126, 127, 7, 0, by decide, clears_of_clearsB (by decide +kernel)⟩,
   ⟨trapping 0, 127, 126, 2, 5, by decide, clears_of_clearsB (by decide +kernel)⟩,
   ⟨trapping 0x3E0, 127, 127, 4, 2, by decide, clears_of_clearsB (by decide +kernel)⟩⟩

theorem meets_ComparesAndPredicates :
    (∃ (i : Instr) (s : State) (d a b : BitVec 7) (f : Word → Word → Bool × FpFlags),
      compareRow s.wave i = some (d, a, b, f) ∧ s.clears { vs := [a.toNat, b.toNat] }) ∧
    (∃ (i : Instr) (s : State) (d a b : BitVec 7) (f : Bool → Bool → Bool), predicateRow i = some (d, a, b, f) ∧ s.clears {}) :=
  ⟨⟨.vcmpLtF32 11 127 1, trapping 0x200, _, _, _, _, rfl, clears_of_clearsB (by decide +kernel)⟩,
   ⟨.pandn 11 11 0, hinted [], _, _, _, _, rfl, clears_of_clearsB (by decide +kernel)⟩⟩

theorem meets_CrossLaneResults :
    (∃ (i : Instr) (s : State) (d a : BitVec 7) (vs ss : List Nat) (src : Nat → Nat),
      shuffleRow s.wave i = some (d, a, vs, ss, src) ∧ s.clears { vs := d.toNat :: a.toNat :: vs, ss := ss }) ∧
    (∃ (s : State) (d a : BitVec 7), s.clears { vs := [d.toNat, a.toNat] }) ∧
    (∃ (s : State) (d a : BitVec 7), s.clears { vs := [d.toNat + 1, a.toNat] }) :=
  ⟨⟨.vprmRot 127 127 127, hinted [], _, _, _, _, _, rfl, clears_of_clearsB (by decide +kernel)⟩,
   ⟨hinted [], 127, 127, clears_of_clearsB (by decide +kernel)⟩,
   ⟨hinted [], 126, 127, clears_of_clearsB (by decide +kernel)⟩⟩

theorem meets_Reductions :
    (∃ (i : Instr) (s : State) (d a : BitVec 7) (P : List Word → DWord → Prop),
      intReduceRow i = some (d, a, P) ∧ s.clears { vs := [a.toNat], ss := [d.toNat] }) ∧
    (∃ (i : Instr) (s : State) (d a : BitVec 7) (m : Bool) (g : ElemOp) (z : Word),
      fpReduceRow i = some (d, a, m, g, z) ∧ s.clears { vs := [a.toNat], ss := [d.toNat], rm := m, sat := m } ∧
      (treeNode (s.wave.leaf a.toNat (s.wave.fpEnv s.wave.group).ftz) (fun x y => lane32 (s.wave.fpEnv s.wave.group) g [x, y]) 6 0).2 &&&
        fpcTrapEn s.wave.arch.fpc = 0) ∧
    (∃ (i : Instr) (s : State) (d a : BitVec 7) (m : Bool) (g : ElemOp) (z : Word),
      fpReduceRow i = some (d, a, m, g, z) ∧ s.clears { vs := [a.toNat], ss := [d.toNat], rm := m, sat := m } ∧
      (treeNode (s.wave.leaf a.toNat (s.wave.fpEnv s.wave.group).ftz) (fun x y => lane32 (s.wave.fpEnv s.wave.group) g [x, y]) 6 0).2 &&&
        fpcTrapEn s.wave.arch.fpc ≠ 0) :=
  ⟨⟨.vredminI32 127 127, hinted [], _, _, _, rfl, clears_of_clearsB (by decide +kernel)⟩,
   ⟨.vredF32 127 1, trapping 0, _, _, _, _, _, rfl, clears_of_clearsB (by decide +kernel), by decide +kernel⟩,
   ⟨.vredF32 127 1, trapping 0x3E0, _, _, _, _, _, rfl, clears_of_clearsB (by decide +kernel), by decide +kernel⟩⟩

/-- A wave with a long-latency instruction that is still to raise flags. -/
def flagsDue : State :=
  let s := setting [] []
  { s with wave := { s.wave with ll := [{ id := 0, flag := none, left := 0, writes := [.flags 1] }] } }

theorem meets_SpecialReadsAndMoves :
    (∃ (s : State) (d : BitVec 7), s.clears { vs := [d.toNat] }) ∧
    (∃ (s : State) (d n : BitVec 7), s.clears { ss := [d.toNat] } ∧ n ≠ 0 ∧ n.toNat ≤ 7) ∧
    (∃ (s : State) (d : BitVec 7), s.clears { ss := [d.toNat] } ∧ s.wave.flagsPending = false) ∧
    (∃ (s : State) (d : BitVec 7), s.clears { ss := [d.toNat] } ∧ s.wave.flagsPending = true) ∧
    (∃ (s : State) (d a : BitVec 7), s.clears { vs := [d.toNat], ss := [a.toNat] }) ∧
    (∃ (s : State) (d a b : BitVec 7), s.clears { vs := [a.toNat], ss := [d.toNat, b.toNat] }) ∧
    (∃ (s : State) (d a b : BitVec 7), s.clears { vs := [d.toNat], ss := [a.toNat, b.toNat] }) :=
  ⟨⟨hinted [], 127, clears_of_clearsB (by decide +kernel)⟩,
   ⟨hinted [], 127, 7, clears_of_clearsB (by decide +kernel), by decide, by decide⟩,
   ⟨hinted [], 127, clears_of_clearsB (by decide +kernel), by decide +kernel⟩,
   ⟨flagsDue, 127, clears_of_clearsB (by decide +kernel), by decide +kernel⟩,
   ⟨hinted [], 127, 127, clears_of_clearsB (by decide +kernel)⟩,
   ⟨hinted [], 127, 127, 127, clears_of_clearsB (by decide +kernel)⟩,
   ⟨hinted [], 127, 127, 127, clears_of_clearsB (by decide +kernel)⟩⟩

end Sys2Proof.Machine
end

