-- ==== Sys2Proof/Tests/WitnessB.lean ====
section
/-!
SUPPORT. Concrete states and operands that meet the hypotheses of the statements on groups, transfers, masks, the stack, traps, returns and
the privileged registers, clause by clause.
-/
namespace Sys2Proof.Machine

set_option Elab.async false

open Sys2Proof.Claims

/-- A wave in the middle of its clause with some scalars, in a mode. -/
def amid (ss : Cells 64) (m : Mode) : State :=
  let s := setting ss []
  { s with wave := { s.wave with arch := { s.wave.arch with mode := m } } }

/-- The same at the last word of its clause. -/
def ending (ss : Cells 64) (m : Mode) : State :=
  let s := amid ss m
  { s with wave := { s.wave with pos := { s.wave.pos with ridx := 1 } } }

/-- A lookout of grid 0. -/
def asLookout (s : State) : State := { s with wave := { s.wave with lookoutOf := some 0 } }

theorem meets_IllegalGroupsTrapFirst :
    (∃ (i : Instr) (s : State) (f : Form), groupForm i = some f ∧ f.refuses s.wave = some 0x01) ∧
    (∃ (i : Instr) (s : State) (f : Form), groupForm i = some f ∧ f.refuses s.wave = some 0x04) ∧
    (∃ (i : Instr) (s : State) (f : Form), groupForm i = some f ∧ f.refuses s.wave = none ∧ s.wave.lookoutOf.isSome = true ∧
      f.lookout = false) ∧
    (∃ (i : Instr) (s : State) (f : Form), matrixForm i = some f ∧ s.wave.exm ≠ s.wave.lanes) ∧
    (∃ (i : Instr) (s : State) (f : Form) (c : Nat), matrixForm i = some f ∧ s.wave.exm = s.wave.lanes ∧ f.refuses s.wave = some c) ∧
    (∃ (i : Instr) (s : State) (f : Form), matrixForm i = some f ∧ s.wave.exm = s.wave.lanes ∧ f.refuses s.wave = none ∧
      s.wave.lookoutOf.isSome = true) :=
  ⟨⟨.yield, amid [] .user, _, rfl, by decide +kernel⟩,
   ⟨.hvc 0, amid [] .user, _, rfl, by decide +kernel⟩,
   ⟨.mpush 1 2, asLookout (amid [] .user), _, rfl, by decide +kernel, rfl, rfl⟩,
   ⟨.mma 0 0 1 0 0, (let s := amid [] .user; { s with wave := { s.wave with arch := { s.wave.arch with exm := 1 } } }), _, rfl, by decide +kernel⟩,
   ⟨.mmas 0 0 1 0 0, amid [] .user, _, 0x01, rfl, by decide +kernel, by decide +kernel⟩,
   ⟨.mma 0 0 1 0 0, asLookout (amid [] .user), _, rfl, by decide +kernel, by decide +kernel, rfl⟩⟩

theorem meets_HintWordsJoinTheGroup :
    (∃ (i : Instr) (s : State) (x : Word), hintWord i = some x ∧ s.wave.lastWord = false) ∧
    (∃ (i : Instr) (s : State) (x : Word), hintWord i = some x ∧ s.wave.lastWord = true) :=
  ⟨⟨.himm 0x3FFFFFF, amid [] .user, _, rfl, by decide +kernel⟩, ⟨.hlive 0 1, ending [] .user, _, rfl, by decide +kernel⟩⟩

/-- A target in the image's code, for a wave of a grid without ferry mode that is no lookout. -/
theorem reachable_code {s : State} {ind : Bool} {t : DWord} (x : Section) (h : s.wave.lookoutOf = none)
    (hm : s.wave.arch.mode ≠ .hypervisor) (ha : t.toNat % 4 = 0) (hu : s.undecodable s.wave.env t = false)
    (hx : s.wave.env.sectionAt t = some x) (hs : x.isSupervisor = false) (hl : x.isLookout = false) (hf : s.wave.env.ferry = false) :
    reachable s ind t := by
  simp [reachable, targetRows, h, hm, ha, hu, hx, hs, hl, hf]

theorem meets_TransfersGoToTheirTargets :
    (∃ (i : Instr) (s : State) (f : Form) (taken : Prop) (ind : Bool) (t : DWord),
      transferRow s.wave i = some (taken, ind, t) ∧ groupForm i = some f ∧ s.clears f ∧ ¬taken) ∧
    (∃ (i : Instr) (s : State) (f : Form) (taken : Prop) (ind : Bool) (t : DWord),
      transferRow s.wave i = some (taken, ind, t) ∧ groupForm i = some f ∧ s.clears f ∧ taken ∧ reachable s ind t) ∧
    (∃ (s : State) (o : BitVec 21), s.clears { live := true, terminal := true, ss := [127] } ∧ reachable s false (fromWord s.wave o)) :=
  ⟨⟨.brsNz 31 3, ending [] .user, _, _, _, _, rfl, rfl, clears_of_clearsB (by decide +kernel), by decide +kernel⟩,
   ⟨.jmpr 127, ending [(127, 0x4000000000000040)] .user, _, _, _, _, rfl, rfl, clears_of_clearsB (by decide +kernel), trivial,
     reachable_code { kind := 1, seg := 0, off := 0, size := 2048 } rfl (by decide +kernel) (by decide +kernel) (by decide +kernel)
       (by decide +kernel) rfl rfl rfl⟩,
   ⟨ending [] .user, 3, clears_of_clearsB (by decide +kernel),
     reachable_code { kind := 1, seg := 0, off := 0, size := 2048 } rfl (by decide +kernel) (by decide +kernel) (by decide +kernel)
       (by decide +kernel) rfl rfl rfl⟩⟩

/-- A register transfer to `a` in an image with the given sections. -/
def towards (xs : List Section) (a : DWord) : State :=
  let s := ending [(127, a)] .user
  { s with wave := { s.wave with env := { s.wave.env with sections := xs } } }

/-- Row `k` of R227 is the first that the target fails. -/
def failsFirst (s : State) (ind : Bool) (t : DWord) (k : Nat) : Prop :=
  ∃ r : Prop × Nat, (targetRows s ind t)[k]? = some r ∧ r.1 ∧
    ∀ (j : Nat) (q : Prop × Nat), j < k → (targetRows s ind t)[j]? = some q → ¬q.1

def codeOnly : Section := { kind := 1, seg := 0, off := 0, size := 2048 }
def supervisorOnly : Section := { kind := 3, seg := 0, off := 0, size := 2048 }
def lookoutOnly : Section := { kind := 4, seg := 0, off := 0, size := 2048 }

theorem meets_TransferTargetsAreChecked_rows :
    failsFirst (towards [codeOnly] 0x4000000000000042) true 0x4000000000000042 0 ∧
    failsFirst (towards [codeOnly] 0x8000000000000000) true 0x8000000000000000 1 ∧
    failsFirst (towards [codeOnly] 0x4000000000000800) true 0x4000000000000800 2 ∧
    failsFirst (towards [supervisorOnly] 0x4000000000000040) true 0x4000000000000040 3 ∧
    failsFirst (towards [lookoutOnly] 0x4000000000000040) true 0x4000000000000040 4 := by
  refine ⟨⟨_, rfl, ⟨rfl, by decide⟩, fun j q hj => by omega⟩, ⟨_, rfl, by decide +kernel, ?_⟩, ⟨_, rfl, by decide +kernel, ?_⟩,
    ⟨_, rfl, ⟨supervisorOnly, by decide +kernel, rfl, rfl⟩, ?_⟩, ⟨_, rfl, ⟨lookoutOnly, by decide +kernel, rfl⟩, ?_⟩⟩
  · intro j q hj hq
    match j, hj with
    | 0, _ => cases hq; decide
  · intro j q hj hq
    match j, hj with
    | 0, _ => cases hq; decide
    | 1, _ => cases hq; decide +kernel
  · intro j q hj hq
    match j, hj with
    | 0, _ => cases hq; decide
    | 1, _ => cases hq; decide +kernel
    | 2, _ => cases hq; decide +kernel
  · intro j q hj hq
    match j, hj with
    | 0, _ => cases hq; decide
    | 1, _ => cases hq; decide +kernel
    | 2, _ => cases hq; decide +kernel
    | 3, _ =>
      cases hq
      rintro ⟨x, hx, hs, -⟩
      have h : (towards [lookoutOnly] 0x4000000000000040).wave.env.sectionAt 0x4000000000000040 = some lookoutOnly := by decide +kernel
      rw [h] at hx
      cases hx
      exact absurd hs (by decide)

theorem meets_TransferTargetsAreChecked :
    (∃ (i : Instr) (s : State) (f : Form) (taken : Prop) (ind : Bool) (t : DWord),
      transferRow s.wave i = some (taken, ind, t) ∧ groupForm i = some f ∧ s.clears f ∧ taken ∧ s.wave.lookoutOf = none ∧
      s.wave.arch.mode ≠ .hypervisor ∧ failsFirst s ind t 4) ∧
    (∃ (i : Instr) (s : State) (f : Form) (taken : Prop) (ind : Bool) (t : DWord),
      transferRow s.wave i = some (taken, ind, t) ∧ groupForm i = some f ∧ s.clears f ∧ taken ∧ s.wave.lookoutOf = none ∧
      s.wave.arch.mode = .hypervisor ∧ ¬reachable s ind t) ∧
    (∃ (i : Instr) (s : State) (f : Form) (taken : Prop) (ind : Bool) (t : DWord),
      transferRow s.wave i = some (taken, ind, t) ∧ groupForm i = some f ∧ s.clears f ∧ taken ∧ s.wave.lookoutOf.isSome = true ∧
      ¬reachable s ind t) :=
  ⟨⟨.ret 127, towards [lookoutOnly] 0x4000000000000040, _, _, _, _, rfl, rfl, clears_of_clearsB (by decide +kernel), trivial, rfl,
     by decide +kernel, meets_TransferTargetsAreChecked_rows.2.2.2.2⟩,
   ⟨.ret 8, ending [(8, 0x4000000000000041)] .hypervisor, _, _, _, _, rfl, rfl, clears_of_clearsB (by decide +kernel), trivial, rfl, rfl,
     fun h => absurd (h.1 rfl) (by decide +kernel)⟩,
   ⟨.ret 8, asLookout (ending [(8, 0x4000000000000041)] .user), _, _, _, _, rfl, rfl, clears_of_clearsB (by decide +kernel), trivial, rfl,
     fun h => absurd h.1 (by decide +kernel)⟩⟩

theorem meets_MaskInstructions : ∃ (i : Instr) (s : State) (f : Form) (ds : List Nat) (m : DWord),
    maskRow s.wave i = some (f, ds, m) ∧ s.clears f :=
  ⟨.msplit 127 11, amid [] .user, _, _, _, rfl, clears_of_clearsB (by decide +kernel)⟩

/-- The wave's stack pointer moved. -/
def atStack (s : State) (a : DWord) : State := { s with wave := { s.wave with arch := { s.wave.arch with rvsp := a } } }

/-- A success of an access, as a Bool. -/
def reaches (x : Except Nat (List Place)) : Bool :=
  match x with
  | .ok _ => true
  | .error _ => false

/-- A failure of an access with a cause, as a Bool. -/
def failsWith (x : Except Nat (List Place)) (c : Nat) : Bool :=
  match x with
  | .ok _ => false
  | .error d => decide (d = c)

theorem exists_of_reaches {x : Except Nat (List Place)} (h : reaches x = true) : ∃ ps, x = .ok ps := by
  cases x with
  | ok ps => exact ⟨ps, rfl⟩
  | error c => cases h

theorem error_of_failsWith {x : Except Nat (List Place)} {c : Nat} (h : failsWith x c = true) : x = .error c := by
  cases x with
  | ok ps => cases h
  | error d => rw [of_decide_eq_true h]

theorem meets_StackPush :
    (∃ (s : State) (a b : BitVec 7), s.clears { ss := [a.toNat, b.toNat], lookout := false } ∧ (s.wave.s b.toNat).toNat % 4 = 3) ∧
    (∃ (s : State) (a b : BitVec 7) (ps : List Place), s.clears { ss := [a.toNat, b.toNat], lookout := false } ∧
      (s.wave.s b.toNat).toNat % 4 ≠ 3 ∧ s.reach .write 0 s.wave.arch.rvsp 16 = .ok ps) ∧
    (∃ (s : State) (a b : BitVec 7) (c : Nat), s.clears { ss := [a.toNat, b.toNat], lookout := false } ∧
      (s.wave.s b.toNat).toNat % 4 ≠ 3 ∧ s.reach .write 0 s.wave.arch.rvsp 16 = .error c ∧ c ≠ causePartition) := by
  refine ⟨⟨amid [(127, 3)] .user, 0, 127, clears_of_clearsB (by decide +kernel), by decide +kernel⟩, ?_, ?_⟩
  · obtain ⟨ps, h⟩ := exists_of_reaches (x := (amid [] .user).reach .write 0 (amid [] .user).wave.arch.rvsp 16) (by decide +kernel)
    exact ⟨amid [] .user, 127, 126, ps, clears_of_clearsB (by decide +kernel), by decide +kernel, h⟩
  · exact ⟨atStack (amid [] .user) 0x1000000000000080, 127, 126, 0x10, clears_of_clearsB (by decide +kernel), by decide +kernel,
      error_of_failsWith (by decide +kernel), by decide⟩

/-- One entry on the stack of the wave: a mask of lanes 0 to 3 and a resume word. -/
def withEntry (s : State) (w : DWord) : State :=
  match s.push 0xF w with
  | .ok t => t
  | .error _ => s

/-- What an entry of the stack holds, as a Bool. -/
def entryIs (x : Except (Nat × DWord) (DWord × DWord)) (m w : DWord) : Bool :=
  match x with
  | .ok y => decide (y = (m, w))
  | .error _ => false

theorem ok_of_entryIs {x : Except (Nat × DWord) (DWord × DWord)} {m w : DWord} (h : entryIs x m w = true) : x = .ok (m, w) := by
  cases x with
  | ok y => rw [of_decide_eq_true h]
  | error c => cases h

/-- An entry that may be popped, of a resume word's kind and in a mode. -/
def poppable (s : State) (m w : DWord) : Prop :=
  16 ≤ s.wave.arch.rvsp.toNat % 2 ^ 60 ∧ s.entryBlocked (s.wave.arch.rvsp - 16) = false ∧ s.entryAt (s.wave.arch.rvsp - 16) = .ok (m, w)

theorem meets_StackPop :
    (∃ (s : State) (d : BitVec 7), s.clears { ss := [d.toNat, d.toNat + 1] } ∧ s.wave.arch.rvsp.toNat % 2 ^ 60 < 16) ∧
    (∃ (s : State) (d : BitVec 7) (m w : DWord), s.clears { ss := [d.toNat, d.toNat + 1] } ∧ poppable s m w ∧ w.toNat % 4 = 3) ∧
    (∃ (s : State) (d : BitVec 7) (m w : DWord), s.clears { ss := [d.toNat, d.toNat + 1] } ∧ poppable s m w ∧ w.toNat % 4 = 2 ∧
      s.wave.arch.mode ≠ .hypervisor) ∧
    (∃ (s : State) (d : BitVec 7) (m w : DWord), s.clears { ss := [d.toNat, d.toNat + 1] } ∧ poppable s m w ∧ w.toNat % 4 ≠ 3 ∧
      (w.toNat % 4 = 2 → s.wave.arch.mode = .hypervisor)) :=
  ⟨⟨amid [] .user, 126, clears_of_clearsB (by decide +kernel), by decide +kernel⟩,
   ⟨withEntry (amid [] .user) 3, 126, 0xF, 3, clears_of_clearsB (by decide +kernel),
     ⟨by decide +kernel, by decide +kernel, ok_of_entryIs (by decide +kernel)⟩, by decide⟩,
   ⟨withEntry (amid [] .user) 2, 126, 0xF, 2, clears_of_clearsB (by decide +kernel),
     ⟨by decide +kernel, by decide +kernel, ok_of_entryIs (by decide +kernel)⟩, by decide, by decide +kernel⟩,
   ⟨withEntry (amid [] .user) 0x4000000000000040, 126, 0xF, 0x4000000000000040, clears_of_clearsB (by decide +kernel),
     ⟨by decide +kernel, by decide +kernel, ok_of_entryIs (by decide +kernel)⟩, by decide, by decide +kernel⟩⟩

theorem meets_NopYieldExit :
    (∃ s : State, s.clears {}) ∧ (∃ s : State, s.clears { terminal := true }) ∧ ∃ s : State, s.clears { terminal := true, lookout := false } :=
  ⟨⟨amid [] .user, clears_of_clearsB (by decide +kernel)⟩, ⟨ending [] .user, clears_of_clearsB (by decide +kernel)⟩,
   ⟨ending [] .user, clears_of_clearsB (by decide +kernel)⟩⟩

/-- No lane active. -/
def emptied (s : State) : State := { s with wave := { s.wave with arch := { s.wave.arch with exm := 0 } } }

theorem meets_SystemInstructionsTrap :
    (∃ (i : Instr) (s : State) (f : Form) (t : Trap), systemTrapRow s.wave i = some (f, t) ∧ s.clears f ∧
      ((∀ n, i ≠ .hvc n) → s.wave.arch.mode ≠ .hypervisor) ∧ ((∃ n, i = .sysc n) → s.wave.active ≠ [])) ∧
    (∃ (i : Instr) (s : State) (f : Form) (t : Trap), systemTrapRow s.wave i = some (f, t) ∧ s.clears f ∧ ∃ n, i = .hvc n) ∧
    (∃ s : State, s.clears { lookout := false } ∧ s.wave.arch.mode = .hypervisor) ∧
    (∃ s : State, s.clears { lookout := false } ∧ s.wave.arch.mode ≠ .hypervisor ∧ s.wave.active = []) :=
  ⟨⟨.sysc 0x1FFFFF, amid [] .user, _, _, rfl, clears_of_clearsB (by decide +kernel), fun _ => by decide +kernel, fun _ => by decide +kernel⟩,
   ⟨.hvc 0x1FFFFF, amid [] .supervisor, _, _, rfl, clears_of_clearsB (by decide +kernel), _, rfl⟩,
   ⟨amid [] .hypervisor, clears_of_clearsB (by decide +kernel), rfl⟩,
   ⟨emptied (amid [] .user), clears_of_clearsB (by decide +kernel), by decide +kernel, by decide +kernel⟩⟩

/-- The trap that BKPT n makes. -/
def someTrap (s : State) : Trap := s.wave.wholeTrap 0x138 none

/-- What trap entry at supervisor level asks for. -/
def supervisorCase (s : State) (t : Trap) (ps : List Place) : Prop :=
  atRest s ∧ s.wave.arch.mode ≠ .hypervisor ∧ (s.wave.arch.mode = .user ∨ s.wave.arch.sdepth < 3) ∧ t.hvc = none ∧
  (¬∃ xs ys, delegates s t xs ys) ∧
  s.wave.env.isHeader Section.isSupervisor (s.wave.arch.evec + BitVec.ofNat 64 (64 * t.vector)) = true ∧
  s.reach .write 0 s.wave.arch.rvsp 16 = .ok ps

/-- A trap of another vector is never delegated. -/
theorem not_delegates {s : State} {t : Trap} (h : t.vector ≠ 4) : ¬∃ xs ys, delegates s t xs ys := fun ⟨_, _, d⟩ => h d.1

/-- A wave of a grid in ferry mode, and one that has asked for its floating-point traps. -/
def inFerryMode : State :=
  let s := amid [] .user
  { s with wave := { s.wave with env := { s.wave.env with ferry := true } } }
def delegating : State :=
  let s := amid [] .user
  { s with wave := { s.wave with arch := { s.wave.arch with fpc := 0x4000, uhtv := s.wave.pos.pc } } }
def floatTrap (s : State) : Trap := s.wave.wholeTrap 0x120 none

theorem meets_SupervisorTrapEntry :
    (∃ (s : State) (t : Trap) (ps : List Place), supervisorCase s t ps ∧ s.wave.env.ferry = false) ∧
    (∃ (s : State) (t : Trap) (ps : List Place), supervisorCase s t ps ∧ s.wave.env.ferry = true) ∧
    (∃ (s : State) (t : Trap) (ps qs : List Place), atRest s ∧ t.hvc = none ∧ delegates s t ps qs) := by
  obtain ⟨ps, h⟩ := exists_of_reaches (x := (amid [] .user).reach .write 0 (amid [] .user).wave.arch.rvsp 16) (by decide +kernel)
  obtain ⟨qs, k⟩ := exists_of_reaches (x := inFerryMode.reach .write 0 inFerryMode.wave.arch.rvsp 16) (by decide +kernel)
  obtain ⟨xs, hx⟩ := exists_of_reaches (x := delegating.reach .write 0 delegating.wave.arch.rvsp 16) (by decide +kernel)
  obtain ⟨ys, hy⟩ := exists_of_reaches
    (x := delegating.reach .write 0 (delegating.wave.setRvsp (delegating.wave.arch.rvsp + 16)).arch.rvsp 16) (by decide +kernel)
  exact ⟨⟨amid [] .user, someTrap (amid [] .user), ps,
      ⟨⟨rfl, rfl⟩, by decide +kernel, .inl rfl, rfl, not_delegates (by decide +kernel), by decide +kernel, h⟩, rfl⟩,
    ⟨inFerryMode, someTrap inFerryMode, qs,
      ⟨⟨rfl, rfl⟩, by decide +kernel, .inl rfl, rfl, not_delegates (by decide +kernel), by decide +kernel, k⟩, rfl⟩,
    ⟨delegating, floatTrap delegating, xs, ys, ⟨rfl, rfl⟩, rfl,
      by decide +kernel, rfl, by decide +kernel, by decide +kernel, rfl, by decide +kernel, hx, hy⟩⟩

/-- Supervisor mode at depth 3, and a vector outside every section. -/
def deep : State :=
  let s := amid [] .supervisor
  { s with wave := { s.wave with arch := { s.wave.arch with sdepth := 3 } } }
def noVector : State :=
  let s := amid [] .user
  { s with wave := { s.wave with arch := { s.wave.arch with evec := 0x4000000000000000 } } }

/-- The case in which a trap goes to hypervisor level. -/
def hyperCase (s : State) (t : Trap) (code esc : Nat) : Prop :=
  atRest s ∧ s.wave.arch.mode ≠ .hypervisor ∧ (¬∃ xs ys, delegates s t xs ys) ∧
  ((∃ n, t.hvc = some n) ∧ code = 0x40 ∧ esc = 0 ∨
    t.hvc = none ∧ s.wave.arch.mode = .supervisor ∧ 3 ≤ s.wave.arch.sdepth ∧ code = 0x41 ∧ esc = t.code ∨
    t.hvc = none ∧ (s.wave.arch.mode = .user ∨ s.wave.arch.sdepth < 3) ∧ code = 0x43 ∧ esc = 0 ∧
      s.wave.env.isHeader Section.isSupervisor (s.wave.arch.evec + BitVec.ofNat 64 (64 * t.vector)) = false ∨
    t.hvc = none ∧ (s.wave.arch.mode = .user ∨ s.wave.arch.sdepth < 3) ∧ code = 0x42 ∧ esc = t.code ∧
      s.wave.env.isHeader Section.isSupervisor (s.wave.arch.evec + BitVec.ofNat 64 (64 * t.vector)) = true ∧
      ∃ c, s.reach .write 0 s.wave.arch.rvsp 16 = .error c)

theorem meets_HypervisorTrapEntry :
    (∃ (s : State) (t : Trap) (ps : List Place), hyperCase s t 0x40 0 ∧ s.reach .write 0 s.wave.arch.rvsp 16 = .ok ps) ∧
    (∃ (s : State) (t : Trap), hyperCase s t 0x41 t.code) ∧
    (∃ (s : State) (t : Trap) (c : Nat), hyperCase s t 0x43 0 ∧ s.reach .write 0 s.wave.arch.rvsp 16 = .error c) ∧
    (∃ (s : State) (t : Trap), hyperCase s t 0x42 t.code) := by
  obtain ⟨ps, h⟩ := exists_of_reaches (x := (amid [] .supervisor).reach .write 0 (amid [] .supervisor).wave.arch.rvsp 16) (by decide +kernel)
  refine ⟨⟨amid [] .supervisor, { someTrap (amid [] .supervisor) with hvc := some 7 }, ps,
      ⟨⟨rfl, rfl⟩, by decide +kernel, not_delegates (by decide +kernel), .inl ⟨⟨7, rfl⟩, rfl, rfl⟩⟩, h⟩,
    ⟨deep, someTrap deep, ⟨rfl, rfl⟩, by decide +kernel, not_delegates (by decide +kernel), .inr (.inl ⟨rfl, rfl, by decide +kernel, rfl, rfl⟩)⟩,
    ⟨atStack noVector 0x1000000000000080, someTrap noVector, 0x10,
      ⟨⟨rfl, rfl⟩, by decide +kernel, not_delegates (by decide +kernel),
        .inr (.inr (.inl ⟨rfl, .inl rfl, rfl, rfl, by decide +kernel⟩))⟩, error_of_failsWith (by decide +kernel)⟩,
    ⟨atStack (amid [] .user) 0x1000000000000080, someTrap (amid [] .user), ⟨rfl, rfl⟩, by decide +kernel,
      not_delegates (by decide +kernel),
      .inr (.inr (.inr ⟨rfl, .inl rfl, rfl, rfl, by decide +kernel, 0x10, error_of_failsWith (by decide +kernel)⟩))⟩⟩

theorem meets_TrapsThatWaitOrStop :
    (∃ s : State, atRest s ∧ s.wave.arch.mode = .hypervisor) ∧
    (∃ s : State, s.wave.lookoutOf = none ∧ s.wave.ll ≠ [] ∧ ∀ o ∈ s.wave.ll, o.left ≠ 0) :=
  ⟨⟨amid [] .hypervisor, ⟨rfl, rfl⟩, rfl⟩,
   ⟨(let s := amid [] .user; { s with wave := { s.wave with ll := [{ id := 0, flag := none, left := 1, writes := [] }] } }), rfl,
     by decide +kernel, by decide +kernel⟩⟩

/-- A supervisor's handler at depth 1, with an entry on the stack, at the last word of its clause. -/
def handler (m : Mode) (w : DWord) : State :=
  let s := withEntry (ending [] m) w
  { s with wave := { s.wave with arch := { s.wave.arch with sdepth := 1, emask := 3 } } }

theorem meets_ReturnFromSupervisor :
    (∃ (s : State) (m w : DWord), s.clears { terminal := true } ∧ s.wave.arch.mode = .supervisor ∧ poppable s m w ∧ w.toNat % 4 = 1) ∧
    (∃ (s : State) (m w : DWord), s.clears { terminal := true } ∧ s.wave.arch.mode = .supervisor ∧ poppable s m w ∧ w.toNat % 4 = 0) ∧
    (∃ (s : State) (m w : DWord), s.clears { terminal := true } ∧ s.wave.arch.mode = .supervisor ∧ poppable s m w ∧ w.toNat % 4 = 3) :=
  ⟨⟨handler .supervisor 0x4000000000000041, 0xF, 0x4000000000000041, clears_of_clearsB (by decide +kernel), by decide +kernel,
     ⟨by decide +kernel, by decide +kernel, ok_of_entryIs (by decide +kernel)⟩, by decide⟩,
   ⟨handler .supervisor 0x4000000000000040, 0xF, 0x4000000000000040, clears_of_clearsB (by decide +kernel), by decide +kernel,
     ⟨by decide +kernel, by decide +kernel, ok_of_entryIs (by decide +kernel)⟩, by decide⟩,
   ⟨handler .supervisor 3, 0xF, 3, clears_of_clearsB (by decide +kernel), by decide +kernel,
     ⟨by decide +kernel, by decide +kernel, ok_of_entryIs (by decide +kernel)⟩, by decide⟩⟩

/-- A hypervisor's handler with a handle on the stack, with its block and without. -/
def inMonitorCode (bs : List OpaqueBlock) : State :=
  let s := handler .hypervisor 2
  { s with hub := { s.hub with blocks := bs } }
def someBlock : OpaqueBlock :=
  { slotNo := 0, home := 0, block := 0, m := 0xF, w := 0x4000000000000041, emask := 3, ecause := [], eaddr := [], mode := .user, hyper := true }

theorem meets_OtherReturns :
    (∃ s : State, s.clears { terminal := true } ∧ s.wave.arch.mode = .user ∧ s.wave.arch.ddepth = false) ∧
    (∃ s : State, s.clears { terminal := true } ∧ s.wave.arch.mode ≠ .user ∧ s.wave.arch.rvsp.toNat % 2 ^ 60 < 16) ∧
    (∃ (s : State) (m w : DWord), s.clears { terminal := true } ∧ s.wave.arch.mode = .hypervisor ∧ poppable s m w ∧ w.toNat % 4 = 2 ∧
      s.blockOf w = none) ∧
    (∃ (s : State) (m w : DWord) (b : OpaqueBlock), s.clears { terminal := true } ∧ s.wave.arch.mode = .hypervisor ∧ poppable s m w ∧
      w.toNat % 4 = 2 ∧ s.blockOf w = some b) :=
  ⟨⟨ending [] .user, clears_of_clearsB (by decide +kernel), rfl, rfl⟩,
   ⟨ending [] .supervisor, clears_of_clearsB (by decide +kernel), by decide +kernel, by decide +kernel⟩,
   ⟨inMonitorCode [], 0xF, 2, clears_of_clearsB (by decide +kernel), by decide +kernel,
     ⟨by decide +kernel, by decide +kernel, ok_of_entryIs (by decide +kernel)⟩, by decide, by decide +kernel⟩,
   ⟨inMonitorCode [someBlock], 0xF, 2, someBlock, clears_of_clearsB (by decide +kernel), by decide +kernel,
     ⟨by decide +kernel, by decide +kernel, ok_of_entryIs (by decide +kernel)⟩, by decide, by decide +kernel⟩⟩

theorem meets_PrivilegedRegisters :
    ([0x000, 0x001, 0x002, 0x003, 0x004, 0x005, 0x006, 0x007, 0x008, 0x009, 0x00A, 0x00B, 0x00C, 0x00D, 0x010, 0x011, 0x012] :
        List (BitVec 12)).all (fun n =>
      let s := amid [(126, 0xFFFF)] .hypervisor
      (match groupForm (.prd 126 n) with
       | some f => s.clearsB f
       | none => false) &&
      (match groupForm (.pwr 126 n) with
       | some f => s.clearsB f
       | none => false)) = true ∧
    (∃ (s : State) (a : BitVec 7), s.clears { ss := [a.toNat], lowest := .supervisor } ∧ (s.wave.s a.toNat).toNat < 2 ^ 48) ∧
    (∃ (s : State) (a : BitVec 7), s.clears { ss := [a.toNat], lowest := .supervisor } ∧ 2 ^ 48 ≤ (s.wave.s a.toNat).toNat) ∧
    (∃ (s : State) (a : BitVec 7) (f : Form), groupForm (.pwr a 0x00C) = some f ∧ s.clears f ∧
      chValid (s.wave.s a.toNat) = true ∧ chLegal (s.wave.s a.toNat) = false) :=
  ⟨by decide +kernel,
   ⟨amid [(127, 0xFFFFFFFFFFFF)] .supervisor, 127, clears_of_clearsB (by decide +kernel), by decide +kernel⟩,
   ⟨amid [(127, 0x1000000000000)] .supervisor, 127, clears_of_clearsB (by decide +kernel), by decide +kernel⟩,
   ⟨amid [(127, 0xC010010000000000)] .supervisor, 127, _, rfl, clears_of_clearsB (by decide +kernel), by decide +kernel, by decide +kernel⟩⟩

end Sys2Proof.Machine
end

