-- ==== Sys2Proof/Tests/WitnessC.lean ====
section
/-!
SUPPORT. Concrete states and operands that meet the hypotheses of the statements on loads, stores and atomics, clause by clause.
-/
namespace Sys2Proof.Machine

set_option Elab.async false

open Sys2Proof.Claims

/-- Lane 0 alone active, with the address `a` in the pair v126, v127 and in s127. -/
def accessing (a : DWord) : State :=
  let s := setting [(127, a)] [(8064, a.setWidth 32), (8128, a.extractLsb' 32 32)]
  { s with wave := { s.wave with arch := { s.wave.arch with exm := 1 } } }

/-- The same with an acquiring atomic of the wave still held, behind which every read waits. -/
def behindAtomic (a : DWord) : State :=
  let s := accessing a
  { s with core := { s.core with held :=
      [{ slot := 0, at_ := 0, kind := .atomic (.mem 64) { op := 0, size := 4, b := 0, e := 0 } 0 [] true [] none }] } }

/-- The same with an allocation of VI 0 that ends before the address. -/
def unallocated (a : DWord) : State :=
  let s := accessing a
  { s with vis := s.vis.map fun v => { v with desc := { v.desc with tenSize := 16 } } }

theorem meets_VectorLoads :
    (∃ (i : Instr) (s : State) (f : Form) (d size : Nat) (addr : Nat → DWord),
      i.WellFormed = true ∧ vectorAccess s.wave false i = some (d, size, addr) ∧ groupForm i = some f ∧ s.clears f ∧
      s.blocked ((lanesPassing s .read size addr).flatMap (·.2)) = true) ∧
    (∃ (i : Instr) (s : State) (f : Form) (d size : Nat) (addr : Nat → DWord),
      i.WellFormed = true ∧ vectorAccess s.wave false i = some (d, size, addr) ∧ groupForm i = some f ∧ s.clears f ∧
      s.blocked ((lanesPassing s .read size addr).flatMap (·.2)) = false ∧ lanesFailing s .read size addr = []) ∧
    (∃ (i : Instr) (s : State) (f : Form) (d size : Nat) (addr : Nat → DWord),
      i.WellFormed = true ∧ vectorAccess s.wave false i = some (d, size, addr) ∧ groupForm i = some f ∧ s.clears f ∧
      s.blocked ((lanesPassing s .read size addr).flatMap (·.2)) = false ∧ lanesFailing s .read size addr ≠ [] ∧ s.wave.lookoutOf = none) :=
  ⟨⟨.vld 4 126 126 2 0, behindAtomic 0x6000000000000010, _, _, _, _, by decide +kernel, rfl, rfl, clears_of_clearsB (by decide +kernel),
     by decide +kernel⟩,
   ⟨.vld 4 126 126 4 0, accessing 0x600000000000FFF0, _, _, _, _, by decide +kernel, rfl, rfl, clears_of_clearsB (by decide +kernel),
     by decide +kernel, by decide +kernel⟩,
   ⟨.vlda 4 126 1 1 0, accessing 0x6000000000010000, _, _, _, _, by decide +kernel, rfl, rfl, clears_of_clearsB (by decide +kernel),
     by decide +kernel, by decide +kernel, rfl⟩⟩

theorem meets_VectorStores :
    (∃ (i : Instr) (s : State) (f : Form) (d size : Nat) (addr : Nat → DWord),
      i.WellFormed = true ∧ vectorAccess s.wave true i = some (d, size, addr) ∧ groupForm i = some f ∧ s.clears f ∧ s.acquiring = true) ∧
    (∃ (i : Instr) (s : State) (f : Form) (d size : Nat) (addr : Nat → DWord),
      i.WellFormed = true ∧ vectorAccess s.wave true i = some (d, size, addr) ∧ groupForm i = some f ∧ s.clears f ∧ s.acquiring = false ∧
      lanesFailing s .write size addr = []) ∧
    (∃ (i : Instr) (s : State) (f : Form) (d size : Nat) (addr : Nat → DWord),
      i.WellFormed = true ∧ vectorAccess s.wave true i = some (d, size, addr) ∧ groupForm i = some f ∧ s.clears f ∧ s.acquiring = false ∧
      lanesFailing s .write size addr ≠ [] ∧ s.wave.lookoutOf = none) :=
  ⟨⟨.lst 4 125 126 2, behindAtomic 0x6000000000000010, _, _, _, _, by decide +kernel, rfl, rfl, clears_of_clearsB (by decide +kernel),
     by decide +kernel⟩,
   ⟨.lst 4 125 126 2, accessing 0x6000000000000010, _, _, _, _, by decide +kernel, rfl, rfl, clears_of_clearsB (by decide +kernel),
     by decide +kernel, by decide +kernel⟩,
   ⟨.vstr 4 126 1 1 0, unallocated 0x6000000000000010, _, _, _, _, by decide +kernel, rfl, rfl, clears_of_clearsB (by decide +kernel),
     by decide +kernel, by decide +kernel, rfl⟩⟩

theorem meets_ScalarLoadsAndStores_orders :
    (∃ (i : Instr) (s : State) (f : Form) (d size : Nat) (a : DWord),
      i.WellFormed = true ∧ scalarAccess s.wave false i = some (d, size, a) ∧ groupForm i = some f ∧ s.clears f ∧
      s.dropped 0 a size = true) ∧
    (∃ (i : Instr) (s : State) (f : Form) (d size : Nat) (a : DWord) (ps : List Place),
      i.WellFormed = true ∧ scalarAccess s.wave true i = some (d, size, a) ∧ groupForm i = some f ∧ s.clears f ∧
      s.reach .write 0 a size = .ok ps ∧ s.acquiring = true) :=
  ⟨⟨.sld 8 127 3 0, asLookout (accessing 0x6000000000010000), _, _, _, _, by decide +kernel, rfl, rfl, clears_of_clearsB (by decide +kernel),
     by decide +kernel⟩,
   ⟨.sst 8 127 0 0, behindAtomic 0x2000000000000010, _, _, _, _, [.store 0 16], by decide +kernel, rfl, rfl,
      clears_of_clearsB (by decide +kernel), rfl, by decide +kernel⟩⟩

theorem meets_ScalarLoadsAndStores :
    (∃ (i : Instr) (s : State) (f : Form) (d size : Nat) (a : DWord) (ps : List Place),
      i.WellFormed = true ∧ scalarAccess s.wave false i = some (d, size, a) ∧ groupForm i = some f ∧ s.clears f ∧
      s.dropped 0 a size = false ∧ s.reach .read 0 a size = .ok ps ∧ s.blocked ps = true) ∧
    (∃ (i : Instr) (s : State) (f : Form) (d size : Nat) (a : DWord) (ps : List Place),
      i.WellFormed = true ∧ scalarAccess s.wave false i = some (d, size, a) ∧ groupForm i = some f ∧ s.clears f ∧
      s.dropped 0 a size = false ∧ s.reach .read 0 a size = .ok ps ∧ s.blocked ps = false) ∧
    (∃ (i : Instr) (s : State) (f : Form) (d size : Nat) (a : DWord),
      i.WellFormed = true ∧ scalarAccess s.wave false i = some (d, size, a) ∧ groupForm i = some f ∧ s.clears f ∧
      s.dropped 0 a size = false ∧ s.reach .read 0 a size = .error 0x08) ∧
    (∃ (i : Instr) (s : State) (f : Form) (d size : Nat) (a : DWord) (ps : List Place),
      i.WellFormed = true ∧ scalarAccess s.wave true i = some (d, size, a) ∧ groupForm i = some f ∧ s.clears f ∧
      s.reach .write 0 a size = .ok ps ∧ s.acquiring = false) ∧
    (∃ (i : Instr) (s : State) (f : Form) (d size : Nat) (a : DWord),
      i.WellFormed = true ∧ scalarAccess s.wave true i = some (d, size, a) ∧ groupForm i = some f ∧ s.clears f ∧
      s.reach .write 0 a size = .error 0x18) ∧
    (∃ (i : Instr) (s : State) (f : Form) (d size : Nat) (a : DWord),
      i.WellFormed = true ∧ scalarAccess s.wave true i = some (d, size, a) ∧ groupForm i = some f ∧ s.clears f ∧
      s.wave.lookoutOf = none ∧ s.reach .write 0 a size = .error 0x218) ∧
    (∃ (i : Instr) (s : State) (f : Form) (d size : Nat) (a : DWord),
      i.WellFormed = true ∧ scalarAccess s.wave false i = some (d, size, a) ∧ groupForm i = some f ∧ s.clears f ∧
      s.wave.lookoutOf = none ∧ s.dropped 0 a size = false ∧ s.reach .read 0 a size = .error 0x218) := by
  refine ⟨⟨.sld 8 127 3 0, behindAtomic 0x2000000000000010, _, _, _, _,
      (List.range 8).map fun k => Place.store 0 (16 + k), by decide +kernel, rfl, rfl, clears_of_clearsB (by decide +kernel), by decide +kernel, rfl, by decide +kernel⟩,
    ⟨.sld 8 127 3 0, accessing 0x2000000000000010, _, _, _, _, (List.range 8).map fun k => Place.store 0 (16 + k), by decide +kernel, rfl, rfl,
      clears_of_clearsB (by decide +kernel), by decide +kernel, rfl, by decide +kernel⟩,
    ⟨.slda 8 127 1 1 0, accessing 0x2000000000000014, _, _, _, _, by decide +kernel, rfl, rfl, clears_of_clearsB (by decide +kernel), by decide +kernel, rfl⟩,
    ⟨.sst 8 127 0 0x1FF, accessing 0x2000000000000400, _, _, _, _, [.store 0 0x3FF], by decide +kernel, rfl, rfl,
      clears_of_clearsB (by decide +kernel), rfl, by decide +kernel⟩,
    ⟨.sst 8 127 0 0, accessing 0x2000000000000400, _, _, _, _, by decide +kernel, rfl, rfl, clears_of_clearsB (by decide +kernel), rfl⟩,
    ⟨.sst 8 127 0 0, unallocated 0x6000000000000010, _, _, _, _, by decide +kernel, rfl, rfl, clears_of_clearsB (by decide +kernel), rfl,
      error_of_failsWith (by decide +kernel)⟩,
    ⟨.sld 8 127 0 0, unallocated 0x6000000000000010, _, _, _, _, by decide +kernel, rfl, rfl, clears_of_clearsB (by decide +kernel), rfl,
      by decide +kernel, error_of_failsWith (by decide +kernel)⟩⟩

theorem meets_AccessChecks :
    (∃ (a : DWord) (size : Nat), 0 < size ∧ a.toNat % size ≠ 0) ∧
    (∃ (a : DWord) (size : Nat), 0 < size ∧ a.toNat % size = 0 ∧ 4 ≤ a.toNat / 2 ^ 61) ∧
    (∃ (a : DWord) (size : Nat), 0 < size ∧ a.toNat % size = 0 ∧ a.toNat / 2 ^ 61 = 1 ∧ 2 ^ 22 ≤ a.toNat % 2 ^ 61) ∧
    (∃ (a : DWord) (size : Nat), 0 < size ∧ a.toNat % size = 0 ∧ a.toNat / 2 ^ 61 = 2 ∧ 2 ^ 48 ≤ a.toNat % 2 ^ 61) ∧
    (∃ (a : DWord) (size : Nat), 0 < size ∧ a.toNat % size = 0 ∧ a.toNat / 2 ^ 61 = 3 ∧ 2 ^ 44 ≤ a.toNat % 2 ^ 61) ∧
    (∃ (s : State) (a : DWord) (size : Nat) (ps : List Place), 0 < size ∧ s.reach .read 0 a size = .ok ps) :=
  ⟨⟨0x2000000000000001, 2, by decide, by decide⟩, ⟨0x8000000000000000, 8, by decide, by decide, by decide⟩,
   ⟨0x2000000000400000, 8, by decide, by decide, by decide, by decide⟩, ⟨0x4001000000000000, 8, by decide, by decide, by decide, by decide⟩,
   ⟨0x6000100000000000, 8, by decide, by decide, by decide, by decide⟩,
   ⟨accessing 0, 0x20000000000003FF, 1, [.store 0 0x3FF], by decide, rfl⟩⟩

theorem meets_AtomicsAreHeld :
    (∃ (s : State) (d a b : BitVec 7) (w : BitVec 1) (c : BitVec 4) (f : Form) (at_ : Nat → List Place),
      groupForm (.vatom d a b w c) = some f ∧ s.clears f ∧ s.acquiring = false ∧ s.wave.active ≠ [] ∧
      ∀ l ∈ s.wave.active, Claims.atomicPlaces s l (s.wave.pair a.toNat l) (if w = 1 then 8 else 4) = some (at_ l)) ∧
    (∃ (s : State) (d a b : BitVec 7) (w : BitVec 1) (c : BitVec 4) (f : Form) (ps : List Place),
      groupForm (.satom d a b w c) = some f ∧ s.clears f ∧ s.acquiring = false ∧
      Claims.atomicPlaces s 0 (s.wave.s a.toNat) (if w = 1 then 8 else 4) = some ps) :=
  ⟨⟨accessing 0x20000000000003F8, 4, 126, 6, 1, 0, _, fun _ => (List.range 8).map fun k => Place.store 0 (0x3F8 + k), rfl,
     clears_of_clearsB (by decide +kernel), by decide +kernel, by decide +kernel, by decide +kernel⟩,
   ⟨accessing 0x6000000000000010, 126, 127, 0, 0, 12, _, (List.range 4).map fun k => Place.mem (16 + k), rfl,
     clears_of_clearsB (by decide +kernel), by decide +kernel, by decide +kernel⟩⟩

end Sys2Proof.Machine
end

