-- ==== Sys2Proof/Tests/WitnessD.lean ====
section
/-!
SUPPORT. Concrete states and operands that meet the hypotheses of the statements on waits, asynchronous operations and the matrix words,
clause by clause.
-/
namespace Sys2Proof.Machine

set_option Elab.async false

open Sys2Proof.Claims

/-- At the last word of a clause, with some tags of the core set. -/
def tagged (ss : Cells 64) (m : DWord) : State :=
  let s := ending ss .user
  { s with core := { s.core with tagmap := m } }

/-- One write of the wave is held. -/
def withHeldWrite : State :=
  let s := ending [] .user
  { s with core := { s.core with held := [{ slot := 0, at_ := 0, kind := .write (.mem 0) [1] }] } }

theorem none_held {s : State} (h : s.core.held = []) : ¬wavesWriteHeld s := by
  rintro ⟨x, hx, -⟩
  rw [h] at hx
  cases hx

theorem none_open {s : State} (h : s.ops = []) : ¬asyncOpen s := by
  rintro ⟨x, hx, -⟩
  rw [h] at hx
  cases hx

/-- The wave has arrived at a barrier of its team. -/
def arrived (done : Bool) : State :=
  let s := ending [] .user
  { s with wave := { s.wave with arrival := some { reachLevel := false, number := 15, released := done, complete := done } } }

def inFerryGrid : State :=
  let s := ending [] .user
  { s with wave := { s.wave with env := { s.wave.env with ferry := true } } }

theorem meets_WaitsAndTags_waits :
    (∃ (s : State) (c : BitVec 2) (n : BitVec 6), s.clears { terminal := true, lookout := false } ∧ s.wave.counter c.toNat < n.toNat) ∧
    (∃ (s : State) (c : BitVec 2) (n : BitVec 6), s.clears { terminal := true, lookout := false } ∧ n.toNat ≤ s.wave.counter c.toNat) ∧
    (∃ (s : State) (a : BitVec 7), s.clears { terminal := true, ss := [a.toNat], lookout := false } ∧ s.core.tagmap &&& s.wave.s a.toNat ≠ 0 ∧
      s.core.tagmap &&& s.wave.s a.toNat = s.wave.s a.toNat) ∧
    (∃ (s : State) (a : BitVec 7), s.clears { terminal := true, ss := [a.toNat], lookout := false } ∧ s.wave.s a.toNat ≠ 0 ∧
      s.core.tagmap &&& s.wave.s a.toNat = 0 ∧ s.core.tagmap &&& s.wave.s a.toNat ≠ s.wave.s a.toNat) ∧
    (∃ (s : State) (d a : BitVec 7), s.clears { terminal := true, ss := [d.toNat, a.toNat], lookout := false } ∧ s.wave.s a.toNat = 0) ∧
    (∃ (s : State) (d a : BitVec 7), s.clears { terminal := true, ss := [d.toNat, a.toNat], lookout := false } ∧ s.wave.s a.toNat ≠ 0 ∧
      s.core.tagmap &&& s.wave.s a.toNat = 0) ∧
    (∃ (s : State) (d a : BitVec 7) (k : Nat), s.clears { terminal := true, ss := [d.toNat, a.toNat], lookout := false } ∧ k < 64 ∧
      (s.core.tagmap &&& s.wave.s a.toNat).getLsbD k = true ∧ ∀ j, j < k → (s.core.tagmap &&& s.wave.s a.toNat).getLsbD j = false) ∧
    (∃ (s : State) (a : BitVec 7), s.clears { ss := [a.toNat], lookout := false }) :=
  ⟨⟨ending [] .user, 3, 1, clears_of_clearsB (by decide +kernel), by decide +kernel⟩,
   ⟨ending [] .user, 0, 0, clears_of_clearsB (by decide +kernel), by decide +kernel⟩,
   ⟨tagged [(127, 0x8000000000000000)] 0xFFFFFFFFFFFFFFFF, 127, clears_of_clearsB (by decide +kernel), by decide +kernel, by decide +kernel⟩,
   ⟨tagged [(127, 0x8000000000000000)] 1, 127, clears_of_clearsB (by decide +kernel), by decide +kernel, by decide +kernel, by decide +kernel⟩,
   ⟨tagged [] 1, 126, 127, clears_of_clearsB (by decide +kernel), by decide +kernel⟩,
   ⟨tagged [(127, 0x8000000000000000)] 1, 126, 127, clears_of_clearsB (by decide +kernel), by decide +kernel, by decide +kernel⟩,
   ⟨tagged [(127, 0x8000000000000000)] 0xFFFFFFFFFFFFFFFF, 126, 127, 63, clears_of_clearsB (by decide +kernel), by decide, by decide +kernel,
     by decide +kernel⟩,
   ⟨tagged [] 1, 127, clears_of_clearsB (by decide +kernel)⟩⟩

theorem meets_WaitsAndTags_fences :
    (∃ (s : State) (m : BitVec 5), s.clears { terminal := true, lookout := false } ∧ m = 0) ∧
    (∃ (s : State) (m : BitVec 5), s.clears { terminal := true, lookout := false } ∧ m ≠ 0 ∧ ¬wavesWriteHeld s ∧ ¬asyncOpen s) ∧
    (∃ (s : State) (m : BitVec 5), s.clears { terminal := true, lookout := false } ∧ m ≠ 0 ∧ wavesWriteHeld s) ∧
    (∃ s : State, s.clears { terminal := true, lookout := false } ∧ s.wave.env.ferry = true) ∧
    (∃ s : State, s.clears { terminal := true, lookout := false } ∧ s.wave.env.ferry = false ∧ s.wave.arrival = none) ∧
    (∃ (s : State) (b : BitVec 4) (r : Bool), s.clears { terminal := true, lookout := false } ∧ s.wave.env.ferry = false ∧
      s.wave.arrival = some { reachLevel := false, number := b.toNat, released := r, complete := false }) ∧
    (∃ (s : State) (b : BitVec 4) (r : Bool), s.clears { terminal := true, lookout := false } ∧ s.wave.env.ferry = false ∧
      s.wave.arrival = some { reachLevel := false, number := b.toNat, released := r, complete := true }) ∧
    (∃ s : State, s.clears { lookout := false } ∧ s.wave.ocm < 63 ∧ (∀ b ∈ s.wave.batches.head?, b.left ≠ []) ∧ s.wave.openBatch.left ≠ []) :=
  ⟨⟨ending [] .user, 0, clears_of_clearsB (by decide +kernel), rfl⟩,
   ⟨ending [] .user, 31, clears_of_clearsB (by decide +kernel), by decide, none_held rfl, none_open rfl⟩,
   ⟨withHeldWrite, 16, clears_of_clearsB (by decide +kernel), by decide, _, List.mem_singleton.2 rfl, .inl ⟨rfl, .inl ⟨_, _, rfl⟩⟩⟩,
   ⟨inFerryGrid, clears_of_clearsB (by decide +kernel), rfl⟩,
   ⟨ending [] .user, clears_of_clearsB (by decide +kernel), rfl, rfl⟩,
   ⟨arrived false, 15, false, clears_of_clearsB (by decide +kernel), rfl, rfl⟩,
   ⟨arrived true, 15, true, clears_of_clearsB (by decide +kernel), rfl, rfl⟩,
   ⟨(let s := amid [] .user; { s with wave := { s.wave with openBatch := { left := [5], size := 1, flags := 0, closedAt := 0 } } }),
     clears_of_clearsB (by decide +kernel), by decide +kernel, by decide +kernel, by decide +kernel⟩⟩

/-- A write to the local store that another wave of the core had made when the fence issued. -/
def withOthersWrite : State :=
  let s := ending [] .user
  { s with core := { s.core with held := [{ slot := 1, at_ := 0, kind := .write (.store 0 0) [1] }] } }

theorem meets_WaitsAndTags_others : ∃ (s : State) (m : BitVec 5), s.clears { terminal := true, lookout := false } ∧ m ≠ 0 ∧ wavesWriteHeld s :=
  ⟨withOthersWrite, 16, clears_of_clearsB (by decide +kernel), by decide, _, List.mem_singleton.2 rfl, .inr ⟨by decide +kernel, _, _, _, rfl⟩⟩

/-! ## Returns, atomics and stalled words, to their end -/

/-- A handler with a second entry under the one that RETT pops. -/
def twoDeep (m : Mode) (w : DWord) (bs : List OpaqueBlock) : State :=
  let s := withEntry (withEntry (ending [] m) 0x4000000000000081) w
  { s with hub := { s.hub with blocks := bs }, wave := { s.wave with arch := { s.wave.arch with sdepth := 1, emask := 3, ddepth := true } } }

/-- The hypotheses of a return: one entry, or two, can be popped. -/
def returnable (s : State) (m w : DWord) : Prop := s.clears { terminal := true } ∧ popped s 1 m w

theorem meets_Returns :
    (∃ (s : State) (m w : DWord), returnable s m w ∧ s.wave.arch.mode = .supervisor ∧ w.toNat % 4 = 1) ∧
    (∃ (s : State) (m w q x : DWord), returnable s m w ∧ s.wave.arch.mode = .user ∧ s.wave.arch.ddepth = true ∧ w.toNat % 4 = 1 ∧
      popped s 2 q x) ∧
    (∃ (s : State) (m w : DWord) (b : OpaqueBlock), returnable s m w ∧ s.wave.arch.mode = .user ∧ s.wave.arch.ddepth = true ∧
      w.toNat % 4 = 2 ∧ s.blockOf w = some b) ∧
    (∃ (s : State) (m w : DWord) (b : OpaqueBlock), returnable s m w ∧ s.wave.arch.mode = .supervisor ∧ w.toNat % 4 = 2 ∧ s.blockOf w = some b) ∧
    (∃ (s : State) (m w : DWord) (b : OpaqueBlock), returnable s m w ∧ s.wave.arch.mode = .hypervisor ∧ w.toNat % 4 = 2 ∧ s.blockOf w = some b) :=
  ⟨⟨twoDeep .supervisor 0x4000000000000041 [], 0xF, 0x4000000000000041, ⟨clears_of_clearsB (by decide +kernel),
      by decide +kernel, by decide +kernel, ok_of_entryIs (by decide +kernel)⟩, by decide +kernel, by decide⟩,
   ⟨twoDeep .user 0x4000000000000041 [], 0xF, 0x4000000000000041, 0xF, 0x4000000000000081, ⟨clears_of_clearsB (by decide +kernel),
      by decide +kernel, by decide +kernel, ok_of_entryIs (by decide +kernel)⟩, by decide +kernel, by decide +kernel, by decide,
      by decide +kernel, by decide +kernel, ok_of_entryIs (by decide +kernel)⟩,
   ⟨twoDeep .user 2 [someBlock], 0xF, 2, someBlock, ⟨clears_of_clearsB (by decide +kernel),
      by decide +kernel, by decide +kernel, ok_of_entryIs (by decide +kernel)⟩, by decide +kernel, by decide +kernel, by decide, by decide +kernel⟩,
   ⟨twoDeep .supervisor 2 [someBlock], 0xF, 2, someBlock, ⟨clears_of_clearsB (by decide +kernel),
      by decide +kernel, by decide +kernel, ok_of_entryIs (by decide +kernel)⟩, by decide +kernel, by decide, by decide +kernel⟩,
   ⟨twoDeep .hypervisor 2 [someBlock], 0xF, 2, someBlock, ⟨clears_of_clearsB (by decide +kernel),
      by decide +kernel, by decide +kernel, ok_of_entryIs (by decide +kernel)⟩, by decide +kernel, by decide, by decide +kernel⟩⟩

/-- An atomic on the local store whose time has come, the last step of its wave's instruction 7. -/
def dueAtomic : Held := { slot := 0, at_ := 0, kind := .atomic (.store 0 0x3FC) { op := 1, size := 4, b := 9, e := 0 } 7 [.scal 5 0] false [] none }

def atomicIsDue : State :=
  let s := ending [] .user
  { s with clock := { s.clock with sectors := List.replicate 6 (64 * 8) }, core := { s.core with held := [dueAtomic] },
           wave := { s.wave with ll := [{ id := 7, flag := none, left := 1, writes := [] }] } }

theorem meets_AtomicsArePerformed : ∃ (u : State) (w : Wave) (l : LongOp), atomicDue u 0 dueAtomic (.store 0 0x3FC) ∧
    u.waveAt ⟨0, dueAtomic.slot⟩ = some w ∧ w.ll.find? (·.id == 7) = some l :=
  ⟨atomicIsDue, atomicIsDue.wave, { id := 7, flag := none, left := 1, writes := [] },
    ⟨rfl, by decide +kernel, fun x h => (by cases h), by decide +kernel, by decide +kernel, by decide +kernel⟩, by decide +kernel, by decide +kernel⟩

/-- A state whose wave is stalled at a word. -/
def stalledOn (s : State) (x : Word) : State :=
  { s with wave := { s.wave with status := .stalled, pos := { s.wave.pos with words := [0x04000000, x] } } }

/-- The hypotheses of the completion of a stalled word. -/
def completes (s : State) (i : Instr) : Prop :=
  s.focus ⟨0, 0⟩ = some s ∧ s.wave.status = .stalled ∧ s.wave.stop = none ∧ s.wave.pending = none ∧
  (∃ v, s.viAt s.wave.env.vi = some v ∧ v.phase = .active) ∧ encode i = some (s.wave.pos.words.getD s.wave.pos.ridx 0) ∧ waitOver s i

theorem meets_StalledWordsComplete_waits :
    completes (stalledOn (ending [] .user) 0x8C180001) (.waitc 3 1) ∧
    completes (stalledOn (tagged [(127, 0x8000000000000000)] 0xFFFFFFFFFFFFFFFF) 0x8C203F80) (.tagwany 127) ∧
    completes (stalledOn (tagged [(127, 0x8000000000000000)] 0xFFFFFFFFFFFFFFFF) 0x8C403F80) (.tagwall 127) :=
  ⟨⟨by decide +kernel, rfl, rfl, rfl, ⟨_, rfl, rfl⟩, by decide +kernel, clears_of_clearsB (by decide +kernel), by decide +kernel⟩,
   ⟨by decide +kernel, rfl, rfl, rfl, ⟨_, rfl, rfl⟩, by decide +kernel, clears_of_clearsB (by decide +kernel), .inr (by decide +kernel)⟩,
   ⟨by decide +kernel, rfl, rfl, rfl, ⟨_, rfl, rfl⟩, by decide +kernel, clears_of_clearsB (by decide +kernel), by decide +kernel⟩⟩

/-- The wave has arrived at a barrier of its reach. -/
def arrivedReach : State :=
  let s := arrived true
  { s with wave := { s.wave with arrival := some { reachLevel := true, number := 15, released := true, complete := true } } }

theorem meets_StalledWordsComplete_others :
    completes (stalledOn (ending [] .user) 0x9000001F) (.fence 31) ∧ completes (stalledOn (ending [] .user) 0x90200000) .fenceTc ∧
    completes (stalledOn (arrived true) 0x9040000F) (.bar 15) ∧ completes (stalledOn arrivedReach 0x9060000F) (.rbar 15) :=
  ⟨⟨by decide +kernel, rfl, rfl, rfl, ⟨_, rfl, rfl⟩, by decide +kernel, clears_of_clearsB (by decide +kernel), by decide, none_held rfl⟩,
   ⟨by decide +kernel, rfl, rfl, rfl, ⟨_, rfl, rfl⟩, by decide +kernel, clears_of_clearsB (by decide +kernel), none_held rfl, none_open rfl⟩,
   ⟨by decide +kernel, rfl, rfl, rfl, ⟨_, rfl, rfl⟩, by decide +kernel, clears_of_clearsB (by decide +kernel), rfl, _, rfl⟩,
   ⟨by decide +kernel, rfl, rfl, rfl, ⟨_, rfl, rfl⟩, by decide +kernel, clears_of_clearsB (by decide +kernel), rfl, _, rfl⟩⟩

/-! ## Asynchronous operations -/

/-- Bytes at a key of memory. -/
def bytesFrom (k : Nat) (bs : List Nat) : List Host.Cell :=
  Cells.writeList (w := 8) [] k (bs.map (BitVec.ofNat 8 ·))

/-- A descriptor of 4 rows of 8 elements of `f32` at tensor address 0x6000000000000000, under entry 1 of the capability table. -/
def someTensor : List Nat :=
  [0, 0, 0, 0, 0, 0, 0, 0x60, 0, 2, 1, 0, 1, 0, 0, 0, 8, 0, 0, 0, 4, 0, 0, 0, 1, 0, 0, 0, 1, 0, 0, 0, 32]

/-- A capability table with one entry: both rights on tensor descriptors, from user mode up. -/
def someCaps : List Nat := [1, 0, 0, 0, 0, 0, 0, 0, 0, 0, 0, 0, 0, 0, 0, 0, 4, 0, 3, 0, 0, 0, 0, 0]

/-- A collective of this package alone: 16 elements of `f32` from 0x6000000000000000 to 0x6000000000000100, summed. -/
def someCollective : List Nat := [0, 0, 0, 0, 0, 0, 0, 0x60, 0, 1, 0, 0, 0, 0, 0, 0x60, 1, 0, 0, 0, 0, 0, 0, 0]

/-- A wave with a tensor table at 0x4000000000010000 and a collective's descriptor at 0x4000000000010040. -/
def engines (ss : Cells 64) (vs : Cells 32) (hs : List Word) : State :=
  let s := setting ss vs
  { s with mem := bytesFrom (2 ^ 40 + 2 ^ 16) someTensor ++ bytesFrom (2 ^ 40 + 2 ^ 16 + 64) someCollective ++ bytesFrom (2 ^ 40 + 0x30000) someCaps,
           wave := { s.wave with hints := hs, env := { s.wave.env with ttBase := 0x4000000000010000, ttCount := 1 } } }

theorem engines_memory : Memory.wf (engines [] [] []).mem = true := by decide +kernel

/-- What a check answers, as a Bool. -/
def answersOk {e a : Type} [DecidableEq a] (x : Except e a) (y : a) : Bool :=
  match x with
  | .ok z => decide (z = y)
  | .error _ => false

theorem ok_of_answersOk {e a : Type} [DecidableEq a] {x : Except e a} {y : a} (h : answersOk x y = true) : x = .ok y := by
  cases x with
  | ok z => rw [of_decide_eq_true h]
  | error c => cases h

theorem meets_AsynchronousOperationsStart_copy : ∃ (s : State) (d a b : BitVec 7) (f : Form) (ss sd : Side),
    groupForm (.xcopy d a b) = some f ∧ s.clears f ∧ paramGood (s.wave.s b.toNat) ∧ (s.wave.s b.toNat).getLsbD 47 = false ∧
    0 < bitsN (s.wave.s b.toNat).toNat 31 0 ∧ bitsN (s.wave.s b.toNat).toNat 31 0 ≤ 2 ^ 24 ∧
    s.side (s.wave.s a.toNat) = .ok ss ∧ s.side (s.wave.s d.toNat) = .ok sd ∧ ¬(ss = .store ∧ sd = .store) ∧
    ¬(ss.isRemote = true ∧ sd.isRemote = true) ∧
    (ss.isRemote = false → s.checkRange .read (s.wave.s a.toNat) (bitsN (s.wave.s b.toNat).toNat 31 0) = .ok ()) ∧
    (sd.isRemote = false → s.checkRange .write (s.wave.s d.toNat) (bitsN (s.wave.s b.toNat).toNat 31 0) = .ok ()) ∧
    counterRoom s.wave (counterNamed 0 (s.wave.s b.toNat)) :=
  ⟨engines [(125, 0x400), (126, 0x6000000000000000), (127, 0x2000000000000000)] [] [], 127, 126, 125, _, .tensor, .store, rfl,
    clears_of_clearsB (by decide +kernel), by unfold paramGood; decide +kernel, by decide +kernel, by decide +kernel, by decide +kernel,
    ok_of_answersOk (by decide +kernel), ok_of_answersOk (by decide +kernel), by decide, by decide,
    fun _ => ok_of_answersOk (by decide +kernel), fun _ => ok_of_answersOk (by decide +kernel), fun n h => by cases h; decide +kernel⟩

/-- The tile of four columns and two rows that the witness copies to local store. -/
def someTile : Tile :=
  { d := { bytes := (someTensor ++ List.replicate 31 0).map (BitVec.ofNat 8 ·) }, cols := 4, rows := 2, c0 := 0, r0 := 0,
    near := 0x2000000000000000 }

def tiling : State := engines [(125, 0x20004), (127, 0x2000000000000000)] [] []

theorem meets_AsynchronousOperationsStart_tile :
    ∃ (f : Form) (sn st : Side), groupForm (.xcopyt 127 126 125) = some f ∧ tiling.clears f ∧
    paramGood (tiling.wave.s 125) ∧ someTile.cols = bitsN (tiling.wave.s 125).toNat 15 0 ∧ someTile.rows = bitsN (tiling.wave.s 125).toNat 31 16 ∧
    (tiling.wave.s 125).getLsbD 47 = false ∧ tiling.wave.s 127 = someTile.near ∧
    tiling.side someTile.near = .ok sn ∧ sn.isRemote = false ∧ tiling.tensor (bitsN (tiling.wave.s 126).toNat 15 0) 0 = .got someTile.d ∧
    tiling.side someTile.d.base = .ok st ∧ someTile.rows * someTile.q ≤ 2 ^ 24 ∧ someTile.near.toNat % 16 = 0 ∧
    tiling.checkRange .write someTile.near (someTile.rows * someTile.q) = .ok () ∧
    (∀ r ∈ someTile.rowRanges, tiling.checkSide st .read r.1 r.2 = .ok ()) ∧ counterRoom tiling.wave (counterNamed 0 (tiling.wave.s 125)) :=
  ⟨_, .store, .tensor, rfl, clears_of_clearsB (by decide +kernel), by unfold paramGood; decide +kernel, by decide +kernel, by decide +kernel, by decide +kernel,
    by decide +kernel, ok_of_answersOk (by decide +kernel), rfl, by decide +kernel, ok_of_answersOk (by decide +kernel), by decide +kernel,
    by decide, ok_of_answersOk (by decide +kernel),
    fun r h => ok_of_answersOk (List.all_eq_true.1
      (show (someTile.rowRanges.all fun r => answersOk (tiling.checkSide .tensor .read r.1 r.2) ()) = true by decide +kernel) r h),
    fun n h => by cases h; decide +kernel⟩

/-- Lane 0 gathers from 0x6000000000000040. -/
def gathering : State :=
  let s := engines [(125, 2), (127, 0x2000000000000000)] [(64, 0x40), (128, 0x60000000)] []
  { s with wave := { s.wave with arch := { s.wave.arch with exm := 1 } } }

theorem meets_AsynchronousOperationsStart_gather :
    (∃ (s : State) (d a b : BitVec 7) (f : Form), groupForm (.xgath d a b) = some f ∧ s.clears f ∧ s.wave.active = []) ∧
    (∃ (f : Form) (sd : Side), groupForm (.xgath 127 1 125) = some f ∧ gathering.clears f ∧ gathering.wave.active ≠ [] ∧
      paramGood (gathering.wave.s 125) ∧ (gathering.wave.s 125).getLsbD 47 = false ∧ bitsN (gathering.wave.s 125).toNat 31 0 ≤ 4 ∧
      gathering.side (gathering.wave.s 127) = .ok sd ∧ sd.isRemote = false ∧
      (gathering.wave.s 127).toNat % 2 ^ bitsN (gathering.wave.s 125).toNat 31 0 = 0 ∧
      (∀ g ∈ gathering.wave.active.map fun l => (l, gathering.wave.pair 1 l),
        gathering.gatherLane (2 ^ bitsN (gathering.wave.s 125).toNat 31 0) (gathering.wave.s 127) g.1 g.2 = .ok g) ∧
      counterRoom gathering.wave (counterNamed 2 (gathering.wave.s 125))) :=
  ⟨⟨emptied (engines [] [] []), 127, 126, 125, _, rfl, clears_of_clearsB (by decide +kernel), by decide +kernel⟩,
   ⟨_, .store, rfl, clears_of_clearsB (by decide +kernel), by decide +kernel, by unfold paramGood; decide +kernel, by decide +kernel, by decide +kernel,
     ok_of_answersOk (by decide +kernel), rfl, by decide +kernel,
     fun g h => ok_of_answersOk (List.all_eq_true.1
       (show ((gathering.wave.active.map fun l => (l, gathering.wave.pair 1 l)).all fun g =>
         answersOk (gathering.gatherLane (2 ^ bitsN (gathering.wave.s 125).toNat 31 0) (gathering.wave.s 127) g.1 g.2) g) = true by
           decide +kernel) g h),
     fun n h => by cases h; decide +kernel⟩⟩

/-- XRATOM on this package's memory, with the control word in s2. -/
def remoting : State := engines [(126, 0x6000000000000040)] [] [0x1C208000]

theorem meets_AsynchronousOperationsStart_remote :
    (∃ (f : Form) (m : Member) (ps : List Place), groupForm (.xratom 127 126 125) = some f ∧ remoting.clears f ∧
      xratomLegal (remoting.wave.s (remoting.wave.group.extra.headD 0)) remoting.wave.group.extra.length = true ∧
      remoting.xratomTarget (remoting.wave.s 126)
        (atomicOf [remoting.wave.s (remoting.wave.group.extra.headD 0), remoting.wave.s 125,
                   remoting.wave.s (remoting.wave.group.extra.getD 1 0)]).size = .ok (m, ps)) ∧
    (∃ (s : State) (d a : BitVec 7) (f : Form) (key : Nat), groupForm (.amsg d a 0) = some f ∧ s.clears f ∧ d.toNat % 2 = 0 ∧
      s.messageTarget (s.wave.s a.toNat) = .ok key ∧ s.wave.ocx < 63) :=
  ⟨⟨_, { ix := 0, pkg := 0, vi := 0, asidBase := 0 }, (List.range 4).map fun k => Place.mem (64 + k), rfl,
     clears_of_clearsB (by decide +kernel), by decide +kernel, ok_of_answersOk (by decide +kernel)⟩,
   ⟨engines [(126, 0x6000000000000040)] [] [], 126, 126, _, 64, rfl, clears_of_clearsB (by decide +kernel), by decide, ok_of_answersOk (by decide +kernel),
     by decide +kernel⟩⟩

/-- XCOLL of 16 elements. -/
def collecting : State := engines [(126, 16), (127, 0x4000000000010040)] [] []

theorem meets_AsynchronousOperationsStart_collective :
    ∃ (f : Form) (ps : List Place) (own : Nat), groupForm (.xcoll 127 126) = some f ∧ collecting.clears f ∧
    paramGood (collecting.wave.s 126) ∧ (collecting.wave.s 126).getLsbD 47 = false ∧ 0 < bitsN (collecting.wave.s 126).toNat 31 0 ∧
    bitsN (collecting.wave.s 126).toNat 31 0 ≤ 2 ^ 24 ∧ (collecting.wave.s 127).toNat % 64 = 0 ∧ spaceOf (collecting.wave.s 127) = 2 ∧
    collecting.places collecting.wave.env collecting.wave.arch.mode .read 0 (collecting.wave.s 127) 64 = .ok ps ∧
    collecting.blocked ps = false ∧ collecting.ownIndex collecting.wave.env.vi = some own ∧
    (let c : Coll := { desc := withDet (ps.map collecting.byte) collecting.wave.env.det, count := bitsN (collecting.wave.s 126).toNat 31 0, own := own }
     c.legal (((collecting.viAt collecting.wave.env.vi).map (·.view)).getD []) = true ∧ collecting.collRanges c = none) ∧
    counterRoom collecting.wave (counterNamed 3 (collecting.wave.s 126)) :=
  ⟨_, (List.range 64).map fun k => Place.mem (2 ^ 40 + 2 ^ 16 + 64 + k), 0, rfl, clears_of_clearsB (by decide +kernel),
    by unfold paramGood; decide +kernel,
    by decide +kernel, by decide +kernel, by decide +kernel, by decide +kernel, by decide +kernel, ok_of_answersOk (by decide +kernel),
    by decide +kernel, by decide +kernel, by decide +kernel, fun n h => by cases h; decide +kernel⟩

/-! ## Matrix words -/

/-- The matrix set held by the wave's team, all tiles one `f32`; tiles 6 to 8 narrow; another team of the grid on the core behind port 1. -/
def matrixWave (ss : Cells 64) (hs : List Word) : State :=
  let s := setting ss []
  let m : MatrixData := { s.core.matrix.data with tcs := [(6, 0x41), (7, 0x41), (8, 0x41), (9, 0x10000), (10, 0x100), (11, 0x100)] }
  { s with
    wave := { s.wave with hints := hs },
    core := { s.core with matrix := { s.core.matrix with data := m, holder := some (0, 0) } },
    cores := [{ Core.empty 1 with residents :=
      [{ grid := 0, team := 1, slots := [0], vbytes := 0, lbase := 0, lsize := 0, regsFreed := false }] }] }

/-- The hypotheses of a queued matrix word. -/
def queues (i : Instr) (s : State) : Prop :=
  ∃ (f : Form) (o : MatrixOp) (ok : Prop), matrixForm i = some f ∧ matrixRow s i = some (o, ok) ∧ s.wave.full = true ∧ s.clears f ∧
    s.core.matrix.holder = some (s.wave.env.grid, s.wave.env.team) ∧ ok ∧ reachesAll o ∧ s.core.matrix.queue.length < 16 ∧
    s.wave.openBatch.size < 64

theorem reaches_of_unreachable {o : MatrixOp} (h : o.unreachable = none) : reachesAll o := by
  intro r hr
  have h1 := List.findSome?_eq_none_iff.1 h r hr
  cases h2 : o.env.localRuns r.1 r.2 with
  | ok x => exact ⟨x, rfl⟩
  | error c => rw [h2] at h1; cases h1

theorem meets_MatrixWordsQueue_products :
    queues (.mma 0 1 127 0 0) (matrixWave [] []) ∧ queues (.mmas 6 7 127 0 0) (matrixWave [] [0x1C408180]) ∧
    queues (.mmax 9 10 127 0 0 4) (matrixWave [] []) :=
  ⟨⟨_, _, _, rfl, rfl, by decide +kernel, clears_of_clearsB (by decide +kernel), rfl, by decide +kernel,
     reaches_of_unreachable (by decide +kernel), by decide +kernel, by decide +kernel⟩,
   ⟨_, _, _, rfl, rfl, by decide +kernel, clears_of_clearsB (by decide +kernel), rfl, by decide +kernel,
     reaches_of_unreachable (by decide +kernel), by decide +kernel, by decide +kernel⟩,
   ⟨_, _, _, rfl, rfl, by decide +kernel, clears_of_clearsB (by decide +kernel), rfl, by decide +kernel,
     reaches_of_unreachable (by decide +kernel), by decide +kernel, by decide +kernel⟩⟩

theorem meets_MatrixWordsQueue_moves :
    queues (.tld 15 127) (matrixWave [(127, 0x20000000000003F0)] []) ∧ queues (.tst 15 127) (matrixWave [(127, 0x2000000000000000)] []) ∧
    queues (.tzero 15) (matrixWave [] []) ∧ queues (.txfer 15 1) (matrixWave [] []) ∧ queues (.trecv 15 1) (matrixWave [] []) :=
  ⟨⟨_, _, _, rfl, rfl, by decide +kernel, clears_of_clearsB (by decide +kernel), rfl, by decide +kernel,
     reaches_of_unreachable (by decide +kernel), by decide +kernel, by decide +kernel⟩,
   ⟨_, _, _, rfl, rfl, by decide +kernel, clears_of_clearsB (by decide +kernel), rfl, by decide +kernel,
     reaches_of_unreachable (by decide +kernel), by decide +kernel, by decide +kernel⟩,
   ⟨_, _, _, rfl, rfl, by decide +kernel, clears_of_clearsB (by decide +kernel), rfl, trivial,
     reaches_of_unreachable (by decide +kernel), by decide +kernel, by decide +kernel⟩,
   ⟨_, _, _, rfl, rfl, by decide +kernel, clears_of_clearsB (by decide +kernel), rfl,
     ⟨1, by decide +kernel, _, List.mem_singleton.2 rfl, rfl⟩, reaches_of_unreachable (by decide +kernel), by decide +kernel, by decide +kernel⟩,
   ⟨_, _, _, rfl, rfl, by decide +kernel, clears_of_clearsB (by decide +kernel), rfl, trivial,
     reaches_of_unreachable (by decide +kernel), by decide +kernel, by decide +kernel⟩⟩

theorem meets_MatrixWordsQueue_accumulators :
    queues (.amcpOut 127) (matrixWave [(127, 0x10)] []) ∧ queues (.amcpIn 127) (matrixWave [] []) ∧ queues (.amzero 127) (matrixWave [] []) :=
  ⟨⟨_, _, _, rfl, rfl, by decide +kernel, clears_of_clearsB (by decide +kernel), rfl, by decide +kernel,
     reaches_of_unreachable (by decide +kernel), by decide +kernel, by decide +kernel⟩,
   ⟨_, _, _, rfl, rfl, by decide +kernel, clears_of_clearsB (by decide +kernel), rfl, by decide +kernel,
     reaches_of_unreachable (by decide +kernel), by decide +kernel, by decide +kernel⟩,
   ⟨_, _, _, rfl, rfl, by decide +kernel, clears_of_clearsB (by decide +kernel), rfl, by decide +kernel,
     reaches_of_unreachable (by decide +kernel), by decide +kernel, by decide +kernel⟩⟩

theorem meets_MatrixWordsQueue_configuration :
    (∃ (s : State) (r : BitVec 7), s.wave.full = true ∧ s.clears { ss := [r.toNat], lookout := false } ∧
      s.core.matrix.holder = some (s.wave.env.grid, s.wave.env.team) ∧ tcLegal (s.wave.s r.toNat) = false) ∧
    (∃ (s : State) (r : BitVec 7), s.wave.full = true ∧ s.clears { ss := [r.toNat], lookout := false } ∧
      s.core.matrix.holder = some (s.wave.env.grid, s.wave.env.team) ∧ tcLegal (s.wave.s r.toNat) = true) ∧
    (∃ (i : Instr) (s : State) (f : Form), matrixForm i = some f ∧ s.wave.full = true ∧ s.clears f ∧
      (∃ h, s.core.matrix.holder = some h ∧ h ≠ (s.wave.env.grid, s.wave.env.team) ∧ s.teamIdle h.1 h.2 = false) ∧
      ∀ a b r z t m, i ≠ .mmax a b r z t m) :=
  ⟨⟨matrixWave [(127, 3)] [], 127, by decide +kernel, clears_of_clearsB (by decide +kernel), rfl, by decide +kernel⟩,
   ⟨matrixWave [(127, 0x0F0F00)] [], 127, by decide +kernel, clears_of_clearsB (by decide +kernel), rfl, by decide +kernel⟩,
   ⟨.tzero 0,
     (let s := matrixWave [] []
      { s with core := { s.core with matrix := { s.core.matrix with holder := some (0, 1) } },
               waves := [{ s.wave with slot := 1, env := { s.wave.env with team := 1 } }] }), _, rfl, by decide +kernel,
     clears_of_clearsB (by decide +kernel), ⟨_, rfl, by decide, by decide +kernel⟩, by intro a b r z t m h; cases h⟩⟩

end Sys2Proof.Machine
end

