-- ==== Sys2Proof/Tests/WitnessE.lean ====
section
/-!
SUPPORT. Concrete states and operands that meet the hypotheses of the statements on launches, ferries, channels, keepers and the command
registers, clause by clause.
-/
namespace Sys2Proof.Machine

set_option Elab.async false

open Sys2Proof.Claims

/-- The bytes of an entry of the capability table: every right on one object, from user mode up (R95). -/
def capEntry (kind obj : Nat) : List Nat := [kind, 0, 7, 0, obj, 0, 0, 0, 0, 0, 0, 0, 0, 0, 0, 0]

/-- A table of three entries: queue 3, channel 63, pin window 7. -/
def threeCaps : List Nat := [3, 0, 0, 0, 0, 0, 0, 0, 0, 0, 0, 0, 0, 0, 0, 0] ++ capEntry 1 3 ++ capEntry 2 63 ++ capEntry 3 7

/-- A launch record whose byte 5 is `flags`. -/
def recordBytes (flags : Nat) : List Nat := [0, 0, 0, 0, 0, flags]

/-- A device-fed queue 3 of sixteen slots in a queue state, with K records written and none accepted. -/
def someQueue (qst k : Nat) : Queue :=
  { q := 3, base := 0x4000000000012000, log := 4, deviceFed := true, qst := qst, qacc := 0, e := 0, k := k, waitSince := none }

def someRecord : LaunchRecord :=
  { lseq := 0, prio := 0, flags := 0, shape := 0, nV := 128, nS := 128, llocal := 0, privLane := 64, privWave := 128, gx := 1, gy := 1, gz := 1,
    image := 0x4000000000000000, entry := 0, dep := 0, compl := 0, parent := 0, args := [], ranges := [], ttBase := 0, ttCount := 0,
    privBase := 0x6000000000008000, privSize := 0x1000, segMap := 0, ovfBase := 0, ovfSize := 0 }

/-- Grid 0 at a depth with one running team that has a team entry or none. -/
def someGrid (depth : Nat) (entry : Option Nat) : Grid :=
  { id := 0, vi := 0, q := 3, order := 0, depth := depth, ancestors := [], extents := [], record := someRecord, sections := someEnv.sections, svText := [],
    reaches := [{ index := 0, phase := .running, relaunches := 0,
                  teams := [{ team := 0, cores := [0], lbase := 0, ended := false, entry := entry }] }],
    map := some { high := 0, dwell := 0, spare := [], segs := [{ seg := 2, primary := 0, replicas := [], loading := none, hotSince := none }] },
    reservedAt := none, passedSince := none, perr := 0, cefail := 0, firstFail := 0, creln := 0, failed := false }

/-- A wave of that grid about to launch a record through queue `q`. -/
def launching (flags q qst k depth : Nat) (entry : Option Nat) : State :=
  let s := setting [(126, 0x4000000000010000), (127, BitVec.ofNat 64 q)] []
  { s with
    mem := bytesFrom (2 ^ 40 + 2 ^ 16) (recordBytes flags) ++ bytesFrom (2 ^ 40 + 0x30000) threeCaps,
    vis := [{ someVi with queues := [someQueue qst k] }], grids := [someGrid depth entry],
    launch := { s.launch with entries := [{ index := 9, inUse := true, gen := 1, outstanding := 0, perr := 0 }] } }

/-- What every clause of LAUNCH asks. -/
def mayLaunch (s : State) (v : Vi) (g : Grid) (ps : List Place) : Prop :=
  ∃ f, groupForm (.launch 125 126 127) = some f ∧ s.clears f ∧ (s.wave.s 126).toNat % 128 = 0 ∧ spaceOf (s.wave.s 126) = 2 ∧
    s.granted s.wave.env.vi s.wave.arch.mode 1 (bitsN (s.wave.s 127).toNat 4 0) 2 = true ∧
    s.places s.wave.env s.wave.arch.mode .read 0 (s.wave.s 126) 128 = .ok ps ∧ s.blocked ps = false ∧
    s.viAt s.wave.env.vi = some v ∧ s.gridAt s.wave.env.grid = some g

def recordPlaces : List Place := (List.range 128).map fun k => Place.mem (2 ^ 40 + 2 ^ 16 + k)

theorem meets_LaunchesAndFerries_launch_checks :
    (∃ (s : State) (v : Vi) (g : Grid) (ps : List Place), mayLaunch s v g ps ∧ v.queueAt (bitsN (s.wave.s 127).toNat 4 0) = none) ∧
    (∃ (s : State) (v : Vi) (g : Grid) (ps : List Place) (u : Queue), mayLaunch s v g ps ∧
      v.queueAt (bitsN (s.wave.s 127).toNat 4 0) = some u ∧ 32 ≤ (s.wave.s 127).toNat) ∧
    (∃ (s : State) (v : Vi) (g : Grid) (ps : List Place) (u : Queue), mayLaunch s v g ps ∧ v.queueAt 3 = some u ∧ (s.wave.s 127).toNat = 3 ∧
      3 < v.desc.qcount ∧ u.deviceFed = true ∧ u.qst ≠ 1) ∧
    (∃ (s : State) (v : Vi) (g : Grid) (ps : List Place) (u : Queue), mayLaunch s v g ps ∧ v.queueAt 3 = some u ∧ (s.wave.s 127).toNat = 3 ∧
      3 < v.desc.qcount ∧ u.deviceFed = true ∧ u.qst = 1 ∧ 8 ≤ g.depth) ∧
    (∃ (s : State) (v : Vi) (g : Grid) (ps : List Place) (u : Queue), mayLaunch s v g ps ∧ v.queueAt 3 = some u ∧ (s.wave.s 127).toNat = 3 ∧
      3 < v.desc.qcount ∧ u.deviceFed = true ∧ u.qst = 1 ∧ g.depth < 8 ∧ queueFull s v u) :=
  ⟨⟨(let s := launching 0 3 1 0 0 none; { s with vis := [{ someVi with queues := [] }] }), { someVi with queues := [] }, someGrid 0 none, recordPlaces,
     ⟨_, rfl, clears_of_clearsB (by decide +kernel), by decide +kernel, by decide +kernel, by decide +kernel,
      ok_of_answersOk (by decide +kernel), by decide +kernel, rfl, rfl⟩, by decide +kernel⟩,
   ⟨launching 0 35 1 0 0 none, _, someGrid 0 none, recordPlaces, someQueue 1 0,
     ⟨_, rfl, clears_of_clearsB (by decide +kernel), by decide +kernel, by decide +kernel, by decide +kernel,
      ok_of_answersOk (by decide +kernel), by decide +kernel, rfl, rfl⟩, by decide +kernel, by decide +kernel⟩,
   ⟨launching 0 3 2 0 0 none, _, someGrid 0 none, recordPlaces, someQueue 2 0,
     ⟨_, rfl, clears_of_clearsB (by decide +kernel), by decide +kernel, by decide +kernel, by decide +kernel,
      ok_of_answersOk (by decide +kernel), by decide +kernel, rfl, rfl⟩, by decide +kernel, by decide +kernel, by decide +kernel, rfl, by decide⟩,
   ⟨launching 0 3 1 0 8 none, _, someGrid 8 none, recordPlaces, someQueue 1 0,
     ⟨_, rfl, clears_of_clearsB (by decide +kernel), by decide +kernel, by decide +kernel, by decide +kernel,
      ok_of_answersOk (by decide +kernel), by decide +kernel, rfl, rfl⟩, by decide +kernel, by decide +kernel, by decide +kernel, rfl, rfl, by decide⟩,
   ⟨launching 0 3 1 16 7 none, _, someGrid 7 none, recordPlaces, someQueue 1 16,
     ⟨_, rfl, clears_of_clearsB (by decide +kernel), by decide +kernel, by decide +kernel, by decide +kernel,
      ok_of_answersOk (by decide +kernel), by decide +kernel, rfl, rfl⟩, by decide +kernel, by decide +kernel, by decide +kernel, rfl, rfl, by decide,
      by unfold queueFull; decide +kernel⟩⟩

theorem meets_LaunchesAndFerries_launches :
    (∃ (s : State) (v : Vi) (g : Grid) (u : Queue), mayLaunch s v g recordPlaces ∧ v.queueAt 3 = some u ∧ (s.wave.s 127).toNat = 3 ∧
      u.qst = 1 ∧ g.depth < 8 ∧ ¬queueFull s v u ∧ bitsN (fieldAt (recordPlaces.map s.byte) 5 1) 3 3 = 1) ∧
    (∃ (s : State) (v : Vi) (g : Grid) (u : Queue), mayLaunch s v g recordPlaces ∧ v.queueAt 3 = some u ∧ (s.wave.s 127).toNat = 3 ∧
      u.qst = 1 ∧ g.depth < 8 ∧ ¬queueFull s v u ∧ bitsN (fieldAt (recordPlaces.map s.byte) 5 1) 3 3 = 0 ∧
      s.teamEntry g s.wave.env.team = none) ∧
    (∃ (s : State) (v : Vi) (g : Grid) (u : Queue) (e : TeamEntry), mayLaunch s v g recordPlaces ∧ v.queueAt 3 = some u ∧ (s.wave.s 127).toNat = 3 ∧
      u.qst = 1 ∧ g.depth < 8 ∧ ¬queueFull s v u ∧ bitsN (fieldAt (recordPlaces.map s.byte) 5 1) 3 3 = 0 ∧
      s.teamEntry g s.wave.env.team = some e) :=
  ⟨⟨launching 8 3 1 0 7 none, _, someGrid 7 none, someQueue 1 0,
     ⟨_, rfl, clears_of_clearsB (by decide +kernel), by decide +kernel, by decide +kernel, by decide +kernel,
      ok_of_answersOk (by decide +kernel), by decide +kernel, rfl, rfl⟩, by decide +kernel, by decide +kernel, rfl, by decide,
      by unfold queueFull; decide +kernel, by decide +kernel⟩,
   ⟨launching 0 3 1 0 7 (some 8), _, someGrid 7 (some 8), someQueue 1 0,
     ⟨_, rfl, clears_of_clearsB (by decide +kernel), by decide +kernel, by decide +kernel, by decide +kernel,
      ok_of_answersOk (by decide +kernel), by decide +kernel, rfl, rfl⟩, by decide +kernel, by decide +kernel, rfl, by decide,
      by unfold queueFull; decide +kernel, by decide +kernel, by decide +kernel⟩,
   ⟨launching 0 3 1 0 7 (some 9), _, someGrid 7 (some 9), someQueue 1 0, { index := 9, inUse := true, gen := 1, outstanding := 0, perr := 0 },
     ⟨_, rfl, clears_of_clearsB (by decide +kernel), by decide +kernel, by decide +kernel, by decide +kernel,
      ok_of_answersOk (by decide +kernel), by decide +kernel, rfl, rfl⟩, by decide +kernel, by decide +kernel, rfl, by decide,
      by unfold queueFull; decide +kernel, by decide +kernel, by decide +kernel⟩⟩

/-- The same wave at the last word of its clause, with one attached child outstanding. -/
def awaiting (ss : Cells 64) : State :=
  let s := ending ss .user
  { s with grids := [someGrid 0 (some 9)],
           launch := { s.launch with entries := [{ index := 9, inUse := true, gen := 1, outstanding := 1, perr := 2 }] } }

/-- A wave of a ferry-mode grid whose image has a segment 2 behind its code. -/
def ferrying (ss : Cells 64) (vs : Cells 32) (r : Nat) : State :=
  let s := setting ss vs
  { s with grids := [someGrid 0 none],
           wave := { s.wave with env := { s.wave.env with ferry := true, sections :=
                                            s.wave.env.sections ++ [{ kind := 2, seg := 2, off := 4096, size := 64 }] },
                                 arch := { s.wave.arch with exm := 3 }, pos := { s.wave.pos with ridx := r } } }

theorem meets_LaunchesAndFerries_spawn :
    (∃ (s : State) (d a : BitVec 7), s.clears { terminal := true, ss := [d.toNat, a.toNat], lookout := false } ∧
      (s.children s.wave.env.grid s.wave.env.team).1 ≤ (s.wave.s a.toNat).toNat) ∧
    (∃ (s : State) (d a : BitVec 7), s.clears { terminal := true, ss := [d.toNat, a.toNat], lookout := false } ∧
      (s.wave.s a.toNat).toNat < (s.children s.wave.env.grid s.wave.env.team).1) ∧
    (∃ (s : State) (d a b : BitVec 7) (f : Form), groupForm (.spawn d a b) = some f ∧ s.clears f ∧ s.wave.active ≠ [] ∧
      (∀ l ∈ s.wave.active, s.wave.env.spawnEntry (s.wave.v a.toNat l).toNat = true) ∧ s.wave.env.ferry = false) ∧
    (∃ (s : State) (d a b : BitVec 7) (f : Form) (g : Grid), groupForm (.spawn d a b) = some f ∧ s.clears f ∧ s.wave.active ≠ [] ∧
      (∀ l ∈ s.wave.active, s.wave.env.spawnEntry (s.wave.v a.toNat l).toNat = true) ∧ s.wave.env.ferry = true ∧
      s.gridAt s.wave.env.grid = some g) :=
  ⟨⟨awaiting [(127, 1)], 126, 127, clears_of_clearsB (by decide +kernel), by decide +kernel⟩,
   ⟨awaiting [], 126, 127, clears_of_clearsB (by decide +kernel), by decide +kernel⟩,
   ⟨setting [] [], 11, 127, 126, _, rfl, clears_of_clearsB (by decide +kernel), by decide +kernel, by decide +kernel, rfl⟩,
   ⟨ferrying [] [(64, 4096), (65, 4096)] 0, 11, 1, 126, _, someGrid 0 none, rfl, clears_of_clearsB (by decide +kernel), by decide +kernel,
     by decide +kernel, rfl, rfl⟩⟩

/-- A spawn bin of the wave's team for entry 64. -/
def someBin (ls : List BinLane) : Bin :=
  { index := 15, grid := 0, team := 0, entry := 64, reload := 64, sticky := false, markedReady := false, left := none, lanes := ls }

def binned (ss : Cells 64) (bs : List Bin) : State :=
  let s := setting ss []
  { s with core := { s.core with bins := bs } }

theorem meets_LaunchesAndFerries_timers :
    (∃ (s : State) (d a b : BitVec 7), s.clears { ss := [d.toNat, a.toNat, b.toNat], lookout := false } ∧
      s.core.binAt s.wave.env.grid s.wave.env.team ((s.wave.s a.toNat).toNat % 2 ^ 32) = none ∧ (s.wave.s b.toNat).toNat = 0) ∧
    (∃ (s : State) (d a b : BitVec 7) (i : Nat), s.clears { ss := [d.toNat, a.toNat, b.toNat], lookout := false } ∧
      s.core.binAt s.wave.env.grid s.wave.env.team ((s.wave.s a.toNat).toNat % 2 ^ 32) = none ∧ (s.wave.s b.toNat).toNat ≠ 0 ∧
      s.core.freeBin = some i) ∧
    (∃ (s : State) (d a b : BitVec 7) (x : Bin), s.clears { ss := [d.toNat, a.toNat, b.toNat], lookout := false } ∧
      s.core.binAt s.wave.env.grid s.wave.env.team ((s.wave.s a.toNat).toNat % 2 ^ 32) = some x ∧ (s.wave.s b.toNat).toNat ≠ 0) ∧
    (∃ (s : State) (d a b : BitVec 7) (x : Bin), s.clears { ss := [d.toNat, a.toNat, b.toNat], lookout := false } ∧
      s.core.binAt s.wave.env.grid s.wave.env.team ((s.wave.s a.toNat).toNat % 2 ^ 32) = some x ∧ (s.wave.s b.toNat).toNat = 0 ∧
      x.lanes = []) ∧
    (∃ (s : State) (d a b : BitVec 7) (x : Bin), s.clears { ss := [d.toNat, a.toNat, b.toNat], lookout := false } ∧
      s.core.binAt s.wave.env.grid s.wave.env.team ((s.wave.s a.toNat).toNat % 2 ^ 32) = some x ∧ (s.wave.s b.toNat).toNat = 0 ∧
      x.lanes ≠ []) :=
  ⟨⟨binned [(126, 64)] [], 125, 126, 127, clears_of_clearsB (by decide +kernel), by decide +kernel, by decide +kernel⟩,
   ⟨binned [(126, 64), (127, 65536)] [], 125, 126, 127, 0, clears_of_clearsB (by decide +kernel), by decide +kernel, by decide +kernel,
     by decide +kernel⟩,
   ⟨binned [(126, 64), (127, 63)] [someBin []], 125, 126, 127, someBin [], clears_of_clearsB (by decide +kernel), by decide +kernel,
     by decide +kernel⟩,
   ⟨binned [(126, 64)] [someBin []], 125, 126, 127, someBin [], clears_of_clearsB (by decide +kernel), by decide +kernel, by decide +kernel, rfl⟩,
   ⟨binned [(126, 64)] [someBin [⟨[], 0, false⟩]], 125, 126, 127, someBin [⟨[], 0, false⟩], clears_of_clearsB (by decide +kernel),
     by decide +kernel, by decide +kernel, by decide⟩⟩

/-- A target in a section that is neither the supervisor's nor a lookout's fails no row of R227. -/
theorem rows_of_section {s : State} {ind : Bool} {t : DWord} (x : Section) (ha : t.toNat % 4 = 0) (hu : s.undecodable s.wave.env t = false)
    (hx : s.wave.env.sectionAt t = some x) (hs : x.isSupervisor = false) (hl : x.isLookout = false) :
    ∀ r ∈ targetRows s ind t, ¬r.1 := by
  simp [targetRows, ha, hu, hx, hs, hl]

theorem meets_LaunchesAndFerries_ferries :
    (∃ (s : State) (d a : BitVec 7), s.clears { ss := [d.toNat, a.toNat], lookout := false } ∧ s.wave.env.ferry = false) ∧
    (∃ (s : State) (d a : BitVec 7), s.clears { ss := [d.toNat, a.toNat], lookout := false } ∧ s.wave.env.ferry = true) ∧
    (∃ (s : State) (a : BitVec 7), s.clears { terminal := true, live := true, ss := [a.toNat], lookout := false } ∧ s.wave.env.ferry = false) ∧
    (∃ (s : State) (a : BitVec 7) (g : Grid), s.clears { terminal := true, live := true, ss := [a.toNat], lookout := false } ∧
      s.wave.env.ferry = true ∧ (∀ r ∈ targetRows s true (s.wave.s a.toNat), ¬r.1) ∧ s.wave.arch.mode = .user ∧ s.wave.ll = [] ∧
      s.wave.env.segmentOf (s.wave.s a.toNat) = some 2 ∧ s.gridAt s.wave.env.grid = some g ∧ s.landingTeam g 2 = some 0 ∧
      s.core.departure.length + (s.net.filter fun t => t.src == s.core.id).length + s.wave.active.length ≤ 256) := by
  refine ⟨⟨setting [] [], 126, 127, clears_of_clearsB (by decide +kernel), rfl⟩,
    ⟨ferrying [] [] 0, 126, 127, clears_of_clearsB (by decide +kernel), rfl⟩,
    ⟨ending [] .user, 127, clears_of_clearsB (by decide +kernel), rfl⟩,
    ⟨ferrying [(127, 0x4000000000001000)] [] 1, 127, someGrid 0 none, clears_of_clearsB (by decide +kernel), rfl, ?_, rfl, rfl, by decide +kernel,
      rfl, by decide +kernel, by decide +kernel⟩⟩
  exact rows_of_section { kind := 2, seg := 2, off := 4096, size := 64 } (by decide +kernel) (by decide +kernel) (by decide +kernel) rfl rfl

/-- The same tensor, the member with index 0 of the VI lying on package 1. -/
def viewed : State :=
  let s := engines [(127, 0x39)] [] []
  { s with vis := [{ someVi with view := [{ ix := 0, pkg := 1, vi := 0, asidBase := 0 }] }] }

theorem meets_LaunchesAndFerries_prefetches :
    (∃ (s : State) (a b : BitVec 7) (td : TDesc), s.clears { ss := [a.toNat, b.toNat] } ∧ (s.wave.s a.toNat).toNat < 2 ^ 16 ∧
      (s.wave.s b.toNat).toNat < 2 ^ 6 ∧ bitsN (s.wave.s b.toNat).toNat 1 0 ≤ 1 ∧ bitsN (s.wave.s b.toNat).toNat 3 2 ≤ 2 ∧
      s.tensor (s.wave.s a.toNat).toNat 0 = .got td ∧
      (¬∃ m, s.viewOf s.wave.env.vi (td.base.toNat / 2 ^ 40 % 16) = some m ∧ m.pkg ≠ s.pkg) ∧ s.core.prefetches.length < 16) ∧
    (∃ (s : State) (a b : BitVec 7) (td : TDesc), s.clears { ss := [a.toNat, b.toNat] } ∧ (s.wave.s a.toNat).toNat < 2 ^ 16 ∧
      (s.wave.s b.toNat).toNat < 2 ^ 6 ∧ bitsN (s.wave.s b.toNat).toNat 1 0 ≤ 1 ∧ bitsN (s.wave.s b.toNat).toNat 3 2 ≤ 2 ∧
      s.tensor (s.wave.s a.toNat).toNat 0 = .got td ∧
      ∃ m, s.viewOf s.wave.env.vi (td.base.toNat / 2 ^ 40 % 16) = some m ∧ m.pkg ≠ s.pkg) ∧
    (∃ (s : State) (a b : BitVec 7), s.clears { vs := [a.toNat, a.toNat + 1], ss := [b.toNat] } ∧ s.wave.active ≠ [] ∧
      (s.wave.s b.toNat).toNat < 16 ∧ bitsN (s.wave.s b.toNat).toNat 1 0 ≤ 2 ∧ bitsN (s.wave.s b.toNat).toNat 3 2 ≤ 2) ∧
    (∃ (s : State) (a b : BitVec 7), s.clears { vs := [a.toNat, a.toNat + 1], ss := [b.toNat] } ∧ s.wave.active ≠ [] ∧
      16 ≤ (s.wave.s b.toNat).toNat) :=
  ⟨⟨engines [(127, 0x39)] [] [], 126, 127, someTile.d, clears_of_clearsB (by decide +kernel), by decide +kernel, by decide +kernel,
     by decide +kernel, by decide +kernel, by decide +kernel,
     fun ⟨m, h, hn⟩ => hn (of_decide_eq_true ((Option.all_eq_true _ _).1
       (show (((engines [(127, 0x39)] [] []).viewOf 0 0).all fun m => decide (m.pkg = (engines [(127, 0x39)] [] []).pkg)) = true by
         decide +kernel) m h)),
     by decide +kernel⟩,
   ⟨viewed, 126, 127, someTile.d, clears_of_clearsB (by decide +kernel), by decide +kernel, by decide +kernel,
     by decide +kernel, by decide +kernel, by decide +kernel, _, rfl, by decide +kernel⟩,
   ⟨setting [(127, 10)] [], 126, 127, clears_of_clearsB (by decide +kernel), by decide +kernel, by decide +kernel, by decide +kernel, by decide +kernel⟩,
   ⟨setting [(127, 16)] [], 126, 127, clears_of_clearsB (by decide +kernel), by decide +kernel, by decide +kernel⟩⟩

/-! ## Channels -/

/-- A wave with the table of `threeCaps`, and an entry of channel 63: sending to stop 0, or receiving at depth 2. -/
def channels (e : DWord) (q : List (Nat × ChanPacket)) (r : Nat) : State :=
  let s := setting [] []
  { s with mem := bytesFrom (2 ^ 40 + 0x30000) threeCaps,
           core := { s.core with chtab := [(63, e)], rxq := q }, wave := { s.wave with pos := { s.wave.pos with ridx := r } } }

def sendEntry : DWord := 0x8000000000000000
def receiveEntry : DWord := 0xC000020000000000

def somePacket : ChanPacket :=
  { vi := 0, route := 0, stop := 0, ep := 0, dch := 63, sch := 0, srcStop := 0, srcEp := 1, seq := 0, flits := 1, payload := List.replicate 64 1,
    offered := false, offerAt := 0 }

theorem meets_ChannelInstructions :
    ([channels sendEntry [] 1, channels receiveEntry [] 1].all fun s =>
      [Instr.send 124 3 63, .recv 124 3 63, .chpoll 127 63, .send 124 3 0].all fun i => match groupForm i with
        | some f => s.clearsB f
        | none => false) = true ∧
    (channels sendEntry [] 1).granted 0 .user 2 63 1 = true ∧ (channels receiveEntry [] 1).granted 0 .user 2 63 0 = true ∧
    (channels sendEntry [] 1).granted 0 .user 2 0 1 = false ∧ sendEntry.getLsbD 63 = true ∧ sendEntry.getLsbD 62 = false ∧
    receiveEntry.getLsbD 63 = true ∧ receiveEntry.getLsbD 62 = true ∧ chLegal sendEntry = true ∧ chLegal receiveEntry = true ∧
    waitingOn (channels receiveEntry [] 1) 63 = [] ∧
    waitingOn (channels receiveEntry [(63, somePacket)] 1) 63 = [somePacket] ∧
    (channels receiveEntry [(63, somePacket)] 1).olderReceiver 63 = false ∧ (channels sendEntry [] 1).core.outgoing.length < 8 := by
  decide +kernel

/-! ## Keepers -/

def someMsg : KeeperMsg := { op := 0, vi := 0, asid := 0, src := 0, target := 0x6000000000000000, handler := 0, payload := [] }

def someRun (count : Nat) (rs : Cells 32) (ls : List Nat) : KeeperRun :=
  { msg := someMsg, scratch := [], regs := rs, pc := 0, codeBase := 0, code := [], lines := ls, writes := [], line := 0,
    lineVa := 0x6000000000000000, count := count }

/-- A handler in which x5, x6 hold an address in tensor memory, x7 the offset, with the line of that memory's start selected or not. -/
def handling (count : Nat) (rs : Cells 32) (ls : List Nat) : State :=
  let s := setting [] []
  { s with keeper := { s.keeper with slice := 0, run := some (someRun count rs ls) } }

/-- What keeps a handler from a line, as a Bool. -/
def lineFails (x : Except LineFault Nat) (y : LineFault) : Bool :=
  match x with
  | .ok _ => false
  | .error z => decide (z = y)

theorem meets_KeeperInstructions :
    (handling 256 [] []).keeper.run = some (someRun 256 [] []) ∧
    (let s := handling 255 [(6, 0x60000000)] [0]
     s.keeper.run = some (someRun 255 [(6, 0x60000000)] [0]) ∧ answersOk (s.keeperLine someMsg 0 .read 0x6000000000000000) 0 = true) ∧
    (let s := handling 255 [(6, 0x60000000)] []
     answersOk (s.keeperLine someMsg 0 .read 0x6000000000000000) 0 = true ∧ s.atHand false 0 = true ∧ s.keeperHolds 0 = false) ∧
    (let s := handling 255 [(6, 0x60000000)] [1, 2, 3, 4]
     answersOk (s.keeperLine someMsg 0 .read 0x6000000000000000) 0 = true) ∧
    (let s := handling 255 [(6, 0x20000000)] []
     lineFails (s.keeperLine someMsg 0 .read 0x2000000000000000) .line = true) ∧
    (let s := { handling 0 [(7, 124)] [0] with vis := (unallocated 0).vis }
     lineFails (s.keeperLine someMsg 0 .read 0x6000000000000080) .breach = true ∧
     lineFails (s.keeperLine someMsg 0 .write 0x6000000000000080) .breach = true) ∧
    (let s := handling 0 [(7, 124)] [0]
     s.poisoned (.mem 124) = false ∧ answersOk (s.keeperLine someMsg 0 .write 0x6000000000000000) 0 = true ∧ s.atHand true 124 = true) ∧
    (let s := handling 0 [(7, 125)] [0]
     (someRun 0 [(7, 125)] [0]).reg 7 = 125 ∧ s.keeper.run.isSome = true) ∧
    rvDecode 0 = none ∧ (rvDecode 0x00000013).isSome = true ∧
    (∃ i q, rvDecode 0x00000013 = some i ∧ (someRun 0 [] []).exec i (rvLength 0x00000013) = some q) := by
  refine ⟨rfl, by decide +kernel, by decide +kernel, by decide +kernel, by decide +kernel, by decide +kernel, by decide +kernel,
    by decide +kernel, by decide +kernel, by decide +kernel, ?_⟩
  exact ⟨_, _, rfl, rfl⟩

/-- PWR to the three command registers in hypervisor mode. -/
def commanding (x : DWord) : State :=
  let s := amid [(127, x)] .hypervisor
  { s with mem := bytesFrom (2 ^ 40 + 0x30000) threeCaps }

theorem meets_IllegalWordsAndCommandRegisters :
    (bitsN (BitVec.toNat (0x9C000000 : Word)) 31 26 = 0x27 ∧ (emptied (amid [] .user)).wave.exm ≠ (emptied (amid [] .user)).wave.lanes) ∧
    bitsN (BitVec.toNat (0xFC000000 : Word)) 31 26 = 0x3F ∧
    ([0x00A, 0x00D, 0x012].all fun n => match groupForm (.pwr 127 n) with
      | some f => (commanding 0).clearsB f
      | none => false) = true ∧
    (commanding 0).granted 0 .hypervisor 3 0 1 = false ∧ (commanding 7).granted 0 .hypervisor 3 7 1 = true ∧
    (commanding 7).viAt 0 = some someVi ∧ (commanding 7).tableReady someVi true 0x10400 512 = true ∧
    (commanding 0).viAt 0 = some someVi ∧ someVi.desc.asidBase + someVi.desc.asidCnt = 16 ∧ ((commanding 63).wave.s 127).toNat < 64 ∧
    64 ≤ ((commanding 64).wave.s 127).toNat := by
  decide +kernel

end Sys2Proof.Machine
end

