-- ==== Sys2Proof/Tests/WitnessF.lean ====
section
/-!
SUPPORT. Concrete states and operands that meet the hypotheses of the statements on encodings, steps, power, start-up, virtual interfaces
and their queues, clause by clause.
-/
namespace Sys2Proof.Machine

set_option Elab.async false

open Sys2Proof.Claims

theorem meets_DecodingUndoesEncoding : (Instr.vmov 9 8).WellFormed = true ∧ encode (.vmov 9 8) = some 0x64488003 ∧
    (Instr.klw 1 2 3).WellFormed = true ∧ encode (.klw 1 2 3) = some 0x0011118B ∧
    ∀ b a d, Instr.vmov 9 8 ≠ .ksel b a d ∧ Instr.vmov 9 8 ≠ .klw b a d ∧ Instr.vmov 9 8 ≠ .ksw b a d ∧ Instr.vmov 9 8 ≠ .kfadd b a d ∧
      Instr.vmov 9 8 ≠ .kend b a d :=
  ⟨by decide +kernel, by decide +kernel, by decide +kernel, by decide +kernel, fun _ _ _ => ⟨nofun, nofun, nofun, nofun, nofun⟩⟩

theorem meets_EncodingUndoesDecoding : decodeWord 0x64488003 = .ok (.vmov 9 8) := rfl

/-- The wave of `setting` with one word to issue next. -/
def issuing (w : Word) : State :=
  let s := setting [] []
  { s with agenda := [.issue], wave := { s.wave with pos := { s.wave.pos with words := [w] } } }

/-- A handler whose only instruction is KLW. -/
def handled : State :=
  let s := setting [] []
  { s with agenda := [.keeper], keeper := { s.keeper with run := some { someRun 0 [] [] with code := bytesOf 4 0x0011118B } } }

theorem meets_StepRunsTheDecodedWord :
    ((issuing 0x64488003).agenda = [.issue] ∧ (issuing 0x64488003).wave.mayIssue = true ∧
      decodeWord ((issuing 0x64488003).wave.pos.words.getD (issuing 0x64488003).wave.pos.ridx 0) = .ok (.vmov 9 8)) ∧
    ((issuing 0).wave.mayIssue = true ∧ ∃ e, decodeWord ((issuing 0).wave.pos.words.getD (issuing 0).wave.pos.ridx 0) = .error e) ∧
    (handled.agenda = [.keeper] ∧ ∃ r, handled.keeper.run = some r ∧ r.codeBase.toNat ≤ r.pc.toNat ∧
      r.pc.toNat < r.codeBase.toNat + r.code.length ∧ decodeKeeper (fieldAt r.code (r.pc.toNat - r.codeBase.toNat) 4) = some (.klw 1 2 3)) ∧
    (setting [] []).agenda = [] ∧ isKeeperWord (0x64488003 : Word).toNat = false :=
  ⟨⟨rfl, by decide +kernel, rfl⟩, ⟨by decide +kernel, _, rfl⟩, ⟨rfl, _, rfl, by decide, by decide, by decide +kernel⟩, rfl, by decide⟩

theorem meets_MemoryStaysCanonical : (launching 0 3 1 0 0 none).memInv ∧ (launching 0 3 1 0 0 none).mem ≠ [] ∧
    ∃ t, step (launching 0 3 1 0 0 none) = .next t := by
  refine ⟨by unfold State.memInv; decide +kernel, by decide +kernel, ?_⟩
  unfold step
  exact ⟨_, rfl⟩

/-! ## Power and start-up -/

/-- What start-up meets when every step succeeds. -/
def allGood : StartupInputs :=
  { romStarts := true, hbmFailed := 0, controlFailed := false, flashReads := true, imagesRead := true, diesReleased := 3 }

/-- A record of package 0 in a domain of sixteen: each of the fifteen peers on four ports. -/
def goodRecord : List Byte :=
  bytesOf 4 0x474F5243 ++ bytesOf 2 1 ++ bytesOf 2 0x160 ++ bytesOf 4 0 ++ [0, 16, 0, 0] ++
    ((List.range 64).map fun i => if i < 60 then BitVec.ofNat 8 (1 + i / 4) else 255) ++ List.replicate 272 0

/-- The device without power, its flash holding that record. -/
def flashed : State :=
  { State.reset with platform := { Platform.reset with
      flash := ((List.range 352).zip goodRecord).filter fun x => x.2 != 0 } }

theorem flashed_record : flashed.platform.recordBytes = goodRecord := by decide +kernel

/-- The record is good if its signature is. -/
theorem flashed_good (h : Config.signatureVerifies (sha384 (goodRecord.take 256)) (goodRecord.drop 256) = true) :
    recordFault goodRecord = none := by
  unfold recordFault
  rw [h]
  dsimp only
  rw [if_neg (by decide +kernel), if_neg (by decide +kernel), if_neg (by decide +kernel), if_neg (by decide), if_neg (by decide +kernel),
    if_neg (by decide +kernel), if_neg (by decide +kernel), if_neg (by decide +kernel), if_neg (by decide +kernel), if_neg (by decide +kernel),
    if_neg (by decide +kernel)]

/-- Start-up stands at a step. -/
def atStep (n d : Nat) : State := { State.reset with platform := { Platform.reset with phase := .step n d } }

/-- The device up, self-hosted or not, its upstream link up or down, VI 0 with a function. -/
def upAndRunning (self up : Bool) : State :=
  let s := setting [] []
  { s with platform := { s.platform with
      phase := .up, linkUp := up, functions := [0, 1], record := { s.platform.record with selfHosted := self },
      mappings := [0], blocks := [{ block := 42, powered := true, gated := false, point := 7, ceiling := 7 }] } }

/-- The witnesses of the clauses behind a good record suppose the signature, and firmware of the record's digests, as the hardware's
choices (log entries of `Config`). -/
theorem meets_StartUpAndPower :
    (State.reset.platform.phase = .off ∧ recordFault (Cells.readList State.reset.platform.flash 0 352) = some 0) ∧
    flashed.platform.phase = .off ∧ Cells.readList flashed.platform.flash 0 352 = goodRecord ∧
    ((List.range 8).filter fun k => allGood.hbmFailed.getLsbD k).length ≤ 1 ∧ allGood.controlFailed = false ∧ allGood.diesReleased = 3 ∧
    allGood.romStarts = true ∧ allGood.flashReads = true ∧ allGood.imagesRead = true ∧
    2 ≤ ((List.range 8).filter fun k => ({ allGood with hbmFailed := 0x81 } : StartupInputs).hbmFailed.getLsbD k).length ∧
    (atStep 1 1).platform.phase = .step 1 1 ∧ (atStep 2 1).platform.phase = .step 2 1 ∧ (atStep 6 5).platform.phase = .step 6 5 ∧
    ((upAndRunning false true).platform.phase = .up ∧ (upAndRunning false true).platform.record.selfHosted = false) ∧
    ((upAndRunning true true).platform.phase = .up ∧ (upAndRunning true true).platform.record.selfHosted = true) ∧
    ((upAndRunning true false).platform.phase = .up ∧ (upAndRunning true false).platform.linkUp = false) ∧
    ((upAndRunning true true).platform.linkUp = true ∧ 0 + 1 ∈ (upAndRunning true true).platform.functions) ∧
    (∃ x ∈ (upAndRunning true true).platform.blocks, x.block = 42 ∧ x.powered = true) :=
  ⟨⟨rfl, by decide +kernel⟩, rfl, flashed_record, by decide, rfl, rfl, rfl, rfl, rfl, by decide, rfl, rfl, rfl, ⟨rfl, rfl⟩, ⟨rfl, rfl⟩,
    ⟨rfl, rfl⟩, ⟨rfl, by decide⟩, ⟨_, List.mem_singleton.2 rfl, rfl, rfl⟩⟩

/-! ## Virtual interfaces and queues -/

/-- The descriptor of `someVi` moved to numbers that no VI has. -/
def apart : ViDesc := { someDesc with asidBase := 16, tenBase := 2 ^ 30, ctlBase := 2 ^ 30 }

/-- VI 0 in a phase. -/
def inPhase (p : ViPhase) : State :=
  let s := upAndRunning false true
  { s with vis := [{ someVi with phase := p }] }

/-- Queue 3 of an active VI with a capability of some rights on it. -/
def kicked (p : ViPhase) (rights : Nat) (q : Queue) : State :=
  let s := inPhase p
  { s with mem := bytesFrom (2 ^ 40 + 0x30000) ([1, 0, 0, 0, 0, 0, 0, 0, 0, 0, 0, 0, 0, 0, 0, 0, 1, 0, rights, 0, 3]),
           vis := [{ someVi with phase := p, queues := [q] }] }

/-- A wave in its watchdog handler since the first cycle. -/
def handlingBudget : State :=
  let s := setting [] []
  { s with wave := { s.wave with svStart := some 0 } }

def hostQueue : Queue := { someQueue 1 5 with deviceFed := false, qacc := 5 }

theorem meets_VirtualInterfacesAndQueues :
    ((upAndRunning false true).viAt 1 = none ∧ descGood apart = true ∧ (upAndRunning false true).descFits apart = true) ∧
    (descGood someDesc = true ∧ (upAndRunning false true).descFits someDesc = false) ∧
    ([ViPhase.built, .active, .frozen, .teardown].all fun p => ((inPhase p).viAt 0).any fun v => decide (v.phase = p ∧ v.preempt = none)) = true ∧
    ((inPhase .built).tableReady someVi false 0x10000 (32 * someVi.desc.qcount) = true ∧
      (inPhase .active).tableReady someVi false 0x10060 32 = true) ∧
    ((inPhase .teardown).worksFor 0 = true ∧ ({ inPhase .teardown with wave := State.reset.wave } : State).worksFor 0 = false) ∧
    (handlingBudget.wave.svStart = some 0 ∧ handlingBudget.viAt 0 = some someVi ∧ 0 + someVi.desc.svBudget ≤ handlingBudget.coreTime 0 ∧
      handlingBudget.waveAt ⟨0, 0⟩ = some handlingBudget.wave) ∧
    ([ViPhase.active, .frozen].all fun p =>
      let s := kicked p 0x38 hostQueue
      s.pageReached 0 .host && s.pageReached 0 .controlCore && s.granted 0 .supervisor 1 3 3 && s.granted 0 .supervisor 1 3 4 &&
      s.granted 0 .supervisor 1 3 5) = true ∧
    (kicked .active 0 hostQueue).granted 0 .supervisor 1 3 3 = false ∧
    (let x := hostQueue
     x.qst = 1 ∧ x.deviceFed = false ∧ (6 + 2 ^ 32 - x.k) % 2 ^ 32 = 1 ∧ (6 + 2 ^ 32 - x.qacc) % 2 ^ 32 ≤ 2 ^ x.log ∧
     2 ^ x.log < (22 + 2 ^ 32 - x.qacc) % 2 ^ 32 ∧ (22 + 2 ^ 32 - x.k) % 2 ^ 32 < 2 ^ 31) ∧
    (someQueue 1 0).deviceFed = true := by
  refine ⟨by decide +kernel, by decide +kernel, by decide +kernel, by decide +kernel, by decide +kernel, ⟨rfl, rfl, by decide +kernel, rfl⟩, by decide +kernel, by decide +kernel,
    by decide +kernel, rfl⟩

end Sys2Proof.Machine
end

