-- ==== Sys2Proof/Tests/WitnessG.lean ====
section
/-!
SUPPORT. Concrete states that meet the hypotheses of the statement on the launch engine's events, clause by clause.
-/
namespace Sys2Proof.Machine

set_option Elab.async false

open Sys2Proof.Claims

/-! ## Slots -/

/-- A host-fed queue 3 whose next slot is at 0x4000000000012000. -/
def slotQueue : Queue := { someQueue 1 0 with deviceFed := false, qacc := 15, e := 0, k := 0 }

/-- SHA-384 of no bytes (FIPS 180-4). -/
def emptyDigest : List Nat :=
  [0x38, 0xB0, 0x60, 0xA7, 0x51, 0xAC, 0x96, 0x38, 0x4C, 0xD9, 0x32, 0x7E, 0xB1, 0xB1, 0xE3, 0x6A, 0x21, 0xFD, 0xB7, 0x11, 0x14, 0xBE, 0x07, 0x43] ++
  [0x4C, 0x0C, 0xC7, 0xBF, 0x63, 0xF6, 0xE1, 0xDA, 0x27, 0x4E, 0xDE, 0xBF, 0xE7, 0x6F, 0x65, 0xFB, 0xD5, 0x1A, 0xD2, 0xF1, 0x48, 0x98, 0xB9, 0x5B]

/-- An image of 64 KiB with sixteen words of code and an empty supervisor's section. -/
def imageBytes : List Nat :=
  [0x53, 0x4C, 0x4E, 0x4B, 1, 0, 2, 0, 0, 0, 0, 0, 1, 0, 0, 0] ++ emptyDigest ++
  [1, 0, 0, 0, 0, 0, 0, 0, 128, 0, 0, 0, 0, 0, 0, 0, 64, 0, 0, 0, 0, 0, 0, 0, 0, 0, 0, 0, 0, 0, 0, 0] ++
  [3, 0, 0, 0, 0, 0, 0, 0, 192, 0, 0, 0, 0, 0, 0, 0, 0, 0, 0, 0, 0, 0, 0, 0]

/-- An extension with a private block. -/
def extensionBytes : List Nat := List.replicate 144 0 ++ [0, 0, 1, 0, 0, 0, 0, 0x60, 64]

/-- A record of one team of one wave; `nV` vector registers, a completion record at 0x4000000000013000 or none. -/
def slotBytes (lseq nV : Nat) (compl : List Nat) : List Nat :=
  [lseq, 0, 0, 0, 0, 0, 0, 0, nV, 8, 0, 0, 0, 0, 1, 0, 1, 0, 0, 0, 1, 0, 1, 0] ++ [0, 0, 0, 0, 0, 0, 0, 0x40, 128, 0, 0, 0, 0, 0, 0, 0] ++
  [0, 1, 1, 0, 0, 0, 0, 0x40] ++ compl

def someCompl : List Nat := [0, 0x30, 1, 0, 0, 0, 0, 0x40]

/-- VI 0 with that queue and the digest of the empty section. -/
def engineVi (q : Queue) : Vi := { someVi with queues := [q], digests := [emptyDigest.map (BitVec.ofNat 8)], coreSet := [0, 1, 2, 3] }

def slotState (bs : List Nat) (q : Queue) : State :=
  let s := setting [] []
  { s with vis := [engineVi q],
           mem := bytesFrom (2 ^ 40) imageBytes ++ bytesFrom (2 ^ 40 + 0x10100) extensionBytes ++ bytesFrom (2 ^ 40 + 0x12000) bs }

/-- What a read of the engine answers. -/
def gets {α : Type} (x : Got α) (p : α → Bool) : Bool :=
  match x with
  | .ok a => p a
  | .error _ => false

/-- Whether a read or a check fails without a breach. -/
def isBad {α : Type} (x : Got α) : Bool :=
  match x with
  | .error .bad => true
  | _ => false

theorem ok_of_gets {α : Type} {x : Got α} {p : α → Bool} (h : gets x p = true) : ∃ a, x = .ok a ∧ p a = true := by
  cases x with
  | ok a => exact ⟨a, rfl, h⟩
  | error e => cases h

theorem bad_of_isBad {α : Type} {x : Got α} (h : isBad x = true) : x = .error .bad := by
  cases x with
  | ok a => cases h
  | error e => cases e <;> first | rfl | cases h

/-- What every clause on a slot asks, and the slot as it is read. -/
def slotHolds (s : State) (v : Vi) (q : Queue) (p : List Byte → Bool) : Prop :=
  s.viAt 0 = some v ∧ v.queueAt 3 = some q ∧ s.mayRead v q = true ∧ (∀ x ∈ v.queues, x.q < 3 → s.matches v x = false) ∧
  q.waitSince = none ∧ gets (s.fetchBytes v q.slot 128) p = true

theorem meets_LaunchEngineEvents_slots :
    slotHolds (slotState (slotBytes 9 1 []) slotQueue) (engineVi slotQueue) slotQueue (fun bs => decide (fieldAt bs 0 4 ≠ slotQueue.e)) ∧
    slotHolds (slotState (slotBytes 0 1 []) slotQueue) (engineVi slotQueue) slotQueue (fun bs => decide (fieldAt bs 0 4 = slotQueue.e) &&
      gets ((slotState (slotBytes 0 1 []) slotQueue).checkRecord (engineVi slotQueue) slotQueue bs) fun _ => true) ∧
    slotHolds (slotState (slotBytes 0 0 []) slotQueue) (engineVi slotQueue) slotQueue (fun bs => decide (fieldAt bs 0 4 = slotQueue.e) &&
      isBad ((slotState (slotBytes 0 0 []) slotQueue).checkRecord (engineVi slotQueue) slotQueue bs) &&
      decide (BitVec.ofNat 64 (fieldAt bs 0x30 8) = 0)) ∧
    slotHolds (slotState (slotBytes 0 0 someCompl) slotQueue) (engineVi slotQueue) slotQueue (fun bs => decide (fieldAt bs 0 4 = slotQueue.e) &&
      isBad ((slotState (slotBytes 0 0 someCompl) slotQueue).checkRecord (engineVi slotQueue) slotQueue bs) &&
      decide (BitVec.ofNat 64 (fieldAt bs 0x30 8) ≠ 0) &&
      gets ((slotState (slotBytes 0 0 someCompl) slotQueue).completionPlaces (engineVi slotQueue) (BitVec.ofNat 64 (fieldAt bs 0x30 8)))
        fun _ => true) ∧
    slotQueue.deviceFed = false ∧
    (let q := { slotQueue with base := 0x4000000000022000 }
     (slotState [] q).mayRead (engineVi q) q = true ∧ q.waitSince = none ∧ (slotState [] q).fetchBytes (engineVi q) q.slot 128 = .error .bad) ∧
    (let q := { slotQueue with waitSince := some 5 }
     let s := { slotState [] q with clock := clockAt 0 0 15 }
     s.mayRead (engineVi q) q = true ∧ q.waitSince = some 5 ∧ 5 + 10 ≤ s.clock.us ∧ gets (s.fetchBytes (engineVi q) q.slot 128) (fun _ => true) = true) := by
  refine ⟨⟨rfl, rfl, by decide +kernel, by decide +kernel, rfl, by decide +kernel⟩,
    ⟨rfl, rfl, by decide +kernel, by decide +kernel, rfl, by decide +kernel⟩,
    ⟨rfl, rfl, by decide +kernel, by decide +kernel, rfl, by decide +kernel⟩,
    ⟨rfl, rfl, by decide +kernel, by decide +kernel, rfl, by decide +kernel⟩, rfl,
    ⟨by decide +kernel, rfl, bad_of_isBad (by decide +kernel)⟩, ⟨by decide +kernel, rfl, by decide, by decide +kernel⟩⟩

/-! ## Grids -/

/-- Grid 0 of one team in a phase. -/
def phaseGrid (p : ReachPhase) (cores : List Nat) (e : Option Nat) : Grid :=
  { someGrid 0 none with
    reaches := [{ index := 0, phase := p, relaunches := 0, teams := [{ team := 0, cores := cores, lbase := 0, ended := decide (p = ReachPhase.ended), entry := e }] }] }

/-- The device with that grid and no wave of it; its team's place on core 0. -/
def gridState (g : Grid) (rs : List Resident) : State :=
  { State.reset with vis := [engineVi slotQueue], grids := [g], core := { Core.empty 0 with vi := some 0, residents := rs },
                     control := { State.reset.control with copies := ownLines } }

def placedOn0 : Resident := { grid := 0, team := 0, slots := [7], vbytes := 8192, lbase := 0, lsize := 0, regsFreed := false }

theorem meets_LaunchEngineEvents_dispatch :
    ((gridState (phaseGrid .waiting [] none) []).chosen.any fun c => decide (c.1.id = 0 ∧ c.2.2 = [[0]])) = true ∧
    (let g := { phaseGrid .waiting [] none with passedSince := some 0 }
     let s := { gridState g [] with clock := clockAt 0 Config.reserveWait 0 }
     s.candidates.find? (·.id == 0) = some g ∧ g.passedSince = some 0 ∧ 0 + Config.reserveWait ≤ s.uncore ∧ g.reservedAt = none) := by
  refine ⟨by decide +kernel, by decide +kernel, rfl, ?_, rfl⟩
  exact Nat.le_of_eq (Nat.zero_add _)

/-- The segment map of a ferry grid of one team. -/
def oneSegment : SegmentMap := { high := 0, dwell := 0, spare := [], segs := [{ seg := 0, primary := 0, replicas := [], loading := none, hotSince := none }] }

def ferryGrid (p : ReachPhase) : Grid :=
  { phaseGrid p [0] none with map := some oneSegment, record := { someRecord with flags := 2 }, sections := [{ kind := 2, seg := 0, off := 0, size := 8 }] }

theorem meets_LaunchEngineEvents_starts :
    (let g := phaseGrid .placed [0] none
     let s := gridState g [placedOn0]
     s.gridAt 0 = some g ∧ (∃ x, g.reachAt 0 = some x ∧ x.phase = .placed ∧ slotsApart s g x) ∧ g.record.ferry = false ∧ s.dispatches g.vi = true) ∧
    (let g := ferryGrid .placed
     let s := gridState g [placedOn0]
     s.gridAt 0 = some g ∧ g.map = some oneSegment ∧ s.viAt g.vi = some (engineVi slotQueue) ∧ s.dispatches g.vi = true ∧
     ∃ x u, g.reachAt 0 = some x ∧ x.phase = .placed ∧ slotsApart s g x ∧ s.loadSegments (engineVi slotQueue) g oneSegment x.teams = .ok u) := by
  refine ⟨⟨by decide +kernel, ⟨_, rfl, rfl, by unfold slotsApart; decide +kernel⟩, by decide +kernel, by decide +kernel⟩,
    ⟨by decide +kernel, rfl, by decide +kernel, by decide +kernel, ?_⟩⟩
  have h : gets ((gridState (ferryGrid .placed) [placedOn0]).loadSegments (engineVi slotQueue) (ferryGrid .placed) oneSegment
    [{ team := 0, cores := [0], lbase := 0, ended := false, entry := none }]) (fun _ => true) = true := by decide +kernel
  obtain ⟨u, hu, -⟩ := ok_of_gets h
  exact ⟨_, u, rfl, rfl, by unfold slotsApart; decide +kernel, hu⟩

/-- Core 0 with a spawn bin, and an exited wave of its team. -/
def binState (b : Bin) : State :=
  let s := binned [] [b]
  { s with grids := [someGrid 0 none], wave := { s.wave with status := .exited } }

theorem meets_LaunchEngineEvents_bins :
    ((binState { someBin [⟨[], 0, false⟩] with left := some 1 }).coreAt 0).bins.find? (·.index == 15) =
      some { someBin [⟨[], 0, false⟩] with left := some 1 } ∧
    ([{ someBin (List.replicate 16 ⟨[], 0, false⟩) with left := some 9 }, { someBin [⟨[(0, 7)], 1, false⟩] with left := some 0 },
      { someBin [⟨[(0, 7)], 1, false⟩] with left := some 9, sticky := true, markedReady := true }].all fun b =>
      let s := binState b
      decide ((s.coreAt 0).bins.find? (·.index == 15) = some b ∧ leastBy (·.env.waveid) (s.exitedWaves b.grid b.team) = some s.wave ∧
        b.lanes ≠ [] ∧ (∀ l ∈ b.lanes, l.held = false) ∧
        (s.wave.env.wavew ≤ b.lanes.length ∨ b.left = some 0 ∨ b.markedReady = true) ∧ s.viRuns s.wave.env.vi = true)) = true := by
  decide +kernel

/-- A team with an entry whose children have all completed. -/
def finishing (g : Grid) : State :=
  let s := gridState g [placedOn0]
  { s with launch := { s.launch with entries := [{ index := 9, inUse := true, gen := 1, outstanding := 0, perr := 2 }] } }

/-- A grid whose reaches have ended, with a completion record or none. -/
def retiring (compl : DWord) : Grid := { phaseGrid .ended [0] none with record := { someRecord with compl := compl } }

theorem meets_LaunchEngineEvents_ends :
    ([phaseGrid .running [0] (some 9), phaseGrid .running [0] none].all fun g =>
      let s := finishing g
      decide (s.gridAt 0 = some g ∧ (g.reachOfTeam 0).any (fun x => decide (x.phase = .running)) = true ∧
        (g.teamAt 0).any (fun u => !u.ended) = true ∧ s.teamIdle 0 0 = true ∧ (s.children 0 0).1 = 0 ∧ s.dispatches g.vi = true ∧
        (g.record.ferry = true → s.ferryStill g = true))) = true ∧
    (finishing (phaseGrid .running [0] (some 9))).launch.entryAt 9 =
      some { index := 9, inUse := true, gen := 1, outstanding := 0, perr := 2 } ∧
    (let g := ferryGrid .running
     let s := gridState g [placedOn0]
     g.record.ferry = true ∧ s.ferryStill g = true ∧ s.teamIdle 0 0 = true ∧ (s.children 0 0).1 = 0 ∧ s.dispatches g.vi = true) ∧
    ([0, 0x4000000000013000].all fun c =>
      let g := retiring c
      let s := gridState g []
      decide (s.gridAt 0 = some g ∧ s.viAt g.vi = some (engineVi slotQueue) ∧ (∀ x ∈ g.reaches, x.phase = .ended) ∧
        (∀ o ∈ s.ops, o.env.grid = 0 → o.ended = true) ∧ s.dispatches g.vi = true)) = true ∧
    gets ((gridState (retiring 0x4000000000013000) []).completionPlaces (engineVi slotQueue) 0x4000000000013000) (fun _ => true) = true := by
  decide +kernel

end Sys2Proof.Machine
end

