-- ==== Sys2Proof/Tests/WitnessH.lean ====
section
/-!
SUPPORT. Concrete states that meet the hypotheses of the statements on waves between instructions and on boundary traps, clause by clause.
-/
namespace Sys2Proof.Machine

set_option Elab.async false

open Sys2Proof.Claims

/-- The wave of `setting` between clauses, its core's instruction store holding the clause of one NOP at the image's start, with a header. -/
def ready (h : Word) : State :=
  let s := setting [] []
  { s with core := { s.core with istore := [{ vi := 0, grid := 0, addr := 0x4000000000000000, header := h, words := [0x04000000] }] },
           wave := { s.wave with status := .ready, pos := .at 0x4000000000000000 } }

/-- The same at an address of no clause. -/
def readyAt (a : DWord) : State :=
  let s := ready 0x000FF000
  { s with wave := { s.wave with pos := .at a } }

/-- The same fallen through a clause that does not allow it (R235). -/
def fallen : State :=
  let s := ready 0x000FF000
  { s with wave := { s.wave with fellX := true } }

/-- The same wave where its program goes on in a segment that its core has not pinned. -/
def leaving : State :=
  let s := ferrying [] [] 0
  { s with wave := { s.wave with status := .ready, pos := .at 0x4000000000001000 } }

/-- `mayBegin` with the VI of `setting`. -/
theorem mayBegin_of {s : State} (h : s.wave.between = true ∧ s.wave.boundaryDue = false ∧ s.wave.readySince ≤ s.now ∧
    (s.wave.fellX = true ∨ s.needsFill = false) ∧ s.wave.lookoutOver = false ∧ s.viAt s.wave.env.vi = some someVi ∧ s.chosenNext = true) :
    mayBegin s :=
  ⟨h.1, h.2.1, h.2.2.1, h.2.2.2.1, h.2.2.2.2.1, ⟨_, h.2.2.2.2.2.1, .inl rfl⟩, h.2.2.2.2.2.2⟩

theorem meets_ClausesAndCompletions_starts :
    (fallen.focus ⟨0, 0⟩ = some fallen ∧ mayBegin fallen ∧ fallen.wave.fellX = true) ∧
    (let s := readyAt 0x4000000000001000
     s.focus ⟨0, 0⟩ = some s ∧ mayBegin s ∧ s.wave.fellX = false ∧ s.leaves = false ∧
     s.clauseAt s.wave.pos.pc = .error (causeTranslation, 0x4000000000001000) ∧ causeTranslation ≠ causePartition) ∧
    (let s := ready 0x000FF000
     s.focus ⟨0, 0⟩ = some s ∧ mayBegin s ∧ s.wave.fellX = false ∧ s.leaves = false ∧
     s.clauseAt s.wave.pos.pc = .ok (0x000FF000, [0x04000000]) ∧ s.wave.badResume = none ∧ s.wave.waits 0x000FF000 = false ∧
     hdrLegal 0x000FF000 = true) ∧
    (let s := ready 0xFFFFFFFF
     mayBegin s ∧ s.clauseAt s.wave.pos.pc = .ok (0xFFFFFFFF, [0x04000000]) ∧ s.wave.waits 0xFFFFFFFF = false ∧
     hdrLegal 0xFFFFFFFF = false) ∧
    (mayBegin leaving ∧ leaving.wave.fellX = false ∧ leaving.leaves = true ∧ leaving.wave.ll = [] ∧ leaving.wave.arch.mode = .user ∧
      leaving.wave.env.segmentOf leaving.wave.pos.pc = some 2 ∧ leaving.gridAt leaving.wave.env.grid = some (someGrid 0 none) ∧
      leaving.landingTeam (someGrid 0 none) 2 = some 0 ∧
      leaving.core.departure.length + (leaving.net.filter fun t => t.src == leaving.core.id).length + leaving.wave.active.length ≤ 256) := by
  refine ⟨⟨rfl, mayBegin_of (by decide +kernel), rfl⟩, ⟨rfl, mayBegin_of (by decide +kernel), rfl, by decide +kernel, rfl, by decide⟩,
    ⟨rfl, mayBegin_of (by decide +kernel), rfl, by decide +kernel, rfl, rfl, by decide +kernel, by decide +kernel⟩,
    ⟨mayBegin_of (by decide +kernel), rfl, by decide +kernel, by decide +kernel⟩,
    ⟨mayBegin_of (by decide +kernel), rfl, by decide +kernel, rfl, rfl, by decide +kernel, by decide +kernel, by decide +kernel,
      by decide +kernel⟩⟩

/-- A wave whose clause is in memory, not yet in the store: a header, and a NOP. -/
def unfilled (bs : List Nat) : State :=
  let s := ready 0
  { s with core := { s.core with istore := [] }, mem := bytesFrom (2 ^ 40) bs, wave := { s.wave with env := { s.wave.env with lookouts := true } } }

/-- A lookout whose wave has left its slot. -/
def lookout : State :=
  let s := ready 0x000FF000
  { s with clock := clockAt 65536 0 0, wave := { s.wave with lookoutOf := some 5 } }

/-- A wave that has waited for 4096 cycles. -/
def waited : State :=
  let s := ready 0x000FF000
  { s with clock := clockAt 4096 0 0, wave := { s.wave with unserved := some 0 } }

theorem meets_ClausesAndCompletions_fills :
    (lookout.wave.between = true ∧ (let s := { lookout with wave := { lookout.wave with lookoutOver := true } }; s.wave.between = true ∧ s.wave.lookoutOver = true)) ∧
    (waited.wave.between = true ∧ waited.mayStart = true ∧ waited.wave.lookoutOf = none ∧ waited.wave.boostedAt = none ∧
      waited.wave.unserved = some 0 ∧ 0 + 4096 ≤ waited.now) ∧
    (let s := unfilled [0, 0xF0, 0x0F, 0, 0, 0, 0, 4]
     s.wave.between = true ∧ s.needsFill = true ∧ s.wave.fellX = false ∧ (∀ p ∈ s.clausePlaces s.wave.pos.pc, s.available false p = true) ∧
     (∀ p ∈ s.clausePlaces s.wave.pos.pc, s.poisoned p = false) ∧ s.readClause s.wave.pos.pc = .ok (0x000FF000, [0x04000000])) ∧
    (let s := { unfilled [] with vis := [{ someVi with pages := [] }] }
     s.wave.between = true ∧ s.needsFill = true ∧ (∀ p ∈ s.clausePlaces s.wave.pos.pc, s.available false p = true) ∧
     s.readClause s.wave.pos.pc = .error (causeTranslation, 0x4000000000000000)) := by
  refine ⟨by decide +kernel, by decide +kernel, ⟨rfl, by decide +kernel, rfl, by decide +kernel, by decide +kernel, rfl⟩,
    ⟨rfl, by decide +kernel, by decide +kernel, rfl⟩⟩

/-- A wave at the start of a clause that a slice of its image covers. -/
def covered : State :=
  let s := setting [] []
  { s with
    mem := bytesFrom (2 ^ 40 + 8192) [0, 0, 0, 0, 0, 4, 0, 0, 16],
    core := { s.core with residents := [{ placedOn0 with slots := [0] }] },
    wave := { s.wave with env := { s.wave.env with lookouts := true, sections := someEnv.sections ++ [{ kind := 4, seg := 0, off := 8192, size := 64 }] } } }

theorem meets_ClausesAndCompletions_lookouts :
    (covered.focus ⟨0, 0⟩ = some covered ∧ covered.wave.status = .inClause ∧ covered.wave.pos.mid = false ∧ covered.wave.pos.ridx = 0 ∧
      covered.wave.hints = [] ∧ covered.wave.issued = false ∧ covered.wave.env.lookouts = true ∧ covered.wave.env.ferry = false ∧
      covered.wave.lookoutOf = none ∧ covered.wave.arch.mode = .user ∧ (∀ x ∈ covered.lookoutsHere, x.lookoutOf ≠ some covered.wave.slot) ∧
      covered.dispatches covered.wave.env.vi = true ∧
      covered.sliceFor covered.wave.env covered.wave.pos.pc = some (0x4000000000002010, 0x4000000000000000, 0x4000000000000400) ∧
      covered.lookoutSlot = some 1) ∧
    (lookout.focus ⟨0, 0⟩ = some lookout ∧ lookout.wave.lookoutOf ≠ none ∧ lookout.wave.status = .ready ∧
      lookout.wave.lookoutStart + 65536 ≤ lookout.now) := by
  decide +kernel

/-- A wave with a long-latency instruction that awaits nothing. -/
def awaited : State :=
  let s := setting [] []
  { s with wave := { s.wave with ll := [{ id := 5, flag := some 3, left := 0, writes := [.vec 2 0 7, .scal 3 9] }] } }

/-- A wave stalled at a WAITC whose condition holds. -/
def stalled : State :=
  let s := ending [] .user
  { s with wave := { s.wave with status := .stalled, pos := { s.wave.pos with words := [0x04000000, 0x8C000001] } } }

/-- The only wave of its team, at a barrier of its team or its reach, its arrival released. -/
def atBarrier (reachLevel : Bool) : State :=
  let s := ending [] .user
  { s with wave := { s.wave with status := .stalled, arrival := some { reachLevel := reachLevel, number := 3, released := true, complete := false } } }

/-- A wave whose EXIT was held 64 cycles ago. -/
def leavingSlot : State :=
  let s := ending [] .user
  { s with clock := clockAt 64 0 0, core := { s.core with held := [{ slot := 0, at_ := 0, kind := .exit }] },
           wave := { s.wave with status := .exiting } }

/-- A prefetch of a priority and level, of no tensor. -/
def fetchAhead (prio level : Nat) : Prefetch := { prio := prio, level := level, cls := 0, env := someEnv, mode := .user, desc := [] }

/-- A core with two prefetches. -/
def prefetching : State :=
  let s := setting [] []
  { s with core := { s.core with prefetches := [fetchAhead 1 0, fetchAhead 3 1] } }

theorem meets_ClausesAndCompletions_completions :
    (awaited.waveAt ⟨0, 0⟩ = some awaited.wave ∧
      awaited.wave.ll.find? (·.id == 5) = some { id := 5, flag := some 3, left := 0, writes := [.vec 2 0 7, .scal 3 9] }) ∧
    (stalled.focus ⟨0, 0⟩ = some stalled ∧ stalled.wave.status = .stalled ∧ stalled.wave.stop = none ∧ stalled.running = true ∧ stalled.wave.pending = none ∧
      canStall (.waitc 0 1) = true ∧ encode (.waitc 0 1) = some (stalled.wave.pos.words.getD stalled.wave.pos.ridx 0) ∧
      gives (execWaitc 0 1 stalled) (fun t => decide (t.wave.status ≠ .stalled)) = true) ∧
    ([false, true].all fun l =>
      let s := atBarrier l
      let b : BarrierRef := { grid := 0, reachLevel := l, group := 0, number := 3 }
      decide ((s.allWaves.map fun w => (w.core, w.slot)).Nodup ∧ (∃ w ∈ s.allWaves, barrierCounts b w = true) ∧
        (∀ w ∈ s.allWaves, barrierCounts b w = true → barrierArrived b w = true) ∧ ∀ w ∈ s.allWaves, w.status = .stalled)) = true ∧
    (leavingSlot.waveAt ⟨0, 0⟩ = some leavingSlot.wave ∧
      (leavingSlot.coreAt 0).held.head? = some { slot := 0, at_ := 0, kind := .exit } ∧ (leavingSlot.coreAt 0).struck = none ∧ 0 + 64 ≤ leavingSlot.now) ∧
    ((prefetching.coreAt 0).prefetches[1]? = some (fetchAhead 3 1) ∧
      ∀ q ∈ (prefetching.coreAt 0).prefetches, q.prio ≤ 3) := by
  decide +kernel

/-! ## Boundary traps -/

/-- The wave of `ready` with a change. -/
def bordering (f : Wave → Wave) : State :=
  let s := ready 0x000FF000
  { s with wave := f s.wave }

/-- A wave of a VI without a budget for watchdog handlers, and of one that has a budget. -/
def watched (budget : BitVec 32) : State :=
  { bordering fun w => { w with expiryDue := true } with
    vis := [{ someVi with desc := { someDesc with svBudget := budget.toNat } }] }

theorem atBoundary_of {s : State} (h : (s.wave.status = .ready ∨ s.wave.status = .stalled) ∧ s.wave.stop = none ∧ s.wave.pending = none ∧
    s.wave.waitInv = none ∧ s.wave.lookoutOf = none ∧ s.wave.ll = [] ∧ s.wave.pos.skip = false) {v : Vi} (hv : s.viAt s.wave.env.vi = some v)
    (ha : v.phase = .active) : atBoundary s :=
  ⟨h.1, h.2.1, h.2.2.1, h.2.2.2.1, h.2.2.2.2.1, h.2.2.2.2.2.1, h.2.2.2.2.2.2, v, hv, .inl ha⟩

def someFailure (c : Option Nat) : EngineFailure := { status := .hostLinkDown, counter := c, stream := 2 }

theorem meets_BoundaryTraps :
    (let s := bordering fun w => { w with pending := some (someTrap (setting [] [])) }
     s.focus ⟨0, 0⟩ = some s ∧ s.wave.pending = some (someTrap (setting [] [])) ∧ s.wave.ll = [] ∧ s.viAt s.wave.env.vi = some someVi ∧ someVi.phase = .active) ∧
    (∀ c, let s := bordering fun w => { w with failures := [someFailure c] }
      s.focus ⟨0, 0⟩ = some s ∧ s.wave.failures = [someFailure c] ∧ atBoundary s ∧ s.wave.arch.mode ≠ .hypervisor) ∧
    (let s := bordering fun w => { w with arch := { w.arch with wdog := 1 } }
     s.waveAt ⟨0, 0⟩ = some s.wave ∧ s.wave.arch.wdog = 1 ∧ s.wave.arch.mode = .user ∧ s.wave.live = true ∧ s.wave.stop = none ∧
     s.viAt s.wave.env.vi = some someVi ∧ someVi.phase = .active) ∧
    (∀ n, let s := watched n
      atBoundary s ∧ s.wave.arch.mode = .user ∧ s.wave.expiryDue = true ∧ s.wave.failures = [] ∧ s.wave.svStart = none ∧ 0 < s.wave.env.wavew ∧
      s.viAt s.wave.env.vi = some { someVi with desc := { someDesc with svBudget := n.toNat } }) ∧
    (let s := bordering fun w => { w with stepDue := true }
     s.wave.stepDue = true ∧ s.wave.arch.mode = .user ∧ atBoundary s ∧ s.wave.failures = [] ∧ s.wave.expiryDue = false) ∧
    (let s := bordering fun w => { w with stepDue := true, status := .inClause }
     s.wave.stepDue = true ∧ s.wave.status = .inClause ∧ s.wave.hints = [] ∧ s.wave.issued = false ∧ s.wave.stop = none ∧ s.wave.pending = none ∧
     s.wave.waitInv = none ∧ s.wave.lookoutOf = none ∧ s.wave.ll = [] ∧ s.running = true) := by
  refine ⟨⟨rfl, rfl, rfl, rfl, rfl⟩, fun c => ⟨rfl, rfl, atBoundary_of ⟨.inl rfl, rfl, rfl, rfl, rfl, rfl, rfl⟩ rfl rfl, nofun⟩,
    by decide +kernel, fun n => ⟨atBoundary_of ⟨.inl rfl, rfl, rfl, rfl, rfl, rfl, rfl⟩ rfl rfl, rfl, rfl, rfl, rfl, Nat.zero_lt_succ 15, rfl⟩,
    ⟨rfl, rfl, atBoundary_of ⟨.inl rfl, rfl, rfl, rfl, rfl, rfl, rfl⟩ rfl rfl, rfl, rfl⟩, by decide +kernel⟩

end Sys2Proof.Machine
end

