-- ==== Sys2Proof/Tests/WitnessI.lean ====
section
/-!
SUPPORT. Concrete states that meet the hypotheses of the statements on travellers, replication, pin windows, ownership regions and keepers,
clause by clause.
-/
namespace Sys2Proof.Machine

set_option Elab.async false

open Sys2Proof.Claims

/-! ## Travellers -/

/-- Grid 0 in ferry mode with teams 0 and 1 on cores 0 and 1; segment 0 with its primary in team 0, a replica loading in a team or none. -/
def pairGrid (loading : Option Nat) : Grid :=
  { someGrid 0 none with
    record := { someRecord with flags := 2, gx := 2, ovfBase := 0x6000000000004000, ovfSize := 4096 },
    sections := [{ kind := 2, seg := 0, off := 0, size := 8 }],
    reaches := [{ index := 0, phase := .running, relaunches := 0,
                  teams := [{ team := 0, cores := [0], lbase := 0, ended := false, entry := none },
                            { team := 1, cores := [1], lbase := 0, ended := false, entry := none }] }],
    map := some { high := 1, dwell := 2, spare := [1], segs := [{ seg := 0, primary := 0, replicas := [], loading := loading, hotSince := some 0 }] } }

def someTraveller (offerAt : Nat) : Traveller :=
  { grid := 0, slot := 0, entry := 4, lmask := 3, lbase := 0, spawn := false, seg := 0, preds := 5, src := 1, team := 0, regs := [(0, 7)],
    offerAt := offerAt, departAt := 64 }

/-- Core 0 of that grid with travellers in its buffer and its landing queue, some on the network; 4096 core cycles have passed. -/
def travelling (dep land net : List Traveller) (mem : List Host.Cell) : State :=
  let s := gridState (pairGrid none) []
  { s with clock := clockAt 4096 64 0, net := net, mem := mem,
           core := { s.core with residents := [{ placedOn0 with slots := [0] }], departure := dep, landing := land } }

theorem meets_TravellersLand_departures :
    (let s := travelling [someTraveller 0] [] [] []
     (s.coreAt 0).departure[0]? = some (someTraveller 0) ∧ s.gridAt 0 = some (pairGrid none) ∧ s.landingTeam (pairGrid none) 0 = some 0 ∧
     (pairGrid none).coreOf 0 = some 0 ∧ s.viRuns 0 = true ∧ (s.coreAt 0).leftAt ≤ s.coreTime 0 ∧ (someTraveller 0).made + 64 ≤ s.coreTime 0 ∧
     (s.coreAt 0).struck = none ∧ (s.coreAt 0).held = []) ∧
    (let s := travelling [someTraveller 64] [] [] []
     (s.coreAt 0).departure[0]? = some (someTraveller 64) ∧ (someTraveller 64).offerAt ≠ 0 ∧ (someTraveller 64).offerAt ≤ s.uncore) ∧
    (let s := travelling [] [] [someTraveller 0] []
     s.net[0]? = some (someTraveller 0) ∧ s.gridAt 0 = some (pairGrid none) ∧ (pairGrid none).coreOf 0 = some 0 ∧
     chanStop 0 = chanStop (someTraveller 0).src ∧
     (s.coreAt 0).landing.length < 2048 ∧ s.overflowEmpty (pairGrid none) 0 = true) ∧
    (let t := { someTraveller 0 with src := 300, tag := 9 }
     let s := { travelling [] [] [t] [] with ring := { State.reset.ring with ejected := [t.msg 0 0] } }
     s.net[0]? = some t ∧ chanStop 0 ≠ chanStop t.src ∧ (∃ m ∈ s.ring.ejected, m.cls = 5 ∧ m.seq = t.tag) ∧
     (s.coreAt 0).landing.length < 2048 ∧ s.overflowEmpty (pairGrid none) 0 = true) ∧
    (let s := travelling [] [] [someTraveller 0] [(0x4000, 1)]
     s.net[0]? = some (someTraveller 0) ∧ s.overflowEmpty (pairGrid none) 0 = false) := by
  decide +kernel

theorem meets_TravellersLand_landings :
    (let s := travelling [] [] [] [(0x4000, 1), (0x4040, 4), (0x4044, 3)]
     let e := s.ferryEnv (pairGrid none)
     let a := e.overflowArea 0
     s.ferryTeam (s.coreAt 0) = some (pairGrid none, 0) ∧ s.hubRead e a 8 = some 1 ∧ s.hubRead e (a + 8) 8 = some 0 ∧
     (s.coreAt 0).landing.length < 2048 ∧ s.viRuns 0 = true ∧ e.overflowRoom = 31 ∧ s.hubRead e (a + 64) 128 = some 12884901892 ∧
     (s.hubWrite e (a + 8) (bytesOf 8 1)).isSome = true) ∧
    (let s := travelling [] [someTraveller 0] [] []
     (s.coreAt 0).landing = [someTraveller 0] ∧ s.gridAt 0 = some (pairGrid none) ∧ s.viRuns 0 = true ∧
     ((s.coreAt 0).enterBin 0 0 4 (pairGrid none).record.width { regs := (someTraveller 0).regs, preds := (someTraveller 0).preds, held := false }).isSome
       = true) ∧
    (let s := travelling [] [someTraveller 0] [] []
     s.gridAt 0 = some (pairGrid none) ∧ (pairGrid none).coreOf 0 = some 0 ∧ 1 ≤ (s.coreAt 0).landing.length ∧ 0 + 2 * 1024 ≤ s.now ∧
     s.viRuns 0 = true) ∧
    (let s := gridState (pairGrid (some 1)) []
     s.gridAt 0 = some (pairGrid (some 1)) ∧ s.viAt 0 = some (engineVi slotQueue) ∧ s.viRuns 0 = true ∧ (pairGrid (some 1)).coreOf 1 = some 1 ∧
     gets (s.segmentBytes (engineVi slotQueue) (pairGrid (some 1)) 0) (fun bs => decide (bs.length = 8)) = true) := by
  decide +kernel

/-! ## Pin windows -/

/-- An entry of a pin window: 64 KiB of tensor memory from an address on, in slices 0 and 1, in a state. -/
def pinEntry (base st : Nat) : List Nat :=
  [0, 0, base, 0, 0, 0, 0, 0x60, 0, 0, 1, 0, 0, 0, 0, 0, 3, 0, 0, 0, 0, 0, 0, 0, 0, 0, 0, 0, 0, 0, 0, 0, st]

/-- VI 0 with four pin windows, and with pin windows at work. -/
def pinningVi (ps : List PinWindow) : Vi := { someVi with desc := { someDesc with pinWin := 4 }, pins := ps }

/-- The entries of windows 0 and 1. -/
def pinning (a b : List Nat) (ps : List PinWindow) : State :=
  let s := setting [] []
  { s with vis := [pinningVi ps], mem := bytesFrom (2 ^ 40 + 0x40400) a ++ bytesFrom (2 ^ 40 + 0x40440) b }

theorem meets_PinsRegionsAndKeepers_pins :
    (let s := pinning [] [] []
     s.viAt 0 = some (pinningVi []) ∧ (pinningVi []).desc.pinWin ≤ 4 ∧ s.pinField (pinningVi []) 1 0x20 1 = 0 ∧ s.pinBreaks (pinningVi []) 1 = true) ∧
    (pinning (pinEntry 0 1) [] []).pinField (pinningVi []) 0 0x20 1 = 1 ∧
    (let s := pinning (pinEntry 0 0) (pinEntry 0 2) []
     s.pinField (pinningVi []) 0 0x20 1 = 0 ∧ s.pinBreaks (pinningVi []) 0 = false ∧ s.pinOverlaps (pinningVi []) 0 = true) ∧
    (let s := pinning (pinEntry 0 0) (pinEntry 1 2) []
     s.pinField (pinningVi []) 0 0x20 1 = 0 ∧ s.pinBreaks (pinningVi []) 0 = false ∧ s.pinOverlaps (pinningVi []) 0 = false) ∧
    (let v := pinningVi [{ w := 0, active := false, asid := 0, lines := [{ line := 0, slice := 0, vpage := 0x6000000000000000 }] }]
     let s := pinning (pinEntry 0 2) [] v.pins
     let u := s.unpin v 0
     let y := { v with pins := v.pins.filter (·.w != 0) }
     s.pinField v 0 0x20 1 = 2 ∧ u.pinBreaks y 0 = false ∧ u.pinOverlaps y 0 = false) ∧
    (let v := pinningVi [{ w := 0, active := true, asid := 0, lines := [] }]
     let s := pinning (pinEntry 0 1) [] v.pins
     s.viAt 0 = some v ∧ (∃ p ∈ v.pins, p.w = 0 ∧ p.active = true) ∧ s.pinField v 0 8 8 = 65536) := by
  decide +kernel

/-! ## Ownership regions -/

/-- Region 3 marked, wanted by the other side, its hold run. -/
def owned (wanted : Bool) : State :=
  let s := setting [] []
  { s with clock := clockAt 0 9000 0,
           hub := { s.hub with regions := [{ region := 3, accel := true, holdUntil := 8192, wanted := wanted }] } }

theorem meets_PinsRegionsAndKeepers_regions : ∀ w,
    (owned w).hub.regions.find? (·.region == 3) = some { region := 3, accel := true, holdUntil := 8192, wanted := w } ∧
    8192 ≤ (owned w).uncore := by
  decide +kernel

/-! ## Keepers -/

/-- The keeper of slice 0, with messages, a run or a held handler; the handler table's entry 0, and the code of one word. -/
def keeping (entry : List Nat) (q : List KeeperMsg) (r : Option KeeperRun) (h : List KeeperHeld) : State :=
  let s := setting [] []
  { s with mem := bytesFrom (2 ^ 40) [0x0B, 0x40] ++ bytesFrom (2 ^ 40 + 0x41000) entry,
           keeper := { slice := 0, queue := q, run := r, held := h } }

/-- An entry for code of four bytes at an address of control space. -/
def handlerBytes (page : Nat) : List Nat := [0, 0, page, 0, 0, 0, 0, 0x40, 4, 0, 1]

/-- The places of that code. -/
def codePlaces : List Place := (List.range 4).map fun k => Place.mem (2 ^ 40 + k)

/-- The pages of VI 0 with two more, under a size of its control memory: 2 GiB into that of package 0, and in that of package 1. -/
def otherPages (size : Nat) (s : State) : State :=
  { s with vis := s.vis.map fun v => { v with
             desc := { v.desc with ctlSize := size },
             pages := v.pages ++ [{ asid := 0, vpage := 0x4000000000030000, key := 2 ^ 40 + 2 ^ 31, read := true, write := true, user := true },
                                  { asid := 0, vpage := 0x4000000000040000, key := 2 ^ 40 + 2 ^ 35, read := true, write := true, user := true }] } }

/-- What a look at code answers, as Bools. -/
def codeFails (x : Except LineFault (List Place)) (y : LineFault) : Bool :=
  match x with
  | .ok _ => false
  | .error z => decide (z = y)

def heldMsg : KeeperHeld := { msg := someMsg, kind := 0, status := 9, reply := [1], lines := [0], writes := [(4, 7)], at_ := 0 }

theorem meets_PinsRegionsAndKeepers_messages :
    (let u := keeping [] [someMsg] none []
     u = u.focusKeeper 0 ∧ u.keeper.run = none ∧ u.keeper.held = [] ∧ u.keeper.queue = [someMsg] ∧ u.viRuns someMsg.vi = true ∧
     u.opAt someMsg.op = none ∧ u.ring.reached someMsg.op (sliceStop 0) = true ∧ (∀ p ∈ u.entryPlaces someMsg, u.available false p = true) ∧
     u.handlerEntry someMsg = none) ∧
    (let u := keeping (handlerBytes 2) [someMsg] none []
     u.handlerEntry someMsg = some (0x4000000000020000, 4) ∧ codeFails (u.handlerCode someMsg 0x4000000000020000 4) .line = true) ∧
    (let u := otherPages (2 ^ 30) (keeping (handlerBytes 3) [someMsg] none [])
     u.handlerEntry someMsg = some (0x4000000000030000, 4) ∧ codeFails (u.handlerCode someMsg 0x4000000000030000 4) .breach = true) ∧
    (let u := keeping (handlerBytes 0) [someMsg] none []
     u.handlerEntry someMsg = some (0x4000000000000000, 4) ∧ answersOk (u.handlerCode someMsg 0x4000000000000000 4) codePlaces = true ∧
     (∀ p ∈ codePlaces, u.available false p = true) ∧ answersOk (u.keeperLine someMsg 0 .read someMsg.target) 0 = true ∧
     u.atHand false (128 * 0) = true ∧ u.keeperHolds (128 * 0) = false ∧ u.lineGone (128 * 0) = false) ∧
    (let m := { someMsg with target := 0x2000000000000000 }
     lineFails ((keeping (handlerBytes 0) [m] none []).keeperLine m 0 .read m.target) .line = true) ∧
    (let m := { someMsg with target := 0x4000000000030000 }
     lineFails ((otherPages (2 ^ 30) (keeping (handlerBytes 0) [m] none [])).keeperLine m 0 .read m.target) .breach = true) := by
  decide +kernel

/-- A message to a line of control memory whose homes, packages 1 and 2, are both lost. -/
def toLostLine (slice : Nat) : State :=
  let m := { someMsg with target := 0x4000000000040000 }
  let s := otherPages (2 ^ 36) (keeping (handlerBytes 0) [m] none [])
  { s with platform := { s.platform with record := { s.platform.record with portmap := [1, 2] } }, fabric := { s.fabric with lost := [1, 2] }, keeper := { s.keeper with slice := slice } }

theorem meets_PinsRegionsAndKeepers_lost : ∃ slice,
    let l := (2 ^ 40 + 2 ^ 35) / 128
    answersOk ((toLostLine slice).keeperLine { someMsg with target := 0x4000000000040000 } slice .read 0x4000000000040000) l = true ∧
    (toLostLine slice).atHand false (128 * l) = true ∧ (toLostLine slice).keeperHolds (128 * l) = false ∧
    (toLostLine slice).lineGone (128 * l) = true :=
  ⟨64, by decide +kernel⟩

theorem meets_PinsRegionsAndKeepers_releases :
    (let s := { keeping (handlerBytes 0) [] none [heldMsg] with clock := clockAt 0 64 0 }
     let x : State := { s with keeper := { s.keeper with held := [] } }
     (s.keeperAt 0).held = [heldMsg] ∧ heldMsg.at_ + 64 ≤ s.sliceTime 0 ∧ s.handlerEntry heldMsg.msg = some (0x4000000000000000, 4) ∧
     answersOk (s.handlerCode heldMsg.msg 0x4000000000000000 4) codePlaces = true ∧
     (∀ p ∈ x.entryPlaces heldMsg.msg ++ codePlaces, x.available false p = true) ∧
     answersOk (s.keeperLine heldMsg.msg 0 .read heldMsg.msg.target) 0 = true ∧ 0 ∈ heldMsg.lines ∧ s.lineGone (128 * 0) = false) ∧
    (let r := someRun 3 [] [0]
     let s := keeping (handlerBytes 0) [] (some r) []
     let x : State := { s with keeper := { s.keeper with run := none } }
     s.keeper.run = some r ∧ s.handlerEntry r.msg = some (0x4000000000000000, 4) ∧
     answersOk (s.handlerCode r.msg 0x4000000000000000 4) codePlaces = true ∧
     (∀ p ∈ x.entryPlaces r.msg ++ codePlaces, x.available false p = true) ∧
     answersOk (s.keeperLine r.msg 0 .read r.msg.target) 0 = true ∧ 0 ∈ r.lines) := by
  decide +kernel

end Sys2Proof.Machine
end

