-- ==== Sys2Proof/Tests/WitnessJ.lean ====
section
/-!
SUPPORT. Concrete states that meet the hypotheses of the statements on the end of asynchronous operations and on the matrix engine, clause
by clause.
-/
namespace Sys2Proof.Machine

set_option Elab.async false

open Sys2Proof.Claims

/-! ## Asynchronous operations -/

/-- Operation 5 of the wave of `setting`, started, with nothing left and nothing awaited: sixteen bytes from tensor memory to the local
store. -/
def someOp (k : AsyncKind) : AsyncOp :=
  { id := 5, kind := k, core := 0, slot := 0, env := someEnv, mode := .user, counter := some 0, stream := 1, tag := some 7,
    src := 0x6000000000000000, dst := 0x2000000000000010, len := 16,
    pages := [{ asid := 0, vpage := 0x6000000000000000, key := 0, read := true, write := true, user := true }],
    home := 0, left := [], out := [], parts := [], started := true, status := none, ended := false, orphan := false, reply := none }

def withOps (os : List AsyncOp) : State :=
  let s := setting [] []
  { s with ops := os, wave := { s.wave with ocx := 1 } }

def someAtomic : AtomicOp := { op := 0, size := 4, b := 1, e := 0 }

/-- The same wave with a long-latency instruction that awaits an answer. -/
def withLong (os : List AsyncOp) : State :=
  let s := withOps os
  { s with wave := { s.wave with ll := [{ id := 9, flag := none, left := 1, writes := [] }] } }

def collectiveOp : AsyncOp := someOp (.collective (someCollective.map (BitVec.ofNat 8)) 16 [0])

theorem meets_OperationsEnd_ends :
    ([AsyncKind.copy, .copyT [] 0 0 0 0 true, .gather 4 []].all fun k =>
      let o := someOp k
      let f := { o with status := some .lostPacket }
      decide ((withOps [o]).opAt 5 = some o ∧ ((withOps [o]).ops.map (·.id)).Nodup ∧ o.ended = false ∧ o.started = true ∧
        (withOps [o]).awaiting 5 = false ∧ o.left = [] ∧ (withOps [f]).opAt 5 = some f ∧ f.started = true ∧ OpStatus.lostPacket ≠ .success ∧
        f.status = some .lostPacket)) = true ∧
    (let s := withOps [collectiveOp]
     s.opAt 5 = some collectiveOp ∧ s.collOf collectiveOp = some { desc := someCollective.map (BitVec.ofNat 8), count := 16, own := 0 } ∧
     (Coll.mk (someCollective.map (BitVec.ofNat 8)) 16 0).members = [0] ∧ collectiveOp.heard = [0] ∧ s.awaiting 5 = false) ∧
    (let o := { someOp (.xratom someAtomic 3 9) with reply := some (0, 0, [5, 0, 0, 0]) }
     (withLong [o]).opAt 5 = some o ∧ (withLong [o]).waveAt ⟨0, 0⟩ = some (withLong [o]).wave ∧
     (withLong [o]).wave.ll.find? (·.id == 9) = some { id := 9, flag := none, left := 1, writes := [] }) ∧
    (let o := { someOp (.amsg 2 [] 4) with reply := some (0, 9, [1]) }
     (withOps [o]).opAt 5 = some o ∧ o.kind = .amsg 2 [] 4 ∧ o.reply = some (0, 9, [1]) ∧
      (withOps [o]).ring.reached 5 (chanStop o.core) = true) := by
  decide +kernel

/-- A copy of which nothing has been performed. -/
def wholeCopy : AsyncOp := { someOp .copy with left := [(0, 16)] }

theorem meets_OperationsEnd_copy : ∃ ps qs,
    (withOps [wholeCopy]).opAt 5 = some wholeCopy ∧ ((withOps [wholeCopy]).ops.map (·.id)).Nodup ∧ wholeCopy.kind = .copy ∧
    wholeCopy.left = [(0, wholeCopy.len)] ∧ (withOps [wholeCopy]).awaiting 5 = false ∧ (withOps [wholeCopy]).isLocalOp wholeCopy = true ∧
    (withOps [wholeCopy]).remoteOf wholeCopy wholeCopy.src = none ∧
    (∀ i < wholeCopy.len, (withOps [wholeCopy]).windowGone wholeCopy (wholeCopy.src + BitVec.ofNat 64 i) = false ∧
      (withOps [wholeCopy]).windowGone wholeCopy (wholeCopy.dst + BitVec.ofNat 64 i) = false) ∧
    (∀ i < wholeCopy.len, (withOps [wholeCopy]).remoteOf wholeCopy (wholeCopy.src + BitVec.ofNat 64 i) = none ∧
      (withOps [wholeCopy]).remoteOf wholeCopy (wholeCopy.dst + BitVec.ofNat 64 i) = none) ∧
    (withOps [wholeCopy]).heldBack wholeCopy = false ∧ (withOps [wholeCopy]).viRuns wholeCopy.env.vi = true ∧
    wholeCopy.places wholeCopy.src 16 = some ps ∧ wholeCopy.places wholeCopy.dst 16 = some qs ∧ qs.Nodup ∧
    (withOps [wholeCopy]).breaks wholeCopy.env.vi wholeCopy.mode (ps ++ qs) = false ∧ (withOps [wholeCopy]).hostDown (ps ++ qs) = false ∧
    (∀ p ∈ ps, (withOps [wholeCopy]).available false p = true) ∧ (∀ q ∈ qs, (withOps [wholeCopy]).available true q = true) :=
  ⟨(List.range 16).map Place.mem, (List.range 16).map fun i => .store 0 (16 + i), by decide +kernel⟩

/-! ## Matrix operations -/

/-- Operation 5 of the core's matrix set. -/
def queued (k : MatrixKind) (begun : Option Nat) : MatrixOp :=
  { id := 5, slot := 0, env := someEnv, kind := k, ta := 1, tb := 2, tca := 0x003F001F, tcb := 0, origin := 0, issuedAt := 0, notBefore := 9,
    begunAt := begun }

/-- A core with such operations and full receive buffers or none, beside a core of the same grid or none. -/
def matrixCore (q : List MatrixOp) (rill : List (Nat × List Byte)) (peer : Bool) (now : Nat) : State :=
  let s := setting [] []
  { s with
    clock := clockAt now 0 0,
    core := { s.core with matrix := { s.core.matrix with queue := q, data := { MatrixData.zero with rill := rill } } },
    cores := if peer then [{ Core.empty 1 with residents := [placedOn0] }] else [],
    wave := { s.wave with openBatch := { left := [5], size := 1, flags := 0, closedAt := 0 } } }

theorem meets_MatrixOperationsRun_begins :
    ([(MatrixKind.tzero, false), (.trecv 1, false), (.txfer 1, true), (.txfer 1, false)].all fun x =>
      let o := queued x.1 none
      let s := matrixCore [o] [(1, [7])] x.2 9
      decide ((s.coreAt 0).matrix.queue.find? (·.id == 5) = some o ∧ o.begunAt = none ∧ o.notBefore ≤ s.now ∧
        s.matrixRuns o.env.vi = true ∧ ((s.coreAt 0).matrix.queue.takeWhile (·.id != 5)) = [] ∧
        ((s.coreAt 0).matrix.queue.filter fun y => y.id != 5) = [])) = true ∧
    (matrixCore [queued (.txfer 1) none] [] true 9).rillPeer 0 1 0 = some { Core.empty 1 with residents := [placedOn0] } ∧
    (matrixCore [queued (.txfer 1) none] [] false 9).rillPeer 0 1 0 = none ∧
    (matrixCore [queued (.txfer 1) none] [] false 9).wave.hasMatrixOp 5 = true ∧
    (let x := { queued (.mma true false) (some 0) with id := 4 }
     let o := queued (.mma false false) none
     let s := matrixCore [x, o] [] false 1000
     s.core.matrix.queue.takeWhile (·.id != 5) = [x] ∧ x.onlyBlock o = true ∧ x.holding s.now = false) := by
  decide +kernel

theorem meets_MatrixOperationsRun_completions :
    ([MatrixKind.tzero, .tld 0x2000000000000000, .tst 0x2000000000000000, .amzero 0x1C03C00000000, .amcpOut 0x1C03C00000000,
      .amcpIn 0x1C03C00000000, .mma true false, .mmax true false 7, .trecv 1, .txfer 1].all fun k =>
      let o := queued k (some 0)
      let s := matrixCore [o] [(1, [7])] true 10000
      decide ((s.coreAt 0).matrix.queue.find? (·.id == 5) = some o ∧ 0 + o.cycles.1 - 1 + o.cycles.2 ≤ s.now ∧
        ((s.coreAt 0).matrix.queue.takeWhile (·.id != 5)) = [])) = true ∧
    (queued (.mma true false) none).task.isSome = true ∧ (queued (.mmax true false 7) none).task.isSome = true ∧
    (matrixCore [] [(1, [7])] true 0).core.matrix.data.rill.find? (·.1 == 1) = some (1, [7]) ∧
    (matrixCore [] [] true 0).rillPeer 0 1 0 = some { Core.empty 1 with residents := [placedOn0] } ∧ rillNeighbour 0 1 = some 1 ∧
    (queued (.txfer 1) none).done = 0 := by
  decide +kernel

end Sys2Proof.Machine
end

