-- ==== Sys2Proof/Tests/WitnessK.lean ====
section
/-!
SUPPORT. Concrete states and packets that meet the hypotheses of the statements on control lines across the domain, clause by clause.
-/
namespace Sys2Proof.Machine

set_option Elab.async false

open Sys2Proof.Claims

/-- Package 0 of a domain of four; its port 4 runs to package 1. -/
def linked : State :=
  let s := setting [] []
  { s with
    platform := { s.platform with phase := .up, record := { s.platform.record with domsize := 8, portmap := [1, 2, 3] } },
    fabric := { s.fabric with ports := [{ Port.idle 4 with state := .running, peer := 1 }] } }

/-- A packet of a type from a package to this one, about control line 0. -/
def packetFrom (src op : Nat) : FabPacket := sealPacket { linked.packet 0 op with src := src, port := 4, len := 128, tag := 3 }

/-- The same kept here. -/
def keptState (s : State) (p : FabPacket) : State := { s with fabric := { s.fabric with heldIn := [p] } }

/-- The state in which a packet that is kept is served. -/
theorem takes_kept {s : State} {p : FabPacket} (h : s.fabric.heldIn = [p]) : takes s p { s with fabric := { s.fabric with heldIn := [] } } id := by
  unfold takes
  rw [if_pos (by rw [h]; exact List.mem_singleton.2 rfl), h]
  refine ⟨?_, fun _ => rfl⟩
  rw [List.erase_cons_head]

/-- The state with no packet kept. -/
def unkept (s : State) : State := { s with fabric := { s.fabric with heldIn := [] } }

theorem takes_keptState (s : State) (p : FabPacket) : takes (keptState s p) p (unkept s) id := takes_kept rfl

/-- `linked` after its port received a packet of package 1. -/
def received : State :=
  { linked with fabric := Fabric.accept { linked.fabric with ports := [{ Port.idle 4 with state := .running, peer := 1, rxCount := 1 }] } 1 0 }

/-- A packet waits in the reorder buffer. -/
def reordered : State := { linked with fabric := { linked.fabric with reorder := [packetFrom 1 1] } }

/-- A packet is taken from a kept place, from this package itself, over its port, and out of the reorder buffer. -/
theorem meets_takes :
    takes (keptState linked (packetFrom 1 1)) (packetFrom 1 1) (unkept linked) id ∧
    takes linked (packetFrom 0 1) linked id ∧
    takes linked (packetFrom 1 1) received (fun t => t.deliverNext 1 0) ∧
    takes reordered (packetFrom 1 1) { linked with fabric := Fabric.accept linked.fabric 1 0 } (fun t => t.deliverNext 1 0) := by
  refine ⟨?_, ?_, ?_, ?_⟩
  · generalize packetFrom 1 1 = p
    exact takes_keptState linked p
  · unfold takes
    rw [if_neg (by decide +kernel), if_pos (by decide +kernel)]
    exact ⟨rfl, fun _ => rfl⟩
  · unfold takes
    rw [if_neg (by decide +kernel), if_neg (by decide +kernel)]
    refine ⟨by decide +kernel, by decide +kernel, by decide +kernel, by decide +kernel, fun _ => rfl, ?_⟩
    rw [if_neg (by decide +kernel)]
    exact ⟨{ Port.idle 4 with state := .running, peer := 1 }, by decide +kernel⟩
  · unfold takes
    rw [if_neg (by decide +kernel), if_neg (by decide +kernel)]
    refine ⟨by decide +kernel, by decide +kernel, by decide +kernel, by decide +kernel, fun _ => rfl, ?_⟩
    rw [if_pos (by decide +kernel)]
    decide +kernel

/-! ## The home -/

/-- The home with a directory entry of line 0, a mirror home or none. -/
def homeWith (st : Moesi) (sharers : BitVec 16) (owner : Nat) (mirror : Bool) : State :=
  { linked with
    control := { linked.control with dir := [{ line := 0, st := st, sharers := sharers, owner := owner }] },
    platform := { linked.platform with record := { linked.platform.record with portmap := if mirror then [1, 2, 3] else [] } } }

theorem homeFree_of {u : State} {l : Nat} (h : u.servesLine (lineKey l) = true ∧ u.txnAt l = none ∧ u.keeperHolds (lineKey l) = false) :
    homeFree u l := h

theorem meets_ControlHomeServesRequests_requests :
    packetLine (packetFrom 1 1) = 0 ∧ ¬homeFree { linked with keeper := { linked.keeper with run := some { someRun 0 [] [] with lines := [2 ^ 33] } } } 0 ∧
    (∀ m, homeFree (homeWith .shared 4 0 m) 0 ∧ homeFree (homeWith .modified 1 0 m) 0 ∧ homeFree (homeWith .modified 4 2 m) 0 ∧
      homeFree (homeWith .modified 2 1 m) 0 ∧ homeFree (homeWith .owned 6 1 m) 0 ∧ homeFree (homeWith .shared 2 0 m) 0) ∧
    (homeWith .shared 4 0 true).mirrorPkg = some 1 ∧ (homeWith .shared 4 0 false).mirrorPkg = none ∧
    recalled (homeWith .shared 2 0 true) 0 (some 1) = [] ∧ recalled (homeWith .shared 4 0 true) 0 (some 1) = [2] ∧
    recalled (homeWith .shared 0 0 true) 0 none = [] ∧ recalled (homeWith .owned 4 1 true) 0 none = [1, 2] ∧
    ((homeWith .modified 4 2 true).dirEntry 0).owner ≠ (homeWith .modified 4 2 true).pkg ∧
    ((homeWith .modified 1 0 true).dirEntry 0).owner = (homeWith .modified 1 0 true).pkg ∧ (homeWith .modified 4 2 true).pkg = 0 := by
  refine ⟨by decide +kernel, ?_, fun m => ⟨homeFree_of ?_, homeFree_of ?_, homeFree_of ?_, homeFree_of ?_, homeFree_of ?_, homeFree_of ?_⟩,
    by decide +kernel⟩
  · rintro ⟨-, -, h⟩
    exact absurd h (by decide +kernel)
  all_goals revert m; decide +kernel

/-- A request that the home is serving. -/
def someTxn (phase : HomePhase) (acks : List Nat) (op : Nat) (data : Option (List Byte)) (sends : List FabPacket) : HomeTxn :=
  { line := 0, req := packetFrom 1 op, phase := phase, acks := acks, entry := ownedBy 0 1, data := data, sends := sends }

def servingHome (t : HomeTxn) : State := { linked with control := { linked.control with txns := [t] } }

theorem meets_ControlHomeServesRequests_answers :
    linked.txnAt 0 = none ∧ packetLine (packetFrom 2 0x15) = 0 ∧
    (servingHome (someTxn .collecting [3] 2 none [])).txnAt 0 = some (someTxn .collecting [3] 2 none []) ∧ 2 ∉ [3] ∧
    (servingHome (someTxn .collecting [2, 3] 2 none [])).txnAt 0 = some (someTxn .collecting [2, 3] 2 none []) ∧ [2, 3].filter (· != 2) ≠ [] ∧
    (servingHome (someTxn .forwarding [2] 1 none [])).txnAt 0 = some (someTxn .forwarding [2] 1 none []) ∧ [2].filter (· != 2) = [] ∧
    (servingHome (someTxn .collecting [2] 2 none [])).txnAt 0 = some (someTxn .collecting [2] 2 none []) ∧
    (someTxn .collecting [2] 2 none []).entry.line = 0 ∧ (packetFrom 1 2).op = 2 ∧
    (servingHome (someTxn .mirroring [] 4 (some (List.replicate 128 7)) [packetFrom 0 0x12])).txnAt 0 =
      some (someTxn .mirroring [] 4 (some (List.replicate 128 7)) [packetFrom 0 0x12]) ∧
    (servingHome (someTxn .mirroring [] 1 none [packetFrom 0 0x13])).txnAt 0 = some (someTxn .mirroring [] 1 none [packetFrom 0 0x13]) := by
  decide +kernel

/-! ## Requesters and holders -/

/-- Line 5, whose home is another package or this one, wanted with tag 3. -/
def wanting : State :=
  { linked with control := { linked.control with wanted := [{ line := 5, write := true, since := 0, grid := 0, reach := 0, tag := some 3 }] } }

/-- An atomic sent to its home with tag 3. -/
def atomicSent : State :=
  let s := setting [] []
  { linked with
    core := { s.core with held := [{ slot := 0, at_ := 0, kind := .atomic (.mem (2 ^ 40)) someAtomic 9 [.vec 3 0 0] false [] (some 3) }] },
    wave := { s.wave with ll := [{ id := 9, flag := none, left := 1, writes := [] }] } }

/-- This package holds a copy of line 0; a keeper holds the line or not. -/
def holding0 (st : Moesi) (keeper : Bool) : State :=
  { linked with
    control := { linked.control with copies := [(0, st)] },
    keeper := { linked.keeper with run := if keeper then some { someRun 0 [] [] with lines := [2 ^ 33] } else none } }

theorem meets_ControlCopiesAndArrivals_copies :
    wanting.wantAt (packetFrom 1 0x10).tag = some { line := 5, write := true, since := 0, grid := 0, reach := 0, tag := some 3 } ∧
    ({ packetFrom 1 0x10 with payload := List.replicate 128 7 } : FabPacket).payload.length = 128 ∧
    (let c := atomicSent.core
     let h : Held := { slot := 0, at_ := 0, kind := .atomic (.mem (2 ^ 40)) someAtomic 9 [.vec 3 0 0] false [] (some 3) }
     atomicSent.wantAt 3 = none ∧ (c :: atomicSent.cores).find? (fun c => c.held.any (·.sentAs 3)) = some c ∧
     c.held.find? (·.sentAs 3) = some h ∧ atomicSent.waveAt ⟨0, 0⟩ = some atomicSent.wave ∧
     atomicSent.wave.ll.find? (·.id == 9) = some { id := 9, flag := none, left := 1, writes := [] }) ∧
    (∀ st, (holding0 st false).keeperHolds (lineKey 0) = false ∧ (holding0 st false).control.copies = [(0, st)]) ∧
    (holding0 .owned true).keeperHolds (lineKey 0) = true := by
  refine ⟨by decide +kernel, by decide +kernel, by decide +kernel, fun st => ⟨?_, rfl⟩, by decide +kernel⟩
  cases st <;> decide +kernel

/-! ## Arrivals -/

/-- The port of `linked` in a state. -/
def atPort (st : PortState) (lost : List Nat) (seq : Nat) : State :=
  { linked with fabric := { linked.fabric with ports := [{ Port.idle 4 with state := st, peer := 1 }], lost := lost, seqIn := [(1, 0, seq)] } }

/-- What every clause on an arrival asks. -/
def arrives (s : State) (p : FabPacket) : Bool :=
  decide ((packetEvent p).isSome = true ∧ p ∉ s.fabric.heldIn ∧ p.src ≠ s.pkg ∧ p ∉ s.fabric.reorder ∧ (s.portAt p.port).isSome = true)

def comesGood (s : State) (p : FabPacket) : Bool :=
  match s.portAt p.port with
  | some x => p.tagOk && (!x.finished || p.ctr == x.rxCount) && x.accepts p && (p.relayed || decide (x.peer = p.src))
  | none => false

theorem meets_ControlCopiesAndArrivals_arrivals :
    (let p := { packetFrom 1 1 with tagOk := false }
     arrives (atPort .running [] 0) p && arrives (atPort .locked [] 0) p && arrives (atPort .training [] 0) p) = true ∧
    (let p := { packetFrom 1 1 with ctr := 1 }
     let s := { linked with fabric := { linked.fabric with ports := [{ Port.idle 4 with state := .running, peer := 1, finished := true }] } }
     arrives s p = true ∧ ¬(p.tagOk = true ∧ ((s.portAt 4).any fun x => x.finished && p.ctr != x.rxCount) = false)) ∧
    (arrives (atPort .training [] 0) (packetFrom 1 1) = true ∧ comesGood (atPort .training [] 0) (packetFrom 1 1) = false) ∧
    (arrives linked (packetFrom 2 1) = true ∧ comesGood linked (packetFrom 2 1) = false) ∧
    (let p := { packetFrom 1 1 with dst := 3 }
     arrives linked p = true ∧ comesGood linked p = true ∧ p.relayed = false) ∧
    (let p := { packetFrom 2 1 with dst := 1, relayed := true }
     arrives linked p = true ∧ comesGood linked p = true ∧ (linked.portTo 1).isSome = true) ∧
    (let p := { packetFrom 1 1 with dst := 3, relayed := true }
     arrives linked p = true ∧ comesGood linked p = true ∧ linked.portTo 3 = none) ∧
    (arrives (atPort .running [1] 0) (packetFrom 1 1) = true ∧ comesGood (atPort .running [1] 0) (packetFrom 1 1) = true) ∧
    (let p := { packetFrom 1 1 with crc := (packetFrom 1 1).crc + 1 }
     arrives linked p = true ∧ comesGood linked p = true ∧ headerGood p = false) ∧
    (let p := packetFrom 1 1
     arrives (atPort .running [] 1) p = true ∧ headerGood p = true ∧ comesBefore p.seq ((atPort .running [] 1).fabric.expected 1 0) = true) ∧
    (let p := packetFrom 1 1
     arrives (atPort .running [] 0xFFFFFFFF) p = true ∧ p.seq ≠ (atPort .running [] 0xFFFFFFFF).fabric.expected 1 0 ∧
     comesBefore p.seq ((atPort .running [] 0xFFFFFFFF).fabric.expected 1 0) = false ∧
     ((atPort .running [] 0).fabric.reorder.filter (·.src == 1)).length < 256) := by
  decide +kernel

/-- A control request of tag 3 that nothing has answered for 200 µs. -/
def timedOut (resends : Nat) : State :=
  { wanting with
    clock := clockAt 0 0 200,
    fabric := { linked.fabric with requests := [{ tag := 3, op := 0, off := 5, len := 128, packet := packetFrom 0 2, sentAt := 0, held := false,
                                                  control := true, resends := resends }] } }

theorem meets_ControlCopiesAndArrivals_timeouts : ([2, 3].all fun n =>
    ((timedOut n).requestAt 3).any fun r => decide (r.control = true ∧ r.sentAt + 200 ≤ (timedOut n).clock.us ∧ r.resends = n)) = true ∧
    (timedOut 3).wantAt 3 = some { line := 5, write := true, since := 0, grid := 0, reach := 0, tag := some 3 } := by
  decide +kernel

end Sys2Proof.Machine
end

