-- ==== Sys2Proof/Tests/WitnessL.lean ====
section
/-!
SUPPORT. Concrete states and packets that meet the hypotheses of the statement on tensor requests and their answers, clause by clause.
-/
namespace Sys2Proof.Machine

set_option Elab.async false

open Sys2Proof.Claims

/-- Every state that keeps no packet is the one in which some packet is served. -/
theorem served (u : State) (p : FabPacket) (h : u.fabric.heldIn = []) : ∃ s, takes s p u id := by
  refine ⟨keptState u p, ?_⟩
  have hu : u = { u with fabric := { u.fabric with heldIn := [] } } := by rw [← h]
  rw [hu]
  exact takes_keptState _ _

/-! ## At the home -/

/-- `linked` with VI 0 in a phase, its stream 0 of package 1 frozen here or not. -/
def homeVi (ph : ViPhase) (frozen : Bool) : State :=
  { linked with vis := [{ someVi with phase := ph }],
                fabric := { linked.fabric with homeFrozen := if frozen then [{ pkg := 1, core := 0, slot := 0, strm := 0 }] else [] } }

/-- A request of package 1 for sixteen bytes at an address of VI 0. -/
def requestFor (op addr : Nat) : FabPacket := { packetFrom 1 op with len := 16, addr := addr, payload := List.replicate 16 7 }

def tensorRequests (addr : Nat) : List (Instr × FabPacket) :=
  [(Instr.tensorRead (requestFor 0x20 addr), requestFor 0x20 addr), (.tensorWrite (requestFor 0x21 addr), requestFor 0x21 addr),
   (.remoteAtomic (requestFor 0x22 addr), requestFor 0x22 addr)]

/-- The places of a request: of an atomic, for writing and for reading. -/
def reachedBy (u : State) (p : FabPacket) (acc : Access) (n kind : Nat) : Except (Nat × Nat) (List Place) :=
  if kind = 2 then (u.homePlaces p acc n).bind fun _ => u.homePlaces p .read n else u.homePlaces p acc n

/-- Whether the places of a request are at hand; whether it fails. -/
def placesAtHand (u : State) (i : Instr) : Bool :=
  match requestNeeds i with
  | some (p, acc, n, kind) =>
    match reachedBy u p acc n kind with
    | .ok ps => ps.all fun q => u.available (acc == .write) q
    | .error _ => false
  | none => false

def requestFails (u : State) (i : Instr) : Bool :=
  match requestNeeds i with
  | some (p, acc, n, kind) =>
    match reachedBy u p acc n kind with
    | .ok _ => false
    | .error _ => true
  | none => false

/-- The home with 64 streams of core 0 of package 1 frozen. -/
def manyFrozen : State :=
  let s := homeVi .active false
  { s with fabric := { s.fabric with homeFrozen := (List.range 64).map fun n => { pkg := 1, core := 0, slot := n / 4 + 1, strm := n % 4 } } }

theorem meets_TensorRequestsAndAnswers_home :
    ((tensorRequests 0 ++ [(Instr.collectiveData (requestFor 0x23 0), requestFor 0x23 0)]).all fun x => (replyType x.1).isSome) = true ∧
    (∀ ph f, (homeVi ph f).fabric.heldIn = []) ∧
    (homeVi .active false).viAt 5 = none ∧
    (∀ ph f, (homeVi ph f).viAt 0 = some { someVi with phase := ph }) ∧
    ((tensorRequests 0).all fun x => decide (streamOf x.2 = { pkg := 1, core := 0, slot := 0, strm := 0 })) = true ∧
    someVi.unanswered.length < 256 ∧ (homeVi .active false).frozenOf (requestFor 0x20 0) < 64 ∧
    (homeVi .active false).tableReady someVi true (0x12000 + 32 * (someVi.remoteFaults % 256)) 32 = true ∧
    256 ≤ ({ someVi with unanswered := List.replicate 256 (1, { pkg := 1, core := 0, slot := 0, strm := 0 }) } : Vi).unanswered.length ∧
    64 ≤ (manyFrozen.frozenOf (requestFor 0x20 0)) ∧ streamOf (requestFor 0x20 0) ∉ manyFrozen.fabric.homeFrozen ∧
    ((tensorRequests (2 ^ 29)).all fun x => requestFails manyFrozen x.1) = true ∧
    ([ViPhase.built, .active].all fun ph =>
      ((tensorRequests 0).all fun x => placesAtHand (homeVi ph false) x.1) &&
      (tensorRequests (2 ^ 29)).all fun x => requestFails (homeVi ph false) x.1) = true := by
  refine ⟨by decide +kernel, fun _ _ => rfl, by decide +kernel, fun _ _ => rfl, by decide +kernel, by decide +kernel, by decide +kernel,
    by decide +kernel, by decide +kernel, by decide +kernel, by decide +kernel, by decide +kernel, by decide +kernel⟩

/-! ## Collectives -/

/-- The collective of `someCollective` with package 1 in it too. -/
def pairCollective : List Byte := [0, 0, 0, 0, 0, 0, 0, 0x60, 0, 1, 0, 0, 0, 0, 0, 0x60, 3, 0, 0, 0, 0, 0, 0, 0]

def pairColl : Coll := { desc := pairCollective, count := 16, own := 0 }

/-- Operation 5 of a collective of packages 0 and 1, which has heard some members. -/
def pairOp (heard : List Nat) : AsyncOp := { someOp (.collective pairCollective 16 heard) with out := [(0, 16)], left := [(0, 16)] }

def pairMember : Member := { ix := 1, pkg := 1, vi := 0, asidBase := 0 }

def pairState (heard : List Nat) : State :=
  { homeVi .active false with
    ops := [pairOp heard],
    vis := [{ someVi with view := [{ ix := 0, pkg := 0, vi := 0, asidBase := 0 }, pairMember] }] }

/-- What package 1 says of the collective: a kind, its own descriptor's word, and the number of the collective. -/
def pairPacket (kind sig number : Nat) : FabPacket :=
  { packetFrom 1 0x23 with len := 1, payload := [1, 2, 3, 4],
                           opnd := [0, BitVec.ofNat 64 sig, BitVec.ofNat 64 (16 + kind * 2 ^ 32 + number * 2 ^ 40)] }

/-- The same with the first collective of the group past. -/
def pairLater : State :=
  let s := pairState [0]
  { s with fabric := { s.fabric with collGens := [(0, 0, 1, 1)] } }

theorem meets_TensorRequestsAndAnswers_collectives :
    (∀ h k g n, (pairState h).fabric.heldIn = [] ∧ (pairPacket k g n).op = 0x23) ∧
    ({ someVi with view := [{ ix := 0, pkg := 0, vi := 0, asidBase := 0 }, pairMember] } : Vi).collStopped = false ∧
    ([[0], [0, 1]].all fun h => [0, 2, 3].all fun k => [pairColl.signature, 9].all fun g =>
      decide ((pairState h).collMatch (pairPacket k g 0) pairMember = some (pairOp h, pairColl) ∧ collKind (pairPacket k g 0) = k ∧
        collNumber (pairPacket k g 0) = (pairState h).collGen 0 (collGroup (pairPacket k g 0)) 1 ∧
        (pairState h).collSender (pairPacket k g 0) = some pairMember ∧ (pairState h).collLost (pairPacket k g 0) = false ∧
        streamOf (pairPacket k g 0) ∉ (pairState h).fabric.homeFrozen ∧
        collSig (pairPacket k g 0) = g ∧ collCount (pairPacket k g 0) = pairColl.count ∧ (pairOp h).heard = h ∧
        ((pairState h).ops.map (·.id)).Nodup)) = true ∧
    ([2, 3].all fun k => decide (collKind (pairPacket k 9 0) = k ∧ collNumber (pairPacket k 9 0) < pairLater.collGen 0 (collGroup (pairPacket k 9 0)) 1 ∧
      pairLater.collGen 0 (collGroup (pairPacket k 9 2)) 1 < collNumber (pairPacket k 9 2))) = true ∧
    (pairState [0, 1]).collFault (pairOp [0, 1]) pairColl (pairPacket 0 0 0) = none ∧
    ((pairState [0, 1]).takeIn (pairOp [0, 1]) pairColl 1 0 0 [1, 2, 3, 4] false).isSome = true := by
  refine ⟨fun _ _ _ _ => ⟨rfl, rfl⟩, by decide +kernel, by decide +kernel, by decide +kernel, by decide +kernel, by decide +kernel⟩

/-! ## At the source -/

/-- Operation 5 with request 3 of sixteen bytes at package 1, its stream frozen by a number of homes. -/
def asked (o : AsyncOp) (frozen : Nat) (now : Nat) : State :=
  { homeVi .active false with
    clock := clockAt 0 0 now,
    ops := [o],
    fabric := { linked.fabric with
      requests := [{ tag := 3, op := 5, off := 0, len := 16, packet := packetFrom 0 0x20, sentAt := 0, held := false, control := false,
                     resends := 0 }],
      frozen := (List.range frozen).map fun n => { pkg := 1, core := 0, slot := n, strm := 0 } } }

/-- A copy from package 1 into the local store. -/
def remoteCopy : AsyncOp := someOp .copy

theorem meets_TensorRequestsAndAnswers_source :
    (∀ o n t, (asked o n t).fabric.heldIn = [] ∧ (asked o n t).opAt 5 = (asked o 0 0).opAt 5) ∧
    ([Instr.readData (packetFrom 1 0x30), .writeCompletion (packetFrom 1 0x31), .atomicResult (packetFrom 1 0x32),
      .collectiveAcknowledgement (packetFrom 1 0x33)].all fun i => (answerOf i).isSome) = true ∧
    linked.requestAt 3 = none ∧
    ((asked remoteCopy 0 200).requestAt 3).any (fun r => decide (r.op = 5 ∧ r.control = false ∧ r.held = false ∧ r.sentAt + 200 ≤ 200)) = true ∧
    (asked remoteCopy 0 200).opAt 5 = some remoteCopy ∧ remoteCopy.ended = false ∧ ((asked remoteCopy 0 200).ops.map (·.id)).Nodup ∧
    (let ps := (List.range 16).map fun k => Place.store 0 (16 + k)
     remoteCopy.placesOf ((List.range 16).map fun k => remoteCopy.dst + BitVec.ofNat 64 (0 + k)) = some ps ∧ ps.Nodup ∧
     (asked remoteCopy 0 0).breaks remoteCopy.env.vi remoteCopy.mode ps = false ∧ (asked remoteCopy 0 0).hostDown ps = false ∧
     ∀ q ∈ ps, (asked remoteCopy 0 0).available true q = true) ∧
    ((asked remoteCopy 63 0).fabric.frozen.filter (·.core == 0)).length < 64 ∧
    64 ≤ ((asked remoteCopy 64 0).fabric.frozen.filter (·.core == 0)).length ∧
    (asked remoteCopy 1 0).streamFrozen 0 0 0 = true ∧ (asked remoteCopy 0 0).streamFrozen 0 0 0 = false ∧
    (asked remoteCopy 0 0).viAt 0 = some someVi ∧ someVi.faultStream 1 = none ∧
    ({ someVi with unanswered := [(1, { pkg := 1, core := 0, slot := 0, strm := 0 })] } : Vi).faultStream 1 =
      some { pkg := 1, core := 0, slot := 0, strm := 0 } := by
  refine ⟨fun _ _ _ => ⟨rfl, rfl⟩, by decide +kernel⟩

end Sys2Proof.Machine
end

