-- ==== Sys2Proof/Tests/WitnessM.lean ====
section
/-!
SUPPORT. Concrete states that meet the hypotheses of the statements on ports and peers, the ring and channels, clause by clause.
-/
namespace Sys2Proof.Machine

set_option Elab.async false

open Sys2Proof.Claims

/-! ## Ports and peers -/

/-- Port 4 of `linked` as it stands in training for the first time, and in another state; a microsecond has passed. -/
def trainingPort (tries : Nat) : Port :=
  { Port.idle 4 with state := .training, peer := 1, tries := tries, lanes := 15, speed := 2, width := 2, laneMap := 0xE4 }

def withPorts (ps : List Port) (now : Nat) : State :=
  { linked with clock := clockAt 0 0 now, fabric := { linked.fabric with ports := ps } }

def inState (st : PortState) (finished run : Bool) : Port :=
  { Port.idle 4 with state := st, peer := 1, finished := finished, runCommanded := run, peerRun := run }

/-- A port in that state as a given peer's, after some SPDM messages. -/
def shaking (st : PortState) (peer n : Nat) : Port := { inState st false false with peer := peer, spdm := n }

/-- The record of the port at the other end, as it should be or with one setting changed, its check value right or one too high. -/
def peerRecord (pkg speed width : Nat) (lanes : BitVec 4) (right : Bool) : CapRecord :=
  let r : CapRecord := { pkg := pkg, port := 9, dom := 8, peer := 0, lanes := lanes, speed := speed, width := width, laneMap := 0xE4, attempt := 1 }
  { r with crc := recordCrc r + if right then 0 else 1 }

/-- An SPDM message or a link-state packet of package 1. -/
def portPacket (op : Nat) (code : DWord) : FabPacket :=
  sealPacket { linked.packet 0 op with src := 1, port := 4, opnd := [code], vc := 4 }

theorem meets_PortsAndPeers_ports :
    (∀ st f r, (withPorts [inState st f r] 0).portAt 4 = some (inState st f r)) ∧
    (∀ tries, (withPorts [trainingPort tries] 1).portAt 4 = some (trainingPort tries) ∧ (trainingPort tries).state = .training ∧
      (trainingPort tries).sent + 1 ≤ (withPorts [trainingPort tries] 1).clock.us) ∧
    (∀ f r, carries (inState .unlocked f r) ∧ carries (inState .locked f r) ∧ carries (inState .running f r) ∧
      ¬carries (inState .error f r)) ∧
    (withPorts [] 0).platform.record.domsize = 8 ∧ (withPorts [] 0).pkg = 0 := by
  refine ⟨fun _ _ _ => rfl, fun _ => ⟨rfl, rfl, Nat.le_refl _⟩, fun _ _ => ⟨.inl rfl, .inr (.inl rfl), .inr (.inr rfl), ?_⟩, rfl, rfl⟩
  rintro (h | h | h) <;> cases h

theorem meets_PortsAndPeers_records :
    (let x := trainingPort 0
     let good := peerRecord 1 2 2 15 true
     (good.crc = recordCrc good ∧ good.speed < 3 ∧ good.width < 3 ∧ good.pkg = x.peer ∧ good.peer = 0 ∧ good.dom = 8 ∧ good.width = x.width ∧
       good.speed = x.speed ∧ good.laneMap = x.laneMap)) ∧
    (peerRecord 1 2 2 15 false).crc ≠ recordCrc (peerRecord 1 2 2 15 false) ∧ 3 ≤ (peerRecord 1 3 2 15 true).speed ∧
    (peerRecord 2 2 2 15 true).pkg ≠ (trainingPort 0).peer ∧
    ([15, 0].all fun l =>
      let r := peerRecord 1 1 2 l true
      decide (r.crc = recordCrc r ∧ r.speed < 3 ∧ r.width < 3 ∧ r.pkg = (trainingPort 0).peer ∧ r.peer = 0 ∧ r.dom = 8 ∧
        r.speed ≠ (trainingPort 0).speed ∧ ((trainingPort 0).lanes &&& r.lanes = 0 ↔ l = 0))) = true ∧
    (peerRecord 1 1 2 15 true).speed ≠ (inState .locked false false).speed ∧
    (let r := peerRecord 0 2 2 15 true
     (r.crc = recordCrc r ∧ (shaking .training 0 0).state = .training ∧ r.pkg = (shaking .training 0 0).peer ∧
       (shaking .training 0 0).peer ≤ (withPorts [] 0).pkg ∧ (withPorts [] 0).pkg < (trainingPort 0).peer)) := by
  decide +kernel

/-- An SPDM message of each code, and a link-state packet of the port's peer and of another package, reach a port in each state. -/
theorem meets_PortsAndPeers_packets :
    (∀ x op code, ∃ s, takes s (portPacket op code) (withPorts [x] 0) id) ∧
    (∀ op code, (portPacket op code).op = op ∧ (portPacket op code).opnd = [code] ∧ (portPacket op code).port = 4 ∧
      (portPacket op code).src = 1) ∧
    (∀ st peer n, (withPorts [shaking st peer n] 0).portAt 4 = some (shaking st peer n) ∧ (shaking st peer n).state = st ∧
      (shaking st peer n).peer = peer ∧ (shaking st peer n).spdm = n) ∧
    (withPorts [] 0).pkg < (shaking .unlocked 1 0).peer ∧ (shaking .unlocked 0 0).peer ≤ (withPorts [] 0).pkg := by
  refine ⟨fun x op code => ?_, fun op code => ⟨rfl, rfl, rfl, rfl⟩, fun _ _ _ => ⟨rfl, rfl, rfl, rfl⟩, by decide +kernel⟩
  generalize portPacket op code = p
  exact served _ p rfl

/-- A port that sends link-state packets with all its buffers of channel 4 free. -/
theorem meets_PortsAndPeers_linkState :
    let x := inState .running false false
    let s := withPorts [x] 10
    s.fabric.linkSent + 10 ≤ s.clock.us ∧ x ∈ s.fabric.ports ∧ carries x ∧ (s.fabric.ports.map (·.n)).Nodup ∧
      s.creditsUsed x 4 < Config.flitBuffers 4 ∧ ∀ q ∈ x.waiting, s.bufferOf q ≠ 4 := by
  refine ⟨by decide +kernel, by decide +kernel, .inr (.inr rfl), by decide +kernel⟩

/-- Package 0 when a peer was last heard at the start, a copy of a line at it wanted, its recall begun or not. -/
def hearing (now : Nat) (rs : List Recall) : State :=
  { linked with clock := clockAt 0 0 now,
                fabric := { linked.fabric with heard := [(1, 0)], recalls := rs, linkSent := 0,
                                               frozen := [{ pkg := 1, core := 0, slot := 0, strm := 0 }] } }

def recallPacket (answer : Nat) : FabPacket := { packetFrom 1 0x43 with opnd := [BitVec.ofNat 64 answer, 2] }

theorem meets_PortsAndPeers_losses :
    (hearing 100 []).fabric.linkSent + 10 ≤ (hearing 100 []).clock.us ∧
    (hearing 100 []).fabric.heard.find? (·.1 == 1) = some (1, 0) ∧ 0 + 100 ≤ (hearing 100 []).clock.us ∧ 1 ∉ (hearing 100 []).fabric.lost ∧
    ([0, 1].all fun a => decide ((recallPacket a).op = 0x43 ∧ ((recallPacket a).opnd.getD 1 0).toNat = 2 ∧ 2 ≠ (hearing 0 []).pkg ∧
      (recallPacket a).opnd.getD 0 0 = BitVec.ofNat 64 a)) = true ∧ (hearing 0 []).fabric.heldIn = [] ∧
    (let r : Recall := { pkg := 3, answered := [0, 1, 2, 3], since := 0, served := false }
     let s := hearing 0 [r]
     s.fabric.recalls.find? (·.pkg == 3) = some r ∧ s.nextMember 3 = s.pkg ∧ r.served = false ∧ ∀ m ∈ s.members, m ∈ r.answered) ∧
    (let r : Recall := { pkg := 3, answered := [], since := 0, served := false }
     let s := hearing 1000 [r]
     s.fabric.recalls.find? (·.pkg == 3) = some r ∧ s.nextMember 3 = s.pkg ∧ r.since + 1000 ≤ s.clock.us) := by
  decide +kernel

/-! ## The ring -/

/-- A message of one flit beside its header, from stop 0 to another. -/
def someRingMsg (dst : Nat) : RingMsg :=
  { cls := 4, hi := false, escape := false, flits := 1, dst := dst, ccw := false, org := 0, vi := 0, dep := 5, sep := 0, dch := 3, sch := 2,
    seq := 0, payload := [7] }

/-- The message of `someRingMsg` whole at stop 1. -/
def ringAt (dst : Nat) : RingPos := { msg := someRingMsg dst, flitsAt := [1, 1], sharedAt := 1, arrived := 0 }

def withRing (on : List RingPos) (waiting : List (Nat × Nat × RingMsg)) (out : List RingMsg) : State :=
  let s := setting [] []
  { s with ring := { s.ring with onRing := on, waiting := waiting, ejected := out } }

/-- Six such messages that fill the twelve shared slots of stop 2. -/
def fullStop : List RingPos := (List.range 6).map fun k => { ringAt 2 with flitsAt := [2, 2], sharedAt := 2, arrived := k }

/-- The uncore cycle of such a state. -/
def tickZero : Nat := (withRing [] [] []).uncore

theorem meets_RingAndChannels_ring :
    ([0, 3].all fun d =>
      let s := withRing [] [(0, 0, someRingMsg d)] []
      decide (s.ring.firstOf 0 0 = some (someRingMsg d) ∧ (∀ x ∈ s.ring.injectors tickZero 0, s.ring.turnOf 0 0 ≤ s.ring.turnOf 0 x) ∧
        (someRingMsg d).flits + 1 ≤ s.ring.freeSlots tickZero (nextStop (someRingMsg d).ccw 0) (someRingMsg d).ccw (someRingMsg d).cls ∧
        s.ring.linkFree tickZero 0 (someRingMsg d).ccw = true ∧ s.ring.escapeWants tickZero 0 (someRingMsg d).ccw = false)) = true ∧
    (let r := (withRing [ringAt 3] [] []).ring
     r.onRing[0]? = some (ringAt 3) ∧ (ringAt 3).whole 1 = true ∧ (ringAt 3).msg.dst ≠ 1 ∧
     (ringAt 3).msg.flits + 1 ≤ r.freeSlots tickZero (nextStop (ringAt 3).msg.ccw 1) (ringAt 3).msg.ccw (ringAt 3).msg.cls ∧
     (ringAt 3).times.getD 0 0 ≤ tickZero ∧ r.linkFree tickZero 1 (ringAt 3).msg.ccw = true ∧
     r.escapeWants tickZero 1 (ringAt 3).msg.ccw = false ∧
     ∀ q ∈ r.onRing, q.msg.ccw = (ringAt 3).msg.ccw → r.sharedWants tickZero 1 q = true → q.before (ringAt 3) = false) ∧
    (let r := (withRing (ringAt 3 :: fullStop) [] []).ring
     (ringAt 3).times.getD ((ringAt 3).flitsAt.idxOf 1) 0 ≤ tickZero ∧ r.linkFree tickZero 1 (ringAt 3).msg.ccw = true ∧
     r.onRing[0]? = some (ringAt 3) ∧ 1 ∈ (ringAt 3).flitsAt ∧ (ringAt 3).msg.dst ≠ 1 ∧ (ringAt 3).whole 1 = true ∧
     r.freeSlots tickZero (nextStop (ringAt 3).msg.ccw 1) (ringAt 3).msg.ccw (ringAt 3).msg.cls < (ringAt 3).msg.flits + 1 ∧
     r.escapeFree tickZero (nextStop (ringAt 3).msg.ccw 1) (ringAt 3).msg.ccw (ringAt 3).msg.cls
       (crossed (ringAt 3).msg (nextStop (ringAt 3).msg.ccw 1)) = true) ∧
    (let p := { ringAt 3 with msg := { (ringAt 3).msg with escape := true } }
     let r := (withRing [p] [] []).ring
     p.times.getD (p.flitsAt.idxOf 1) 0 ≤ tickZero ∧ r.linkFree tickZero 1 p.msg.ccw = true ∧
     r.onRing[0]? = some p ∧ 1 ∈ p.flitsAt ∧ p.msg.escape = true ∧
     r.escapeFree tickZero (nextStop p.msg.ccw 1) p.msg.ccw p.msg.cls (crossed p.msg (nextStop p.msg.ccw 1)) = true) ∧
    ((ringAt 1).times.getD 0 0 ≤ tickZero ∧ (withRing [ringAt 1] [] []).ring.onRing[0]? = some (ringAt 1) ∧ (ringAt 1).flitsAt = 1 :: [1] ∧
      { ringAt 1 with flitsAt := [1] }.flitsAt = 1 :: []) := by
  decide +kernel

/-! ## Channels -/

/-- A channel entry that receives with a depth; one that sends to channel 3 of endpoint 5 at stop 1. -/
def recvEntry (depth : Nat) : DWord := BitVec.ofNat 64 (3 * 2 ^ 62 + depth * 2 ^ 40)
def wayTo5 : DWord := BitVec.ofNat 64 (2 ^ 63 + 2 ^ 57 + 5 * 2 ^ 50 + 3 * 2 ^ 44)

theorem entries_legal : (chLegal (recvEntry 1) = true ∧ chValid (recvEntry 1) = true ∧ chReceives (recvEntry 1) = true) ∧
    (chLegal wayTo5 = true ∧ chValid wayTo5 = true ∧ chReceives wayTo5 = false) ∧ chLegal (recvEntry 9) = false ∧
    chDepths ((List.range 8).map fun k => (k, recvEntry 8)) 9 = 64 := by
  decide +kernel

/-- Core 0 of VI 0 with an entry at channel 3, and a message at endpoint 0 of stop 0 for it. -/
def receivingCore (entry : DWord) (queue : Nat) : State :=
  let s := withRing [] [] [{ someRingMsg 0 with dep := 0 }]
  { s with core := { s.core with vi := some 0, chtab := [(3, entry)],
                                 rxq := List.replicate queue (3, ringPacket { someRingMsg 0 with dep := 0 }) } }

theorem meets_RingAndChannels_arrivals :
    (let m := { someRingMsg 0 with dep := 0 }
     m ∈ (receivingCore (recvEntry 1) 0).ring.ejected ∧ m.cls = 4 ∧ chanAt m.dst m.dep = 0 ∧
     ([(receivingCore 0 0, false, 0), (receivingCore (recvEntry 1) 0, true, 0), (receivingCore (recvEntry 1) 1, true, 1)].all fun z =>
       let u := z.1.takeEjected m
       let x := u.chan 0
       let e := Cells.read x.tab m.dch
       decide (x.vi = some m.vi ∧ (chValid e && chReceives e) = z.2.1 ∧ (x.queue m.dch).length + u.heldTakes 0 m.dch = z.2.2)) = true) ∧
    ([true, false].all fun a =>
      let m := ringResponse { someRingMsg 2 with org := 0, sep := 0 } a
      decide ((withRing [] [] [m]).answerOf 0 0 2 a = some m)) = true := by
  decide +kernel

/-- A packet that core 0 sends on channel 2. -/
def waitingPacket : ChanPacket :=
  { vi := 0, route := 0, stop := 1, ep := 5, dch := 3, sch := 2, srcStop := 0, srcEp := 0, seq := 7, flits := 1, payload := [7],
    offered := false, offerAt := 0 }

/-- Endpoint 3 of a VI or none, with entries at channels 2 and 3 and a packet for channel 3; the capabilities of VI 0. -/
def endpointState (vi : Option Nat) (out : List ChanPacket) (q : List (Nat × ChanPacket)) : State :=
  let s := setting [] []
  { s with
    mem := bytesFrom (2 ^ 40 + 0x30000) ([2, 0, 0, 0, 0, 0, 0, 0, 0, 0, 0, 0, 0, 0, 0, 0] ++ capEntry 2 2 ++ capEntry 2 3),
    core := { s.core with outgoing := [waitingPacket] },
    hub := { s.hub with endpoints := [{ Endpoint.idle 3 with vi := vi, lastCh := 3, chtab := [(2, wayTo5), (3, recvEntry 1)],
                                                             outgoing := out, rxq := q }] } }

theorem meets_RingAndChannels_endpoints :
    ((endpointState (some 0) [] []).chan 0).outgoing.find? (·.sch == 2) = some waitingPacket ∧
    (endpointState (some 0) [] []).heldSend 0 waitingPacket = false ∧
    (∀ vi o q, (endpointState vi o q).endpointAt 3 = some { Endpoint.idle 3 with
      vi := vi, lastCh := 3, chtab := [(2, wayTo5), (3, recvEntry 1)], outgoing := o, rxq := q }) ∧
    ((endpointState (some 0) [] []).granted 0 .supervisor 2 2 1 = true ∧ (endpointState (some 0) [] []).granted 0 .supervisor 2 3 0 = true ∧
      (endpointState (some 0) [] []).granted 0 .supervisor 2 4 1 = false) ∧
    chValid (Cells.read [(2, wayTo5), (3, recvEntry 1)] 2) = true ∧ chReceives (Cells.read [(2, wayTo5), (3, recvEntry 1)] 2) = false ∧
    chValid (Cells.read [(2, wayTo5), (3, recvEntry 1)] 3) = true ∧ chReceives (Cells.read [(2, wayTo5), (3, recvEntry 1)] 3) = true ∧
    (({ Endpoint.idle 3 with rxq := [(3, waitingPacket)] } : Endpoint).chan.queue 3).head? = some waitingPacket ∧
    Cells.wf [(2, wayTo5), (3, recvEntry 1)] = true := by
  refine ⟨by decide +kernel, by decide +kernel, fun _ _ _ => rfl, by decide +kernel⟩

end Sys2Proof.Machine
end

