-- ==== Sys2Proof/Tests/WitnessN.lean ====
section
/-!
SUPPORT. Concrete states that meet the hypotheses of the statements on registers and the host's accesses, and on recovery and pre-emption,
clause by clause.
-/
namespace Sys2Proof.Machine

set_option Elab.async false

open Sys2Proof.Claims

/-! ## Registers -/

/-- The wave of `setting` in a mode, perhaps with an invalidation under way, of a VI with translations kept in a core's TLB. -/
def writing (m : Mode) (inv : Option (Bool × DWord)) : State :=
  let s := setting [] []
  { s with vis := [{ someVi with capHeld := some [1], capOld := true }],
           tlbs := someVi.pages.map fun p => { unit := .core 0, vi := 0, page := p },
           wave := { s.wave with arch := { s.wave.arch with mode := m }, waitInv := inv } }

theorem meets_RegistersAndHostAccesses_registers :
    (∀ m i, (writing m i).focus ⟨0, 0⟩ = some (writing m i) ∧ ∃ v, (writing m i).viAt (writing m i).wave.env.vi = some v ∧
      v.desc = someDesc) ∧
    (∀ m i, (writing m i).wave.waitInv = i ∧ (writing m i).wave.arch.mode = m ∧ (writing m i).waveAt ⟨0, 0⟩ = some (writing m i).wave ∧
      (writing m i).ops = []) ∧
    (someDesc.asidBase ≤ (0x6000000000000003 : DWord).toNat % 2 ^ 16 ∧
      (0x6000000000000003 : DWord).toNat % 2 ^ 16 < someDesc.asidBase + someDesc.asidCnt) ∧
    someDesc.asidBase + someDesc.asidCnt ≤ (0x6000000000000010 : DWord).toNat % 2 ^ 16 ∧ (63 : DWord).toNat < 64 ∧
    64 ≤ (64 : DWord).toNat ∧ ((writing .user none).tlbs.any fun e => invMeets 0x6000000000000000 e.page.asid e.page.vpage e.page.size) = true ∧
    (endpointState none [] []).endpointAt 3 = some { Endpoint.idle 3 with
      vi := none, lastCh := 3, chtab := [(2, wayTo5), (3, recvEntry 1)], outgoing := [], rxq := [] } ∧ 248 + 8 ≤ 256 ∧
    (match execCppoll 3 (endpointState none [] []) with
      | .next t => (t.endpointAt 3).isSome
      | _ => false) = true := by
  refine ⟨fun m i => ⟨rfl, _, rfl, rfl⟩, fun _ _ => ⟨rfl, rfl, rfl, rfl⟩, by decide, by decide, by decide, by decide, by decide +kernel, rfl, by decide,
    by decide +kernel⟩

/-! ## The host's accesses -/

/-- The device with its link up, VI 0 in a phase, region 0 with the accelerator or free, a sector of memory poisoned or not. -/
def hosted (ph : ViPhase) (accel bad : Bool) : State :=
  { inPhase ph with hub := { (inPhase ph).hub with regions := if accel then [{ region := 0, accel := true, holdUntil := 9, wanted := false }] else [] },
                    poison := if bad then [1] else [] }

theorem meets_RegistersAndHostAccesses_host :
    (∀ ph a b, (hosted ph a b).platform.linkUp = true ∧ (hosted ph a b).hostKeys (.tensor 32) 8 = some ((List.range 8).map (32 + ·)) ∧
      (hosted ph a b).vis = [{ someVi with phase := ph }]) ∧
    someVi.touched ((List.range 8).map (32 + ·)) = true ∧ (List.range 8).map (32 + ·) ≠ [] ∧
    (hosted .active false false).hub.hostHeld = [] ∧ (∀ k ∈ (List.range 8).map (32 + ·), (hosted .active false false).inCapTable k = false) ∧
    (kicked .active 0x38 hostQueue).tableReady { someVi with queues := [hostQueue] } false (0x10000 + 32 * 3) 32 = true ∧
    (∀ k ∈ (List.range 8).map (32 + ·), (hosted .active false false).hostAtHand true k = true ∧ (hosted .active false true).hostAtHand false k = true) ∧
    (∃ k ∈ (List.range 8).map (32 + ·), (hosted .active false true).poisoned (.mem k) = true) ∧
    (∀ k ∈ (List.range 8).map (32 + ·), (hosted .active false false).poisoned (.mem k) = false ∧ k / 2 ^ 21 = 0) ∧
    ((hosted .active true false).hub.regions.any fun x => x.region == 0 && x.accel) = true ∧
    (setting [] []).isMember 0 = true ∧
    ((kicked .active 0x38 hostQueue).pageReached 0 .host = true ∧ (kicked .active 0x38 hostQueue).granted 0 .supervisor 1 3 3 = true ∧
      (kicked .active 0 hostQueue).granted 0 .supervisor 1 3 3 = false ∧
      ((kicked .active 0 hostQueue).viAt 0).any (fun v => (v.queueAt 3).isSome && (v.queueAt 4).isNone) = true) := by
  refine ⟨fun ph a b => ⟨rfl, by rfl, rfl⟩, by decide +kernel⟩

/-! ## Quarantine and strikes -/

/-- Core 0 with held items, 64 core cycles after the first ones. -/
def heldUpState (hs : List HeldKind) (ops : List AsyncOp) : State :=
  let s := setting [] []
  { s with clock := clockAt 64 0 0, ops := ops,
           core := { s.core with held := hs.map fun k => { slot := 0, at_ := 0, kind := k } } }

/-- One item of every kind that a clause names. -/
def heldKinds : List HeldKind :=
  [.write (.mem 64) [1, 2], .atomic (.mem 64) someAtomic 9 [] false [] none, .start 5, .send waitingPacket, .take 3 waitingPacket, .tags 1,
   .arrive, .exit]

theorem meets_RecoveryAndPreemption_releases :
    (heldKinds.all fun k =>
      let s := heldUpState [k] [someOp .copy]
      let h : Held := { slot := 0, at_ := 0, kind := k }
      decide (s.nextRelease (s.coreAt 0) = some 0 ∧ (s.coreAt 0).held[0]? = some h ∧ s.goesHome h = none ∧ s.waveAt ⟨0, 0⟩ = some s.wave ∧
        (∀ b ∈ heldBytes ((s.coreAt 0).writeRun h), s.placeGone b.1 = false) ∧ s.placeGone (.mem 64) = false)) = true ∧
    (heldUpState [] [someOp .copy]).opAt 5 = some (someOp .copy) := by
  decide +kernel

/-- A region entry of a wave, confirmed or not. -/
def someEntry (confirmed : Bool) (at_ : Nat) : RegionEntry :=
  let w := (setting [] []).wave
  { arch := { w.arch with mode := .supervisor }, replay := none, expiryDue := false, stepDue := false, taken := [], lls := [], pos := w.pos,
    inClause := false, reachedAt := at_, confirmed := confirmed }

/-- Core 0, struck at cycle 5, with the wave of `setting` and its entries. -/
def struckState (es : List RegionEntry) : State :=
  let s := heldUpState heldKinds [someOp .copy]
  { s with core := { s.core with struck := some 5 }, wave := { s.wave with entries := es } }

/-- The same at cycle 5: nothing is 64 cycles old. -/
def justStruck (es : List RegionEntry) : State := { struckState es with clock := clockAt 5 0 0 }

theorem meets_RecoveryAndPreemption_strikes :
    ((struckState [someEntry true 0, someEntry false 0]).waveAt ⟨0, 0⟩ = some (struckState [someEntry true 0, someEntry false 0]).wave ∧
      (struckState [someEntry true 0, someEntry false 0]).wave.entries = [someEntry true 0] ++ someEntry false 0 :: [] ∧
      (someEntry false 0).reachedAt + 64 ≤ (struckState []).coreTime 0 ∧
      ((struckState []).coreAt 0).struck = some 5 ∧ (someEntry false 0).reachedAt < 5) ∧
    ((struckState []).coreAt 0).struck ≠ none ∧ ((struckState []).coreAt 0).matrix.undo = [] ∧
    (∀ w ∈ (struckState [someEntry true 0]).allWaves, w.core = 0 → w.ll = []) ∧
    (((struckState []).coreAt 0).ripe 64 0 = true ∧ ((struckState []).coreAt 0).ripe 64 9 = false) ∧
    (∀ h ∈ (justStruck []).core.held, h.kind = .exit → ((justStruck []).coreAt 0).ripe ((justStruck []).coreTime 0) h.at_ = false) ∧
    (∃ w, restarts (justStruck [someEntry true 0, someEntry false 9]) 0 w ∧
      (w.entries.filter fun x => x.confirmed || ((justStruck []).coreAt 0).ripe ((justStruck []).coreTime 0) x.reachedAt).getLast? = some (someEntry true 0)) ∧
    (∃ w, restarts (justStruck [someEntry false 0, someEntry false 9]) 0 w ∧
      (∀ x ∈ w.entries, x.confirmed = false ∧ ((justStruck []).coreAt 0).ripe ((justStruck []).coreTime 0) x.reachedAt = false) ∧
      w.entries.head? = some (someEntry false 0)) := by
  refine ⟨⟨rfl, rfl, by decide +kernel⟩, by decide +kernel, by decide +kernel, by decide +kernel, by decide +kernel, by decide +kernel, ⟨_, ⟨List.mem_cons_self, rfl, rfl, ?_, rfl⟩, rfl⟩,
    ⟨_, ⟨List.mem_cons_self, rfl, rfl, ?_, rfl⟩, ?_, rfl⟩⟩
  · decide +kernel
  · decide +kernel
  · decide +kernel

/-! ## Poison -/

/-- Grid 0 with a running reach of the wave of `setting`, which may be launched again, relaunched a number of times. -/
def charged (flags n : Nat) : State :=
  let s := setting [] []
  let g := phaseGrid .running [0] none
  { s with grids := [{ g with record := { g.record with flags := flags }, reaches := g.reaches.map fun x => { x with relaunches := n } }] }

theorem meets_RecoveryAndPreemption_poison :
    ([(1, 0), (1, 2), (0, 0)].all fun z =>
      let s := charged z.1 z.2
      (s.gridAt 0).any fun g => (g.reachAt 0).any fun x =>
        decide (x.phase = .running ∧ x.relaunches = z.2 ∧ g.record.relaunchable = (z.1 == 1))) = true ∧
    (∀ g x, (setting [] []).gridAt 0 = some g → g.reachAt 0 = some x → x.phase ≠ .running ∧ x.phase ≠ .placed) := by
  refine ⟨by decide +kernel, fun g x h => ?_⟩
  have h2 : (setting [] []).gridAt 0 = none := by decide +kernel
  rw [h2] at h
  cases h

/-! ## Pre-emption and halts -/

/-- VI 0 under pre-emption since cycle 0, perhaps with its grace over, some engines awaited or all saved; `now` core cycles. -/
def preempted (p : Option Preemption) (ph : ViPhase) (now : Nat) : State :=
  let s := setting [] []
  { s with clock := clockAt now 0 0, hub := { s.hub with pgrace := 100 },
           vis := [{ someVi with phase := ph, preempt := p, coreSet := [0, 1, 2, 3] }],
           core := { s.core with vi := some 0, residents := [placedOn0] }, grids := [phaseGrid .running [0] none],
           wave := { s.wave with slot := 7, stop := some .preempted } }

/-- A pre-emption requested at the start. -/
def underWay (g : List Nat) (es : List Engine) (saved : Bool) : Preemption :=
  { since := List.replicate 6 0, graceOver := g, waiting := es, saved := saved }

theorem meets_RecoveryAndPreemption_preemption :
    ([ViPhase.built, .active, .frozen].all fun ph => decide ((preempted none ph 0).viAt 0 = some { someVi with phase := ph, coreSet := [0, 1, 2, 3] })) = true ∧
    (∀ p now, (preempted (some p) .active now).viAt 0 = some { someVi with preempt := some p, coreSet := [0, 1, 2, 3] }) ∧
    (preempted none .active 100).graceSectors (underWay [] [] false) = List.range 6 ∧
    ([Engine.core 0, .copy, .gather, .collective, .keepers, .ferry, .matrix 0].all fun e =>
      (preempted (some (underWay (List.range 6) [e] false)) .active 200).engineStopped 0 e) = true ∧
    (let o := queued .tzero none
     let s := preempted (some (underWay (List.range 6) [.matrix 0] false)) .active 200
     { s with core := { s.core with matrix := { s.core.matrix with queue := [{ o with env := s.wave.env, begunAt := some 199 }] } } }.toDivide 0
       (.matrix 0)) = [] ∧
    (let o := queued (.amzero 0) none
     let s := preempted (some (underWay (List.range 6) [.matrix 0] false)) .active 200
     { s with core := { s.core with matrix := { s.core.matrix with queue := [{ o with env := s.wave.env, begunAt := some 199 }] } } }.toDivide 0
       (.matrix 0)) ≠ [] := by
  refine ⟨by decide +kernel, fun _ _ => rfl, by decide +kernel, by decide +kernel, by decide +kernel, by decide +kernel⟩

/-- The context of `preempted` with its core and its wave. -/
def savedCtx : SavedContext :=
  let s := preempted none .active 0
  { vi := 0, cores := [s.core], waves := [s.wave], blocks := [], poison := [] }

/-- The same machine when the context has been saved and the core cleared. -/
def saved : State :=
  let s := preempted (some (underWay (List.range 6) [] true)) .active 200
  { s with core := s.core.cleared, wave := { State.reset.wave with slot := 3 }, hub := { s.hub with saved := [savedCtx] } }

theorem meets_RecoveryAndPreemption_resumption :
    saved.hub.saved.find? (·.vi == 0) = some savedCtx ∧
    (match saved.replaceAll savedCtx (saved.heldReaches 0) with
      | some (u, all) => (u.core :: u.cores).all (fun c => !c.halted) && savedCtx.waves.all fun w =>
          decide (w.env.vi = 0) && (slotMove all w.env w.core w.slot).isSome
      | none => false) = true := by
  decide +kernel

/-- Core 0 halted or not, the wave of `setting` at a boundary or stopped there. -/
def halting (halted : Bool) (stop : Option StopKind) (st : WaveStatus) : State :=
  let s := setting [] []
  { s with core := { s.core with halted := halted }, wave := { s.wave with status := st, stop := stop } }

theorem meets_RecoveryAndPreemption_halts :
    (halting false none .ready).wave.atStop = true ∧ (halting false none .ready).wave ∈ (halting false none .ready).allWaves ∧
    ((halting true (some .halted) .ready).coreAt 0).halted = true ∧
    ((halting true (some .halted) .ready).wave.stop = some .halted ∧ (halting true (some .halted) .ready).viAt 0 = some someVi ∧
      someVi.phase = .active ∧ someVi.preempt = none) ∧
    (halting false none .stopped).waveAt ⟨0, 0⟩ = some (halting false none .stopped).wave ∧
    ({ pc := 0, ridx := 0, mid := false, mode := 2, exm := 1, scalars := [(1, 2)], vectors := [(64, 3)] } : WaveRewrite).mode < 3 := by
  refine ⟨by decide +kernel, List.mem_cons_self, rfl, ⟨rfl, rfl, rfl, rfl⟩, rfl, by decide⟩

end Sys2Proof.Machine
end

/-! # Every step keeps memory in its canonical form

Memory changes in few ways only: a byte is set (`State.setByte`), the platform writes a table (`State.tableWrite`), and a range is
cleared. Everything else the model does leaves memory as it was, or is built of these. So each function of the model has one lemma
here, in the model's own order:

* a function that writes no memory gives a state that is canonical exactly when the one before is (`…_memInv`, an equivalence);
* a function that writes keeps memory canonical (`…_memInv`, under `s.memInv`);
* an outcome goes on, if at all, with a canonical memory (`…_canonical`); the rows of the opcode table that share one operation, or one
  argument, are stated together (`…_rows_canonical`).

A proof about a caller cites those of the functions called. `exec_canonical` gathers the rows of the opcode table,
`State.offers_keepMemory` what the device may do by itself, and `step_canonical` both. -/

section
namespace Sys2Proof.Machine

/-- The state that an outcome goes on with, if it goes on, has its memory in canonical form. -/
def Canonical : Out → Prop
  | .next t => t.memInv
  | _ => True

@[simp] theorem canonical_next (s : State) : Canonical (.next s) ↔ s.memInv := Iff.rfl
@[simp] theorem canonical_fault (r : Fault) : Canonical (.fault r) := trivial
@[simp] theorem canonical_refused (r : Refusal) : Canonical (.refused r) := trivial
@[simp] theorem canonical_ite (c : Prop) [Decidable c] (x y : Out) :
    Canonical (if c then x else y) ↔ if c then Canonical x else Canonical y := by split <;> rfl

/-- What an outcome goes on with is canonical when the outcome is. -/
theorem memInv_of_next {x : Out} {t : State} (e : x = .next t) (hx : Canonical x) : t.memInv := by
  rw [e] at hx
  exact hx

@[simp] theorem State.memInv_mk {clock free ids agenda wave core waves cores mem poison storePoison vis launch grids ops net keeper
    keepers control fabric ring hub platform tlbs caches} :
    (State.mk clock free ids agenda wave core waves cores mem poison storePoison vis launch grids ops net keeper keepers control fabric
      ring hub platform tlbs caches).memInv ↔ Memory.wf mem = true := Iff.rfl
@[simp] theorem State.wf_mem (s : State) : Memory.wf s.mem = true ↔ s.memInv := Iff.rfl
@[simp] theorem State.memInv_ite (c : Prop) [Decidable c] (s t : State) :
    (if c then s else t).memInv ↔ if c then s.memInv else t.memInv := by split <;> rfl

/-- Changes one after another keep memory canonical when each of them does. -/
theorem memInv_foldl {α : Type} {s : State} {f : State → α → State} (hf : ∀ s x, s.memInv → (f s x).memInv) (h : s.memInv)
    (xs : List α) : (xs.foldl f s).memInv := by
  induction xs generalizing s with
  | nil => exact h
  | cons x xs ih => exact ih (hf _ _ h)

/-- Changes one after another leave memory as canonical as they found it, when each of them does. -/
@[simp] theorem foldl_memInv {α : Type} {f : State → α → State} (hf : ∀ s x, (f s x).memInv ↔ s.memInv) (s : State)
    (xs : List α) : (xs.foldl f s).memInv ↔ s.memInv := by
  induction xs generalizing s with
  | nil => rfl
  | cons x xs ih => exact (ih _).trans (hf s x)

section
variable {s : State}

/-! ## Functions of `Machine/Ops` -/

@[simp] theorem State.skip_canonical (h : s.memInv) : Canonical s.skip := by simp [State.skip, h]
@[simp] theorem State.setCore_memInv (s : State) (c : Core) : (s.setCore c).memInv ↔ s.memInv := by simp [State.setCore]
@[simp] theorem State.mapWaves_memInv (s : State) (f : Wave → Wave) : (s.mapWaves f).memInv ↔ s.memInv := by simp [State.mapWaves]
@[simp] theorem State.putWave_memInv (s : State) (w : Wave) : (s.putWave w).memInv ↔ s.memInv := by simp [State.putWave]
theorem State.focus_memInv {r : WaveRef} {t : State} (e : s.focus r = some t) : t.memInv ↔ s.memInv := by
  revert e
  fun_cases State.focus s r <;> rintro ⟨⟩ <;> simp
@[simp] theorem State.setVi_memInv (s : State) (v : Vi) : (s.setVi v).memInv ↔ s.memInv := by simp [State.setVi]
@[simp] theorem State.setGrid_memInv (s : State) (g : Grid) : (s.setGrid g).memInv ↔ s.memInv := by simp [State.setGrid]
@[simp] theorem State.openValue_memInv (s : State) : s.openValue.2.memInv ↔ s.memInv := Iff.rfl
@[simp] theorem State.tell_memInv (s : State) (e : HubEvent) : (s.tell e).memInv ↔ s.memInv := by simp [State.tell]
@[simp] theorem State.soon_memInv (s : State) (x : Happening) : (s.soon x).memInv ↔ s.memInv := by simp [State.soon]
@[simp] theorem State.freeze_memInv (s : State) (v cause : Nat) : (s.freeze v cause).memInv ↔ s.memInv := by
  fun_cases State.freeze <;> simp
@[simp] theorem State.setPoison_memInv (s : State) (p : Place) (on : Bool) : (s.setPoison p on).memInv ↔ s.memInv := by
  fun_cases State.setPoison <;> simp
@[simp] theorem State.clearCovered_memInv (s : State) (ps : List Place) : (s.clearCovered ps).memInv ↔ s.memInv := by
  simp [State.clearCovered]
@[simp] theorem State.holdAs_memInv (s : State) (policy : Nat) (rel : Bool) (k : HeldKind) :
    (s.holdAs policy rel k).memInv ↔ s.memInv := by
  simp [State.holdAs]
@[simp] theorem State.hold_memInv (s : State) (k : HeldKind) : (s.hold k).memInv ↔ s.memInv := by simp [State.hold]
@[simp] theorem State.storeAs_memInv (policy : Nat) (rel : Bool) (s : State) (ps : List Place) (bs : List Byte) :
    (State.storeAs policy rel s ps bs).memInv ↔ s.memInv := by
  have hm : (State.storeAs policy rel s ps bs).calm.memInv ↔ s.memInv := by
    rw [State.storeAs_frame]
    rfl
  exact hm
@[simp] theorem State.store_memInv (s : State) (ps : List Place) (bs : List Byte) : (s.store ps bs).memInv ↔ s.memInv := by
  simp [State.store]
@[simp] theorem State.askFor_memInv (s : State) (grid reach : Nat) (write : Bool) (p : Place) :
    (s.askFor grid reach write p).memInv ↔ s.memInv := by
  fun_cases State.askFor <;> simp
@[simp] theorem State.ask_memInv (s : State) (write : Bool) (p : Place) : (s.ask write p).memInv ↔ s.memInv := by simp [State.ask]
@[simp] theorem State.askAll_memInv (s : State) (ps : List Place) : (s.askAll ps).memInv ↔ s.memInv := by simp [State.askAll]
@[simp] theorem State.entryAsk_memInv (s : State) (a : DWord) : (s.entryAsk a).memInv ↔ s.memInv := by
  fun_cases State.entryAsk <;> simp
@[simp] theorem State.aged_memInv (s : State) : s.aged.memInv ↔ s.memInv := by simp [State.aged]
@[simp] theorem State.done_canonical (h : s.memInv) : Canonical s.done := by simp [State.done, h]
@[simp] theorem State.enter_memInv (s : State) : s.enter.memInv ↔ s.memInv := by simp [State.enter]
@[simp] theorem State.doneEnd_canonical (h : s.memInv) : Canonical s.doneEnd := by simp [State.doneEnd, h]
@[simp] theorem State.wait_canonical (h : s.memInv) : Canonical s.wait := by simp [State.wait, h]
@[simp] theorem State.stall_canonical (h : s.memInv) : Canonical s.stall := by simp [State.stall, h]
@[simp] theorem State.issueLong_memInv (s : State) (left : Nat) (ws : List RegWrite) :
    (s.issueLong left ws).memInv ↔ s.memInv := by
  simp [State.issueLong]
@[simp] theorem State.issueLoad_memInv (s : State) (ws : List RegWrite) (racing : List (Nat × List Place)) :
    (s.issueLoad ws racing).memInv ↔ s.memInv := by
  simp [State.issueLoad]
theorem State.push_memInv {m w : DWord} {t : State} (e : s.push m w = .ok t) : t.memInv ↔ s.memInv := by
  revert e
  fun_cases State.push s m w <;> rintro ⟨⟩
  simp +zetaDelta
@[simp] theorem State.enterHyper_memInv (s : State) (t : Trap) (code escalated : Nat) (m w : DWord) :
    (s.enterHyper t code escalated m w).memInv ↔ s.memInv := by
  unfold State.enterHyper
  dsimp only
  split
  · next hp => simpa using State.push_memInv hp
  · simp
@[simp] theorem State.enterSupervisor_memInv (s : State) (t : Trap) (m w : DWord) :
    (s.enterSupervisor t m w).memInv ↔ s.memInv := by
  fun_cases State.enterSupervisor
  · simp
  · simp
  · next hp _ _ => simp +zetaDelta [State.push_memInv hp]
theorem State.enterDelegated_memInv {t : Trap} {m w : DWord} {u : State} (e : s.enterDelegated t m w = some u) :
    u.memInv ↔ s.memInv := by
  revert e
  fun_cases State.enterDelegated s t m w <;> rintro ⟨⟩
  next hp _ hq _ => simp [State.push_memInv hq, State.push_memInv hp]
@[simp] theorem State.enterTrap_memInv (s : State) (t : Trap) : (s.enterTrap t).memInv ↔ s.memInv := by
  unfold State.enterTrap
  dsimp only
  split
  · simp
  · split
    all_goals
      simp only [State.freeze_memInv, State.memInv_mk, State.wf_mem]
      split
      · next hu => exact State.enterDelegated_memInv hu
      · split <;> simp
@[simp] theorem State.partly_memInv (h : s.memInv) {s1 : State} (h1 : s1.memInv) : (s.partly s1).memInv := by
  simp [State.partly, h, h1]
@[simp] theorem State.takeTrap_memInv (s : State) (t : Trap) : (s.takeTrap t).memInv ↔ s.memInv := by simp [State.takeTrap]
@[simp] theorem State.trap_canonical (h : s.memInv) (t : Trap) : Canonical (s.trap t) := by simp [State.trap, h]
@[simp] theorem State.trapCode_canonical (h : s.memInv) (code : Nat) : Canonical (s.trapCode code) := by simp [State.trapCode, h]
@[simp] theorem State.trapBreach_canonical (h : s.memInv) (t : Trap) : Canonical (s.trapBreach t) := by simp [State.trapBreach, h]
@[simp] theorem State.trapAddr_canonical (h : s.memInv) (code : Nat) (acc : Access) (a : DWord) :
    Canonical (s.trapAddr code acc a) := by
  simp [State.trapAddr, h]
@[simp] theorem State.denied_canonical (h : s.memInv) : Canonical s.denied := by simp [State.denied, h]
@[simp] theorem State.group_canonical (h : s.memInv) (f : Form) {k : Hints → Out} (hk : ∀ x, Canonical (k x)) :
    Canonical (s.group f k) := by
  obtain ⟨c, -, e⟩ | ⟨-, e⟩ | ⟨-, e⟩ := State.group_cases s f k <;> rw [e]
  · exact State.trapCode_canonical h c
  · exact h
  · exact hk _

/-! ## Functions of `Machine/Flags` -/

@[simp] theorem State.fpEnd_canonical (h : s.memInv) (fl : Nat → FpFlags) (put : Wave → List Nat → Wave) :
    Canonical (s.fpEnd fl put) := by
  simp [State.fpEnd, h]
@[simp] theorem State.fpLanes_canonical (h : s.memInv) (d : Nat) (res : Nat → LaneRes) : Canonical (s.fpLanes d res) := by
  simp [State.fpLanes, h]
@[simp] theorem State.vecLanes_canonical (h : s.memInv) (d : Nat) (f : Nat → Word) : Canonical (s.vecLanes d f) := by
  simp [State.vecLanes, h]
@[simp] theorem State.pairLanes_canonical (h : s.memInv) (d : Nat) (f : Nat → DWord) : Canonical (s.pairLanes d f) := by
  simp [State.pairLanes, h]
@[simp] theorem State.scalarResult_canonical (h : s.memInv) (d : Nat) (x : DWord) : Canonical (s.scalarResult d x) := by
  simp [State.scalarResult, h]
@[simp] theorem State.fpLong_canonical (h : s.memInv) (d : Nat) (res : Nat → LaneRes) : Canonical (s.fpLong d res) := by
  simp [State.fpLong, h]

/-! ## Functions of `Machine/Caches` -/

@[simp] theorem State.makeRoom_memInv (s : State) (u : CacheUnit) (line : Nat) : (s.makeRoom u line).memInv ↔ s.memInv := by
  fun_cases State.makeRoom <;> simp
@[simp] theorem State.useLine_memInv (s : State) (u : CacheUnit) (line : Nat) (sectors : BitVec 4) (how : Use) :
    (s.useLine u line sectors how).memInv ↔ s.memInv := by
  fun_cases State.useLine <;> simp +zetaDelta
@[simp] theorem State.useStack_memInv (s : State) (key : Nat) (sectors : BitVec 4) (policy : Nat) :
    (s.useStack key sectors policy).memInv ↔ s.memInv := by
  simp [State.useStack]
@[simp] theorem State.useHome_memInv (s : State) (key : Nat) (sectors : BitVec 4) (policy : Nat) :
    (s.useHome key sectors policy).memInv ↔ s.memInv := by
  fun_cases State.useHome <;> simp +zetaDelta
@[simp] theorem State.useSlices_memInv (s : State) (core key : Nat) (sectors : BitVec 4) (policy : Nat) :
    (s.useSlices core key sectors policy).memInv ↔ s.memInv := by
  fun_cases State.useSlices <;> simp +zetaDelta
@[simp] theorem State.readSector_memInv (s : State) (policy k : Nat) : (State.readSector policy s k).memInv ↔ s.memInv := by
  simp [State.readSector]
@[simp] theorem State.readThrough_memInv (s : State) (policy : Nat) (ps : List Place) :
    (s.readThrough policy ps).memInv ↔ s.memInv := by
  simp [State.readThrough]
@[simp] theorem State.dropCopies_memInv (s : State) (core : Option Nat) (line : Nat) :
    (s.dropCopies core line).memInv ↔ s.memInv := by
  simp [State.dropCopies]
@[simp] theorem State.dropLine_memInv (s : State) (line : Nat) : (s.dropLine line).memInv ↔ s.memInv := by simp [State.dropLine]
@[simp] theorem State.writeSector_memInv (s : State) (core : Option Nat) (policy k : Nat) :
    (State.writeSector core policy s k).memInv ↔ s.memInv := by
  simp [State.writeSector]
@[simp] theorem State.writeThrough_memInv (s : State) (core : Option Nat) (policy : Nat) (ps : List Place) :
    (s.writeThrough core policy ps).memInv ↔ s.memInv := by
  simp [State.writeThrough]
@[simp] theorem State.homeReads_memInv (s : State) (policy : Nat) (ps : List Place) :
    (s.homeReads policy ps).memInv ↔ s.memInv := by
  simp [State.homeReads]
@[simp] theorem State.bring_memInv (s : State) (core level policy key : Nat) :
    (s.bring core level policy key).memInv ↔ s.memInv := by
  fun_cases State.bring <;> simp

/-! ## Functions of `Machine/Wire` -/

@[simp] theorem State.setPort_memInv (s : State) (x : Port) : (s.setPort x).memInv ↔ s.memInv := by simp [State.setPort]
@[simp] theorem State.transmit_memInv (s : State) (p : FabPacket) (x : Port) : (s.transmit p x).memInv ↔ s.memInv := by
  simp [State.transmit]
@[simp] theorem State.numbered_memInv (s : State) (p : FabPacket) : (s.numbered p).1.memInv ↔ s.memInv := Iff.rfl
@[simp] theorem State.updateKey_memInv (s : State) (n : Nat) : (s.updateKey n).memInv ↔ s.memInv := by
  unfold State.memInv
  rw [State.updateKey_mem]
@[simp] theorem State.launchOn_memInv (s : State) (p : FabPacket) (n : Nat) : (s.launchOn p n).memInv ↔ s.memInv := by
  fun_cases State.launchOn <;> simp +zetaDelta
@[simp] theorem State.place1_memInv (s : State) (p : FabPacket) (x : Port) : (s.place1 p x).memInv ↔ s.memInv := by
  simp [State.place1]
@[simp] theorem State.promote_memInv (s : State) (n : Nat) (ps : List FabPacket) : (s.promote n ps).memInv ↔ s.memInv := by
  fun_induction State.promote <;> simp_all +zetaDelta
@[simp] theorem State.dispatchPacket_memInv (s : State) (p : FabPacket) : (s.dispatchPacket p).memInv ↔ s.memInv := by
  fun_cases State.dispatchPacket <;> simp
@[simp] theorem State.post_memInv (s : State) (p : FabPacket) : (s.post p).memInv ↔ s.memInv := by simp [State.post]
@[simp] theorem State.sendOn_memInv (s : State) (p : FabPacket) (n : Nat) : (s.sendOn p n).memInv ↔ s.memInv := by
  fun_cases State.sendOn <;> simp +zetaDelta
@[simp] theorem State.answer_memInv (s : State) (q : FabPacket) (op : Nat) (payload : List Byte) (poisoned : Bool) :
    (s.answer q op payload poisoned).memInv ↔ s.memInv := by
  simp [State.answer]
@[simp] theorem State.request_memInv (s : State) (p : FabPacket) (op off len : Nat) (control : Bool) :
    (s.request p op off len control).memInv ↔ s.memInv := by
  simp [State.request]
@[simp] theorem State.dropRequest_memInv (s : State) (tag : Nat) : (s.dropRequest tag).memInv ↔ s.memInv := by
  simp [State.dropRequest]
@[simp] theorem State.mirrorLine_memInv (s : State) (line : Nat) : (s.mirrorLine line).memInv ↔ s.memInv := by
  fun_cases State.mirrorLine <;> simp
@[simp] theorem State.written_memInv (s : State) (core : Option Nat) (policy : Nat) (ps : List Place) :
    (s.written core policy ps).memInv ↔ s.memInv := by
  simp [State.written]

/-! ## Functions of `Machine/Travel` -/

theorem State.hubWrite_memInv (h : s.memInv) {e : Env} {a : DWord} {bs : List Byte} {t : State} (ht : s.hubWrite e a bs = some t) :
    t.memInv := by
  revert ht
  fun_cases State.hubWrite s e a bs <;> rintro ⟨⟩
  simp [State.setBytes_memInv, h]
theorem State.embark_memInv {tr : Traveller} {t : State} (e : s.embark tr = some t) : t.memInv ↔ s.memInv := by
  revert e
  fun_cases State.embark s tr <;> rintro ⟨⟩ <;> simp +zetaDelta
@[simp] theorem State.embarkLanes_memInv (s : State) (g : Grid) (t : DWord) (seg : Nat) (live : Nat × Nat) (ls : List Nat) :
    (s.embarkLanes g t seg live ls).1.memInv ↔ s.memInv := by
  fun_induction State.embarkLanes s g t seg live ls
  case case3 hs ih => exact ih.trans (State.embark_memInv hs)
  all_goals simp_all +zetaDelta
@[simp] theorem State.endWave_memInv (s : State) : s.endWave.memInv ↔ s.memInv := by simp [State.endWave]
@[simp] theorem State.depart_canonical (h : s.memInv) (t : DWord) (hints : Hints) : Canonical (s.depart t hints) := by
  fun_cases State.depart <;> simp +zetaDelta [h]
@[simp] theorem State.jumped_memInv (s : State) (t : DWord) (link : Option DWord) : (s.jumped t link).memInv ↔ s.memInv := by
  simp [State.jumped]
@[simp] theorem State.transfer_canonical (h : s.memInv) (hints : Hints) (indirect : Bool) (t : DWord) (link : Option DWord) :
    Canonical (s.transfer hints indirect t link) := by
  fun_cases State.transfer <;> simp [h]

/-! ## Functions of `Machine/Control` -/

@[simp] theorem execNop_canonical (h : s.memInv) : Canonical (execNop s) := by simp [execNop, h]
@[simp] theorem execYield_canonical (h : s.memInv) : Canonical (execYield s) := by simp [execYield, h]
@[simp] theorem execExit_canonical (h : s.memInv) : Canonical (execExit s) := by simp [execExit, h]
@[simp] theorem State.branch_canonical (h : s.memInv) (ss : List Nat) (taken : Bool) (t : DWord) :
    Canonical (s.branch ss taken t) := by
  simp [State.branch, h]
@[simp] theorem branch_rows_canonical (h : s.memInv) :
    (∀ o, Canonical (execBr o s)) ∧ (∀ a o, Canonical (execBrsNz a o s)) ∧ (∀ a o, Canonical (execBrsZ a o s)) ∧
    (∀ p o, Canonical (execBrpAny p o s)) ∧ (∀ p o, Canonical (execBrpAll p o s)) ∧ (∀ p o, Canonical (execBrpNone p o s)) ∧
    (∀ o, Canonical (execBexz o s)) := by
  and_intros <;> intros <;> exact State.branch_canonical h ..
@[simp] theorem execCall_canonical (h : s.memInv) (o : BitVec 21) : Canonical (execCall o s) := by simp [execCall, h]
@[simp] theorem execRet_canonical (h : s.memInv) (a : BitVec 7) : Canonical (execRet a s) := by simp [execRet, h]
@[simp] theorem execJmpr_canonical (h : s.memInv) (a : BitVec 7) : Canonical (execJmpr a s) := by simp [execJmpr, h]
@[simp] theorem execMsplit_canonical (h : s.memInv) (d a : BitVec 7) : Canonical (execMsplit d a s) := by simp [execMsplit, h]
@[simp] theorem execMelse_canonical (h : s.memInv) (a b : BitVec 7) : Canonical (execMelse a b s) := by simp [execMelse, h]
@[simp] theorem execMjoin_canonical (h : s.memInv) (a : BitVec 7) : Canonical (execMjoin a s) := by simp [execMjoin, h]
@[simp] theorem execExmrd_canonical (h : s.memInv) (d : BitVec 7) : Canonical (execExmrd d s) := by simp [execExmrd, h]
@[simp] theorem execExmwr_canonical (h : s.memInv) (a : BitVec 7) : Canonical (execExmwr a s) := by simp [execExmwr, h]
@[simp] theorem execMpush_canonical (h : s.memInv) (a b : BitVec 7) : Canonical (execMpush a b s) := by
  refine State.group_canonical h _ fun _ => ?_
  dsimp only
  split
  · simp [h]
  · split
    · simp [h]
    · next hp => simp [State.push_memInv hp, h]
@[simp] theorem execMpop_canonical (h : s.memInv) (d : BitVec 7) : Canonical (execMpop d s) := by
  refine State.group_canonical h _ fun _ => ?_
  dsimp only
  (repeat' split) <;> simp [h]

/-! ## Functions of `Machine/Capability` -/

@[simp] theorem State.tableAsk_memInv (s : State) (v : Vi) (write : Bool) (o n : Nat) :
    (s.tableAsk v write o n).memInv ↔ s.memInv := by
  simp [State.tableAsk]

/-! ## Functions of `Machine/Pins` -/

@[simp] theorem State.pinStatus_memInv (h : s.memInv) (v : Vi) (w o n x : Nat) : (s.pinStatus v w o n x).memInv :=
  State.tableWrite_memInv s v _ _ h
@[simp] theorem State.pinCounts_memInv (h : s.memInv) (v : Vi) (w pinned down skip st : Nat) :
    (s.pinCounts v w pinned down skip st).memInv := by
  unfold State.pinCounts
  iterate 4 apply State.pinStatus_memInv
  exact h
@[simp] theorem State.toNormal_memInv (s : State) (ls : List PinnedLine) : (s.toNormal ls).memInv ↔ s.memInv := by
  simp [State.toNormal]
@[simp] theorem State.unpin_memInv (h : s.memInv) (v : Vi) (w : Nat) : (s.unpin v w).memInv := by simp [State.unpin, h]
@[simp] theorem State.pinStart_memInv (h : s.memInv) (v : Vi) (w : Nat) : (s.pinStart v w).memInv := by
  fun_cases State.pinStart <;> simp +zetaDelta [h]
@[simp] theorem State.pinCommand_memInv (h : s.memInv) (vi : Nat) (x : DWord) : (s.pinCommand vi x).memInv := by
  fun_cases State.pinCommand <;> simp [h]
@[simp] theorem State.placePins_memInv (s : State) (c : PinCount) : (s.placePins c).memInv ↔ s.memInv := by simp [State.placePins]
@[simp] theorem State.pinComplete_memInv (h : s.memInv) (v : Vi) (w : Nat) : (s.pinComplete v w).memInv := by
  simp [State.pinComplete, h]
@[simp] theorem State.withPins_canonical (h : s.memInv) (v : Vi) {k : State → Out} (hk : ∀ s, s.memInv → Canonical (k s)) :
    Canonical (s.withPins v k) := by
  fun_cases State.withPins <;> simp [h, hk]
@[simp] theorem execPincmdPin_canonical (h : s.memInv) (vi w : Nat) : Canonical (execPincmdPin vi w s) := by
  fun_cases execPincmdPin <;> simp +contextual [h]
@[simp] theorem execPincmdUnpin_canonical (h : s.memInv) (vi w : Nat) : Canonical (execPincmdUnpin vi w s) := by
  fun_cases execPincmdUnpin <;> simp +contextual [h]
@[simp] theorem execPinWindowComplete_canonical (h : s.memInv) (vi w : Nat) : Canonical (execPinWindowComplete vi w s) := by
  fun_cases execPinWindowComplete <;> simp +contextual [h]
@[simp] theorem execOwnershipTransfer_canonical (h : s.memInv) (region : Nat) : Canonical (execOwnershipTransfer region s) := by
  fun_cases execOwnershipTransfer <;> simp [h]
@[simp] theorem execOwnershipHoldExpiry_canonical (h : s.memInv) (region : Nat) :
    Canonical (execOwnershipHoldExpiry region s) := by
  fun_cases execOwnershipHoldExpiry <;> simp [h]

/-! ## Functions of `Machine/System` -/

@[simp] theorem execSysc_canonical (h : s.memInv) (n : BitVec 21) : Canonical (execSysc n s) := by simp [execSysc, h]
@[simp] theorem execHvc_canonical (h : s.memInv) (n : BitVec 21) : Canonical (execHvc n s) := by simp [execHvc, h]
@[simp] theorem execBkpt_canonical (h : s.memInv) (n : BitVec 21) : Canonical (execBkpt n s) := by simp [execBkpt, h]
@[simp] theorem State.resume_canonical (h : s.memInv) (m w rmask : DWord) (replay user : Bool) :
    Canonical (s.resume m w rmask replay user) := by
  simp [State.resume, h]
@[simp] theorem execRett_canonical (h : s.memInv) (r : BitVec 1) : Canonical (execRett r s) := by
  refine State.group_canonical h _ fun _ => ?_
  dsimp only
  (repeat' split) <;> simp [h]
@[simp] theorem execPrd_canonical (h : s.memInv) (d : BitVec 7) (n : BitVec 12) : Canonical (execPrd d n s) := by
  unfold execPrd
  (repeat' split) <;> simp [h]
@[simp] theorem State.tlbinvWrite_canonical (h : s.memInv) (x : DWord) : Canonical (s.tlbinvWrite x) := by
  fun_cases State.tlbinvWrite <;> simp [h]
@[simp] theorem State.capinvWrite_canonical (h : s.memInv) (x : DWord) : Canonical (s.capinvWrite x) := by
  simp [State.capinvWrite, h]
@[simp] theorem execPwr_canonical (h : s.memInv) (a : BitVec 7) (n : BitVec 12) : Canonical (execPwr a n s) := by
  refine State.group_canonical h _ fun _ => ?_
  dsimp only
  (repeat' split) <;> simp [h]
@[simp] theorem execWdog_canonical (h : s.memInv) (a : BitVec 7) : Canonical (execWdog a s) := by simp [execWdog, h]
/-- A meaning on a wave keeps memory canonical when it does so in every state that looks at the wave. -/
@[simp] theorem State.onWave_canonical (h : s.memInv) (r : WaveRef) {k : State → Out} (hk : ∀ s, s.memInv → Canonical (k s)) :
    Canonical (s.onWave r k) := by
  fun_cases State.onWave
  · next hs => exact hk _ ((State.focus_memInv hs).2 h)
  · exact h
@[simp] theorem execTlbinv_canonical (h : s.memInv) (w : WaveRef) (v : DWord) : Canonical (execTlbinv w v s) :=
  State.onWave_canonical h w fun _ h => by simp [h]
@[simp] theorem execCapinv_canonical (h : s.memInv) (w : WaveRef) (v : DWord) : Canonical (execCapinv w v s) :=
  State.onWave_canonical h w fun _ h => by simp [h]
@[simp] theorem execCapinvComplete_canonical (h : s.memInv) (w : WaveRef) : Canonical (execCapinvComplete w s) :=
  State.onWave_canonical h w fun _ h => by split <;> simp [h]
@[simp] theorem execChentWrite_canonical (h : s.memInv) (core : Nat) (v : DWord) : Canonical (execChentWrite core v s) := by
  simp [execChentWrite, h]
@[simp] theorem execRegisterWrite_canonical (h : s.memInv) (t : RegTarget) (v : DWord) : Canonical (execRegisterWrite t v s) := by
  fun_cases execRegisterWrite <;> simp [h]

/-! ## Functions of `Machine/Channel` -/

@[simp] theorem State.setEndpoint_memInv (s : State) (e : Endpoint) : (s.setEndpoint e).memInv ↔ s.memInv := by
  simp [State.setEndpoint]
@[simp] theorem State.setChan_memInv (s : State) (id : Nat) (x : ChanSide) : (s.setChan id x).memInv ↔ s.memInv := by
  fun_cases State.setChan <;> simp
@[simp] theorem State.toRing_memInv (s : State) (m : RingMsg) : (s.toRing m).memInv ↔ s.memInv := by simp [State.toRing]
@[simp] theorem State.offer_memInv (s : State) (id ch : Nat) : (s.offer id ch).memInv ↔ s.memInv := by
  fun_cases State.offer <;> simp
@[simp] theorem State.channelFault_canonical (h : s.memInv) : Canonical s.channelFault := by simp [State.channelFault, h]
@[simp] theorem execSend_canonical (h : s.memInv) (a : BitVec 7) (n : BitVec 2) (c : BitVec 6) :
    Canonical (execSend a n c s) := by
  simp [execSend, h]
@[simp] theorem execRecv_canonical (h : s.memInv) (d : BitVec 7) (n : BitVec 2) (c : BitVec 6) :
    Canonical (execRecv d n c s) := by
  unfold execRecv
  (repeat' split) <;> simp [h]
@[simp] theorem execChpoll_canonical (h : s.memInv) (d : BitVec 7) (c : BitVec 6) : Canonical (execChpoll d c s) := by
  simp [execChpoll, h]
@[simp] theorem State.takeEjected_memInv (s : State) (m : RingMsg) : (s.takeEjected m).memInv ↔ s.memInv := by
  simp [State.takeEjected]
@[simp] theorem execChannelPacketArrival_canonical (h : s.memInv) (m : RingMsg) : Canonical (execChannelPacketArrival m s) := by
  simp [execChannelPacketArrival, h]
@[simp] theorem execChannelAccept_canonical (h : s.memInv) (ep seq ch : Nat) : Canonical (execChannelAccept ep seq ch s) := by
  fun_cases execChannelAccept <;> simp +zetaDelta [h]
@[simp] theorem execChannelReject_canonical (h : s.memInv) (ep seq ch : Nat) : Canonical (execChannelReject ep seq ch s) := by
  fun_cases execChannelReject <;> simp +zetaDelta [h]
@[simp] theorem execChannelReoffer_canonical (h : s.memInv) (ep seq ch : Nat) : Canonical (execChannelReoffer ep seq ch s) := by
  fun_cases execChannelReoffer <;> simp [h]
@[simp] theorem execCpsend_canonical (h : s.memInv) (ep : Nat) (v : DWord) : Canonical (execCpsend ep v s) := by
  fun_cases execCpsend <;> simp [h]
@[simp] theorem execCprecv_canonical (h : s.memInv) (ep : Nat) (v : DWord) : Canonical (execCprecv ep v s) := by
  fun_cases execCprecv <;> simp [h]
@[simp] theorem execCppoll_canonical (h : s.memInv) (ep : Nat) : Canonical (execCppoll ep s) := by
  fun_cases execCppoll <;> simp [h]
@[simp] theorem execCptabWrite_canonical (h : s.memInv) (ep i : Nat) (v : DWord) : Canonical (execCptabWrite ep i v s) := by
  fun_cases execCptabWrite <;> simp [h]

/-! ## Functions of `Machine/Memory` -/

@[simp] theorem State.laneFaults_canonical {s1 : State} (h1 : s1.memInv) (h : s.memInv) (acc : Access) {k : State → Out}
    (hk : ∀ s, s.memInv → Canonical (k s)) (bad : List (Nat × Nat × DWord)) : Canonical (s1.laneFaults s acc k bad) := by
  fun_cases State.laneFaults <;> simp [h, h1, hk]
@[simp] theorem State.consume_memInv (s : State) (ps : List Place) : (s.consume ps).memInv ↔ s.memInv := by simp [State.consume]
@[simp] theorem State.vload_canonical (h : s.memInv) (policy d size : Nat) (addr : Nat → DWord) :
    Canonical (s.vload policy d size addr) := by
  fun_cases State.vload <;> simp +contextual [h]
@[simp] theorem State.vstore_canonical (h : s.memInv) (policy : Nat) (rel : Bool) (d size : Nat) (addr : Nat → DWord) :
    Canonical (s.vstore policy rel d size addr) := by
  fun_cases State.vstore <;> simp +contextual [h]
@[simp] theorem State.sload_canonical (h : s.memInv) (policy d size : Nat) (a : DWord) : Canonical (s.sload policy d size a) := by
  fun_cases State.sload <;> simp [h]
@[simp] theorem State.sstore_canonical (h : s.memInv) (policy : Nat) (rel : Bool) (d size : Nat) (a : DWord) :
    Canonical (s.sstore policy rel d size a) := by
  fun_cases State.sstore <;> simp [h]
@[simp] theorem State.race_canonical (h : s.memInv) (r : WaveRef) (op n : Nat) (bytes : List Nat) :
    Canonical (s.race r op n bytes) := by
  fun_cases State.race
  case case5 hs _ _ _ _ _ _ => simp [State.focus_memInv hs, h]
  all_goals simp [h]
@[simp] theorem execVld_canonical (h : s.memInv) (d a b : BitVec 7) (z : BitVec 3) (p : BitVec 2) :
    Canonical (execVld d a b z p s) := by
  simp [execVld, h]
@[simp] theorem execVst_canonical (h : s.memInv) (d a b : BitVec 7) (z : BitVec 3) (p : BitVec 2) :
    Canonical (execVst d a b z p s) := by
  simp [execVst, h]
@[simp] theorem execVldc_canonical (h : s.memInv) (d a : BitVec 7) (z : BitVec 2) (i : BitVec 9) :
    Canonical (execVldc d a z i s) := by
  simp [execVldc, h]
@[simp] theorem execVstc_canonical (h : s.memInv) (d a : BitVec 7) (z : BitVec 2) (i : BitVec 9) :
    Canonical (execVstc d a z i s) := by
  simp [execVstc, h]
@[simp] theorem execSld_canonical (h : s.memInv) (d a : BitVec 7) (z : BitVec 2) (i : BitVec 9) :
    Canonical (execSld d a z i s) := by
  simp [execSld, h]
@[simp] theorem execSst_canonical (h : s.memInv) (d a : BitVec 7) (z : BitVec 2) (i : BitVec 9) :
    Canonical (execSst d a z i s) := by
  simp [execSst, h]
@[simp] theorem execLld_canonical (h : s.memInv) (d a b : BitVec 7) (z : BitVec 3) : Canonical (execLld d a b z s) := by
  simp [execLld, h]
@[simp] theorem execLst_canonical (h : s.memInv) (d a b : BitVec 7) (z : BitVec 3) : Canonical (execLst d a b z s) := by
  simp [execLst, h]
@[simp] theorem execSlda_canonical (h : s.memInv) (d a : BitVec 7) (o : BitVec 5) (z : BitVec 1) (p : BitVec 2) :
    Canonical (execSlda d a o z p s) := by
  simp [execSlda, h]
@[simp] theorem execSstr_canonical (h : s.memInv) (d a : BitVec 7) (o : BitVec 5) (z : BitVec 1) (p : BitVec 2) :
    Canonical (execSstr d a o z p s) := by
  simp [execSstr, h]
@[simp] theorem execVlda_canonical (h : s.memInv) (d a : BitVec 7) (o : BitVec 5) (z : BitVec 1) (p : BitVec 2) :
    Canonical (execVlda d a o z p s) := by
  simp [execVlda, h]
@[simp] theorem execVstr_canonical (h : s.memInv) (d a : BitVec 7) (o : BitVec 5) (z : BitVec 1) (p : BitVec 2) :
    Canonical (execVstr d a o z p s) := by
  simp [execVstr, h]

/-! ## Functions of `Machine/Engine` -/

@[simp] theorem State.startOp_memInv (s : State) (o : AsyncOp) : (s.startOp o).memInv ↔ s.memInv := by simp [State.startOp]
@[simp] theorem State.setOp_memInv (s : State) (o : AsyncOp) : (s.setOp o).memInv ↔ s.memInv := by simp [State.setOp]
@[simp] theorem State.settleCounter_memInv (s : State) (core slot c : Nat) : (s.settleCounter core slot c).memInv ↔ s.memInv := by
  fun_cases State.settleCounter <;> simp +zetaDelta
@[simp] theorem State.chargeGrid_memInv (s : State) (grid code : Nat) : (s.chargeGrid grid code).memInv ↔ s.memInv := by
  fun_cases State.chargeGrid <;> simp
@[simp] theorem State.reportFailure_memInv (s : State) (core slot grid : Nat) (orphan : Bool) (st : OpStatus)
    (counter : Option Nat) (stream : Nat) :
    (s.reportFailure core slot grid orphan st counter stream).memInv ↔ s.memInv := by
  fun_cases State.reportFailure <;> simp
@[simp] theorem State.setTag_memInv (s : State) (core : Nat) (tag : Option Nat) : (s.setTag core tag).memInv ↔ s.memInv := by
  fun_cases State.setTag <;> simp
@[simp] theorem State.resolve_memInv (s : State) (core slot ll : Nat) (ws : List RegWrite) :
    (s.resolve core slot ll ws).memInv ↔ s.memInv := by
  fun_cases State.resolve <;> simp
@[simp] theorem State.clearFlagOf_memInv (s : State) (o : AsyncOp) (st : OpStatus) : (s.clearFlagOf o st).memInv ↔ s.memInv := by
  fun_cases State.clearFlagOf <;> simp
@[simp] theorem State.endOp_memInv (s : State) (o : AsyncOp) (st : OpStatus) : (s.endOp o st).memInv ↔ s.memInv := by
  fun_cases State.endOp <;> simp +zetaDelta
@[simp] theorem State.askOp_memInv (s : State) (o : AsyncOp) (write : Bool) (ps : List Place) :
    (s.askOp o write ps).memInv ↔ s.memInv := by
  simp [State.askOp]
@[simp] theorem State.writePoison_memInv (h : s.memInv) (ps : List Place) (bs : List Byte) (bad : List Bool) :
    (s.writePoison ps bs bad).memInv := by
  simp [State.writePoison, State.setBytes_memInv, h]

/-! ## Functions of `Machine/Launch` -/

@[simp] theorem State.launchError_canonical (h : s.memInv) (d code : Nat) : Canonical (s.launchError d code) := by
  simp [State.launchError, h]
@[simp] theorem State.launchTake_canonical (h : s.memInv) (g : Grid) (q : Queue) (record : List Byte) (attached : Bool)
    (e : Option TeamEntry) (d : Nat) :
    Canonical (s.launchTake g q record attached e d) := by
  unfold State.launchTake
  (repeat' split) <;> simp [h]
@[simp] theorem State.launchRecord_canonical (h : s.memInv) (sb : DWord) (record : List Byte) (d : Nat) :
    Canonical (s.launchRecord sb record d) := by
  fun_cases State.launchRecord <;> simp [h]
@[simp] theorem execLwait_canonical (h : s.memInv) (d a : BitVec 7) : Canonical (execLwait d a s) := by simp [execLwait, h]
@[simp] theorem State.spawnBins_memInv (s : State) (a b : Nat) (ls : List Nat) : (s.spawnBins a b ls).1.memInv ↔ s.memInv := by
  fun_induction State.spawnBins s a b ls <;> simp_all +zetaDelta
@[simp] theorem State.spawnFerry_memInv (s : State) (g : Grid) (a b : Nat) (ls : List Nat) :
    (s.spawnFerry g a b ls).1.memInv ↔ s.memInv := by
  fun_induction State.spawnFerry s g a b ls <;> simp_all +zetaDelta
@[simp] theorem launch_rows_canonical (h : s.memInv) (d a b : BitVec 7) :
    Canonical (execLaunch d a b s) ∧ Canonical (execSpawn d a b s) ∧ Canonical (execTdef d a b s) := by
  and_intros <;> exact State.group_canonical h _ fun _ => by dsimp only; (repeat' split) <;> simp [h]
@[simp] theorem execSegq_canonical (h : s.memInv) (d a : BitVec 7) : Canonical (execSegq d a s) := by simp [execSegq, h]
@[simp] theorem execFerry_canonical (h : s.memInv) (a : BitVec 7) : Canonical (execFerry a s) := by
  refine State.group_canonical h _ fun _ => ?_
  dsimp only
  (repeat' split) <;> simp [h]

/-! ## Functions of `Machine/Atomics` -/

@[simp] theorem State.holdAtomic_memInv (s : State) (hints : Hints) (p : Place) (a : AtomicOp) (ll : Nat) (dst : List RegWrite) :
    (s.holdAtomic hints p a ll dst).memInv ↔ s.memInv := by
  simp [State.holdAtomic]
@[simp] theorem execVatom_canonical (h : s.memInv) (d a b : BitVec 7) (w : BitVec 1) (c : BitVec 4) :
    Canonical (execVatom d a b w c s) := by
  unfold execVatom
  refine State.group_canonical h _ fun _ => ?_
  dsimp only
  split <;> simp +contextual [h]
@[simp] theorem execSatom_canonical (h : s.memInv) (d a b : BitVec 7) (w : BitVec 1) (c : BitVec 4) :
    Canonical (execSatom d a b w c s) := by
  unfold execSatom
  dsimp only
  refine State.group_canonical h _ fun _ => ?_
  (repeat' split) <;> simp [h]

/-! ## Functions of `Machine/Receive` -/

@[simp] theorem State.headerFailed_memInv (s : State) (p : FabPacket) : (s.headerFailed p).memInv ↔ s.memInv := by
  simp [State.headerFailed]
@[simp] theorem State.portError_memInv (s : State) (x : Port) : (s.portError x).memInv ↔ s.memInv := by simp [State.portError]
@[simp] theorem State.deliverNext_memInv (s : State) (src vc : Nat) : (s.deliverNext src vc).memInv ↔ s.memInv := by
  fun_cases State.deliverNext <;> simp
@[simp] theorem State.keepIn_memInv (s : State) (p : FabPacket) : (s.keepIn p).memInv ↔ s.memInv := by simp [State.keepIn]
@[simp] theorem State.letIn_canonical (h : s.memInv) (p : FabPacket) {k : State → Out} (hk : ∀ s, s.memInv → Canonical (k s)) :
    Canonical (s.letIn p k) := by
  fun_cases State.letIn
  case case8 t ht =>
    have : t.memInv := memInv_of_next ht (hk _ h)
    simp [this]
  case case9 => exact hk _ h
  all_goals simp [h]
/-- What a packet's arrival does keeps memory canonical when what its type asks for does. -/
@[simp] theorem State.receive_canonical (h : s.memInv) (p : FabPacket) (op : Nat) {k : State → Out}
    (hk : ∀ s, s.memInv → Canonical (k s)) : Canonical (s.receive p op k) := by
  fun_cases State.receive
  case case2 => exact hk _ h
  case case3 => exact hk _ h
  case case4 =>
    refine State.letIn_canonical ?_ p hk
    exact h
  case case8 => exact State.letIn_canonical ((State.setPort_memInv s _).2 h) p hk
  all_goals simp [h]

/-! ## Functions of `Machine/Transfer` -/

@[simp] theorem State.makeMoves_memInv (h : s.memInv) (o : AsyncOp) (ms : List ByteMove) (src : DWord → Byte)
    (bad : DWord → Bool) :
    (s.makeMoves o ms src bad).memInv := by
  fun_cases State.makeMoves <;> simp [h]
@[simp] theorem State.tensorRequest_memInv (s : State) (o : AsyncOp) (m : Member) (op : Nat) (a : DWord) (len : Nat)
    (opnd : List DWord) (payload : List Byte) (bad : Bool) (off n : Nat) :
    (s.tensorRequest o m op a len opnd payload bad off n).memInv ↔ s.memInv := by
  simp [State.tensorRequest]
@[simp] theorem State.performMoves_canonical (h : s.memInv) (o : AsyncOp) (off n : Nat) : Canonical (s.performMoves o off n) := by
  fun_cases State.performMoves <;> simp [h]
/-- Parts performed one after another keep an outcome canonical when each of them does. -/
theorem canonical_foldl {α : Type} {f : Out → α → Out} (hf : ∀ r x, Canonical r → Canonical (f r x)) {r : Out} (hr : Canonical r)
    (xs : List α) : Canonical (xs.foldl f r) := by
  induction xs generalizing r with
  | nil => exact hr
  | cons x xs ih => exact ih (hf r x hr)

@[simp] theorem State.transferComplete_canonical (h : s.memInv) (o : AsyncOp) (st : OpStatus) :
    Canonical (s.transferComplete o st) := by
  unfold State.transferComplete
  iterate 5 (split; · simp [h])
  dsimp only
  generalize hr : List.foldl _ _ _ = r
  have hc : Canonical r := by
    rw [← hr]
    refine canonical_foldl (fun r x hr => ?_) ((canonical_next s).2 h) _
    split
    · split
      · split
        · exact hr
        · exact State.performMoves_canonical hr _ _ _
      · exact hr
    · exact hr
  split
  · have := (canonical_next _).1 hc
    split <;> simp [this]
  · exact hc
@[simp] theorem execCopyComplete_canonical (h : s.memInv) (id : Nat) (st : OpStatus) : Canonical (execCopyComplete id st s) := by
  fun_cases execCopyComplete <;> simp [h]
@[simp] theorem execGatherComplete_canonical (h : s.memInv) (id : Nat) (st : OpStatus) :
    Canonical (execGatherComplete id st s) := by
  fun_cases execGatherComplete <;> simp [h]

/-! ## Functions of `Machine/Remote` -/

@[simp] theorem State.answerAbsent_memInv (s : State) (p : FabPacket) (op : Nat) : (s.answerAbsent p op).memInv ↔ s.memInv := by
  simp [State.answerAbsent]
@[simp] theorem State.writeFaultRecord_memInv (h : s.memInv) (v : Vi) (p : FabPacket) (cause i kind : Nat) :
    (s.writeFaultRecord v p cause i kind).memInv :=
  (State.tell_memInv _ _).2 ((State.setVi_memInv _ _).2 (State.tableWrite_memInv s v _ _ h))
@[simp] theorem State.streamMessage_memInv (s : State) (st : Stream) (op : Nat) : (s.streamMessage st op).memInv ↔ s.memInv := by
  simp [State.streamMessage]
@[simp] theorem State.refuseFault_memInv (h : s.memInv) (v : Vi) (p : FabPacket) (c i kind : Nat) :
    (s.refuseFault v p c i kind).memInv := by
  simp [State.refuseFault, h]
@[simp] theorem State.faultOr_memInv (h : s.memInv) (v : Vi) (p : FabPacket) (c i kind : Nat) :
    (s.faultOr v p c i kind).memInv := by
  simp [State.faultOr, h]
@[simp] theorem State.serveTensor_canonical (h : s.memInv) (p : FabPacket) (acc : Access) (n kind reply : Nat)
    {k : List Place → State → State} (hk : ∀ ps s, s.memInv → (k ps s).memInv) : Canonical (s.serveTensor p acc n kind reply k) := by
  fun_cases State.serveTensor <;> simp [h, hk]
@[simp] theorem execTensorRead_canonical (h : s.memInv) (p : FabPacket) : Canonical (execTensorRead p s) :=
  State.receive_canonical h p _ fun _ h => State.serveTensor_canonical h p _ _ _ _ fun _ _ h => by simp [h]
@[simp] theorem execTensorWrite_canonical (h : s.memInv) (p : FabPacket) : Canonical (execTensorWrite p s) :=
  State.receive_canonical h p _ fun _ h => State.serveTensor_canonical h p _ _ _ _ fun _ _ h => by simp [h]
@[simp] theorem State.doAtomic_memInv (h : s.memInv) (ps : List Place) (a : AtomicOp) : (s.doAtomic ps a).2.memInv := by
  fun_cases State.doAtomic <;> simp [State.setBytes_memInv, h]
@[simp] theorem execRemoteAtomic_canonical (h : s.memInv) (p : FabPacket) : Canonical (execRemoteAtomic p s) :=
  State.receive_canonical h p _ fun _ h => State.serveTensor_canonical h p _ _ _ _ fun _ _ h => by simp [h]
@[simp] theorem State.answerFault_canonical (h : s.memInv) (vi seq op : Nat) : Canonical (s.answerFault vi seq op) := by
  fun_cases State.answerFault <;> simp +zetaDelta [h]
@[simp] theorem execFaultPageResume_canonical (h : s.memInv) (vi seq : Nat) : Canonical (execFaultPageResume vi seq s) := by
  simp [execFaultPageResume, h]
@[simp] theorem execFaultPageAbort_canonical (h : s.memInv) (vi seq : Nat) : Canonical (execFaultPageAbort vi seq s) := by
  simp [execFaultPageAbort, h]
@[simp] theorem State.failRequest_memInv (s : State) (r : Request) (st : OpStatus) : (s.failRequest r st).memInv ↔ s.memInv := by
  fun_cases State.failRequest <;> simp +zetaDelta
@[simp] theorem State.answered_canonical (h : s.memInv) (p : FabPacket) {k : Request → AsyncOp → State → Out}
    (hk : ∀ r o s, s.memInv → Canonical (k r o s)) : Canonical (s.answered p k) := by
  fun_cases State.answered <;> simp [h, hk]
@[simp] theorem execReadData_canonical (h : s.memInv) (p : FabPacket) : Canonical (execReadData p s) := by
  refine State.receive_canonical h _ _ fun _ h => State.answered_canonical h _ fun _ _ _ h => ?_
  dsimp only
  split <;> simp [h]
@[simp] theorem State.holdRequest_memInv (s : State) (tag : Nat) : (s.holdRequest tag).memInv ↔ s.memInv := by
  simp [State.holdRequest]
@[simp] theorem State.resend_memInv (s : State) (r : Request) : (s.resend r).memInv ↔ s.memInv := by simp [State.resend]
@[simp] theorem tensorAnswer_rows_canonical (h : s.memInv) (p : FabPacket) :
    Canonical (execWriteCompletion p s) ∧ Canonical (execAtomicResult p s) ∧ Canonical (execFaultRefusal p s) ∧
    Canonical (execFrozenRefusal p s) := by
  and_intros <;> exact State.receive_canonical h _ _ fun _ h => by (repeat' split) <;> simp [h]
@[simp] theorem State.thaw_memInv (s : State) (p : FabPacket) : (s.thaw p).memInv ↔ s.memInv := by simp [State.thaw]
@[simp] theorem execStreamResume_canonical (h : s.memInv) (p : FabPacket) : Canonical (execStreamResume p s) := by
  simp [execStreamResume, h]
@[simp] theorem execStreamAbort_canonical (h : s.memInv) (p : FabPacket) : Canonical (execStreamAbort p s) := by
  simp [execStreamAbort, h]
@[simp] theorem execTensorRequestTimeout_canonical (h : s.memInv) (tag : Nat) : Canonical (execTensorRequestTimeout tag s) := by
  fun_cases execTensorRequestTimeout <;> simp [h]
@[simp] theorem execXratom_canonical (h : s.memInv) (d a b : BitVec 7) : Canonical (execXratom d a b s) := by
  refine State.group_canonical h _ fun _ => ?_
  dsimp only
  (repeat' split) <;> simp [h]
@[simp] theorem State.performXratom_canonical (h : s.memInv) (o : AsyncOp) (a : AtomicOp) : Canonical (s.performXratom o a) := by
  fun_cases State.performXratom <;> simp +zetaDelta [h]
@[simp] theorem execXratomResult_canonical (h : s.memInv) (id : Nat) (st : OpStatus) : Canonical (execXratomResult id st s) := by
  fun_cases execXratomResult <;> simp +zetaDelta [h]

/-! ## Functions of `Machine/Ring` -/

@[simp] theorem execRingSharedMove_canonical (h : s.memInv) (stop n : Nat) : Canonical (execRingSharedMove stop n s) := by
  fun_cases execRingSharedMove <;> simp [h]
@[simp] theorem execRingEscapeMove_canonical (h : s.memInv) (stop n : Nat) : Canonical (execRingEscapeMove stop n s) := by
  fun_cases execRingEscapeMove <;> simp [h]
@[simp] theorem execRingEject_canonical (h : s.memInv) (stop n : Nat) : Canonical (execRingEject stop n s) := by
  fun_cases execRingEject <;> simp [h]
@[simp] theorem execRingInjection_canonical (h : s.memInv) (stop source : Nat) : Canonical (execRingInjection stop source s) := by
  fun_cases execRingInjection <;> simp [h]
@[simp] theorem State.dropTravellers_memInv (s : State) (gone : Traveller → Bool) :
    (s.dropTravellers gone).memInv ↔ s.memInv := by
  simp [State.dropTravellers]

/-! ## Functions of `Machine/Startup` -/

@[simp] theorem State.recover_memInv (s : State) (step detail : Nat) : (s.recover step detail).memInv ↔ s.memInv := by
  simp [State.recover]
@[simp] theorem State.stuckAt_memInv (s : State) (step detail : Nat) : (s.stuckAt step detail).memInv ↔ s.memInv := by
  simp [State.stuckAt]
@[simp] theorem State.loadImage_memInv (h : s.memInv) (n : Nat) : (s.loadImage n).memInv := by
  simp [State.loadImage, State.setBytes_memInv, h]
@[simp] theorem State.loadFirmware_memInv (h : s.memInv) : s.loadFirmware.memInv := by simp [State.loadFirmware, h]
@[simp] theorem State.startLate_memInv (h : s.memInv) (i : StartupInputs) (bs : List Byte) : (s.startLate i bs).memInv := by
  fun_cases State.startLate <;> simp +zetaDelta [h]
@[simp] theorem State.startMemory_memInv (h : s.memInv) (i : StartupInputs) (bs : List Byte) : (s.startMemory i bs).memInv := by
  simp [State.startMemory, h]
@[simp] theorem execPowerGood_canonical (h : s.memInv) (i : StartupInputs) : Canonical (execPowerGood i s) := by
  fun_cases execPowerGood <;> simp [h]
@[simp] theorem execStartupStepTimeout_canonical (h : s.memInv) (step : Nat) : Canonical (execStartupStepTimeout step s) := by
  fun_cases execStartupStepTimeout <;> simp [h]
/-- Dropping cells keeps the canonical form. -/
theorem Cells.wf_filter {w : Nat} (f : Nat × BitVec w → Bool) (c : Cells w) (h : Cells.wf c = true) :
    Cells.wf (c.filter f) = true := by
  induction c with
  | nil => exact h
  | cons p c ih =>
    obtain ⟨hp, -, hc⟩ := (Cells.wf_cons p.1 p.2 c).1 h
    rw [List.filter_cons]
    split
    · exact (Cells.wf_cons p.1 p.2 _).2 ⟨hp, fun q hq => Cells.lt_of_mem h q (List.mem_filter.1 (List.mem_of_mem_head? hq)).1, ih hc⟩
    · exact ih hc

@[simp] theorem State.cleared_memInv (h : s.memInv) : s.cleared.memInv :=
  Cells.wf_filter _ s.mem h
@[simp] theorem execPowerRemoval_canonical (h : s.memInv) : Canonical (execPowerRemoval s) := by simp [execPowerRemoval, h]
@[simp] theorem State.hostGone_memInv (s : State) : s.hostGone.memInv ↔ s.memInv := by
  simp only [State.hostGone, State.tell_memInv, State.memInv_mk, State.wf_mem]
  refine foldl_memInv (fun t o => ?_) _ _
  split <;> simp
@[simp] theorem State.upstreamReset_canonical (h : s.memInv) : Canonical s.upstreamReset := by
  fun_cases State.upstreamReset <;> simp +zetaDelta [h]
@[simp] theorem execUpstreamHotReset_canonical (h : s.memInv) : Canonical (execUpstreamHotReset s) := by
  simp [execUpstreamHotReset, h]
@[simp] theorem execLinkDown_canonical (h : s.memInv) : Canonical (execLinkDown s) := by simp [execLinkDown, h]
@[simp] theorem execUpstreamLinkUp_canonical (h : s.memInv) : Canonical (execUpstreamLinkUp s) := by simp [execUpstreamLinkUp, h]
@[simp] theorem execFunctionLevelReset_canonical (h : s.memInv) (vi : Nat) : Canonical (execFunctionLevelReset vi s) := by
  simp [execFunctionLevelReset, h]
@[simp] theorem State.hostMaps_memInv (s : State) (vi : Nat) : (s.hostMaps vi).memInv ↔ s.memInv := by simp [State.hostMaps]
@[simp] theorem State.hostConfigures_memInv (s : State) (f off : Nat) (b : Byte) :
    (s.hostConfigures f off b).memInv ↔ s.memInv := by
  simp [State.hostConfigures]
@[simp] theorem State.onBlock_canonical (h : s.memInv) (b : Nat) (f : PowerBlock → PowerBlock) : Canonical (s.onBlock b f) := by
  simp [State.onBlock, h]
@[simp] theorem State.gate_canonical (h : s.memInv) (b : Nat) (on : Bool) : Canonical (s.gate b on) := by simp [State.gate, h]
@[simp] theorem execOperatingPointLower_canonical (h : s.memInv) (b : Nat) : Canonical (execOperatingPointLower b s) := by
  simp [execOperatingPointLower, h]
@[simp] theorem execOperatingPointRaise_canonical (h : s.memInv) (b : Nat) : Canonical (execOperatingPointRaise b s) := by
  simp [execOperatingPointRaise, h]
@[simp] theorem execOperatingPointCeiling_canonical (h : s.memInv) (b point : Nat) :
    Canonical (execOperatingPointCeiling b point s) := by
  simp [execOperatingPointCeiling, h]

/-! ## Functions of `Machine/Tenants` -/

@[simp] theorem State.showFunctions_memInv (s : State) : s.showFunctions.memInv ↔ s.memInv := by simp [State.showFunctions]
@[simp] theorem execViBuild_canonical (h : s.memInv) (vi : Nat) (d : ViDesc) : Canonical (execViBuild vi d s) := by
  simp [execViBuild, h]
@[simp] theorem execViStart_canonical (h : s.memInv) (vi : Nat) : Canonical (execViStart vi s) := by
  fun_cases execViStart <;> simp [h]
@[simp] theorem execFreezeRequest_canonical (h : s.memInv) (vi : Nat) : Canonical (execFreezeRequest vi s) := by
  simp [execFreezeRequest, h]
@[simp] theorem execSupervisorBudgetExpiry_canonical (h : s.memInv) (r : WaveRef) :
    Canonical (execSupervisorBudgetExpiry r s) := by
  fun_cases execSupervisorBudgetExpiry <;> simp [h]
@[simp] theorem State.releaseWaves_memInv (s : State) (vi : Nat) (k : StopKind) : (s.releaseWaves vi k).memInv ↔ s.memInv := by
  simp [State.releaseWaves]
@[simp] theorem execViResume_canonical (h : s.memInv) (vi : Nat) : Canonical (execViResume vi s) := by
  fun_cases execViResume <;> simp [h]
@[simp] theorem State.mapCores_memInv (s : State) (f : Core → Core) : (s.mapCores f).memInv ↔ s.memInv := by simp [State.mapCores]
@[simp] theorem State.dropWaves_memInv (s : State) (p : Wave → Bool) : (s.dropWaves p).memInv ↔ s.memInv := by
  simp [State.dropWaves]
@[simp] theorem State.freeEntry_memInv (s : State) (e : Option Nat) : (s.freeEntry e).memInv ↔ s.memInv := by
  fun_cases State.freeEntry <;> simp
@[simp] theorem State.endTasks_memInv (s : State) (vi : Nat) : (s.endTasks vi).memInv ↔ s.memInv := by simp [State.endTasks]
@[simp] theorem State.refuseHost_memInv (s : State) (v : Vi) : (s.refuseHost v).memInv ↔ s.memInv := by simp [State.refuseHost]
@[simp] theorem State.refuseHeld_memInv (s : State) (vi : Nat) : (s.refuseHeld vi).memInv ↔ s.memInv := by simp [State.refuseHeld]
@[simp] theorem execViTeardown_canonical (h : s.memInv) (vi : Nat) : Canonical (execViTeardown vi s) := by
  fun_cases execViTeardown <;> simp [h]
@[simp] theorem State.clearVi_memInv (s : State) (vi : Nat) : (s.clearVi vi).memInv ↔ s.memInv := by simp [State.clearVi]
@[simp] theorem execTeardownComplete_canonical (h : s.memInv) (vi : Nat) : Canonical (execTeardownComplete vi s) := by
  fun_cases execTeardownComplete <;> simp [h]
@[simp] theorem State.queueAccess_canonical (h : s.memInv) (vi q : Nat) (o : Origin) (rights : List Nat) {k : Vi → Queue → Out}
    (hk : ∀ v x, Canonical (k v x)) : Canonical (s.queueAccess vi q o rights k) := by
  fun_cases State.queueAccess <;> simp [h, hk]
@[simp] theorem State.kickWrite_canonical (h : s.memInv) (vi q : Nat) (n : DWord) (o : Origin) :
    Canonical (s.kickWrite vi q n o) := by
  simp [State.kickWrite, h]
@[simp] theorem State.holdCommand_memInv (s : State) (v : Vi) (q : Nat) (o : Origin) :
    (s.holdCommand v q o).memInv ↔ s.memInv := by
  simp [State.holdCommand]
@[simp] theorem State.statusWrite_canonical (h : s.memInv) (vi q : Nat) (n : DWord) (o : Origin) :
    Canonical (s.statusWrite vi q n o) := by
  simp [State.statusWrite, h]
@[simp] theorem execKick_canonical (h : s.memInv) (vi q : Nat) (n : DWord) (o : Origin) : Canonical (execKick vi q n o s) := by
  simp [execKick, h]
@[simp] theorem execQueueStart_canonical (h : s.memInv) (vi q : Nat) (o : Origin) : Canonical (execQueueStart vi q o s) := by
  simp [execQueueStart, h]
@[simp] theorem execQueueStop_canonical (h : s.memInv) (vi q : Nat) (o : Origin) : Canonical (execQueueStop vi q o s) := by
  simp [execQueueStop, h]

/-! ## Functions of `Machine/Accept` -/

theorem State.complete_memInv (h : s.memInv) {v : Vi} {compl : DWord} {lseq status detail perr cefail creln : Nat} {t : State}
    (e : s.complete v compl lseq status detail perr cefail creln = .ok t) : t.memInv := by
  revert e
  fun_cases State.complete s v compl lseq status detail perr cefail creln <;> rintro ⟨⟩ <;> simp [State.setBytes_memInv, h]
@[simp] theorem State.tellParent_memInv (s : State) (parent : DWord) (status : Nat) :
    (s.tellParent parent status).memInv ↔ s.memInv := by
  fun_cases State.tellParent <;> simp
@[simp] theorem State.acceptGrid_memInv (s : State) (v : Vi) (q : Queue) (c : Checked) :
    (s.acceptGrid v q c).memInv ↔ s.memInv := by
  simp [State.acceptGrid]
@[simp] theorem State.askPlaces_memInv (s : State) (write : Bool) (ps : List Place) :
    (s.askPlaces write ps).memInv ↔ s.memInv := by
  simp [State.askPlaces]
@[simp] theorem State.putQueue_memInv (s : State) (vi : Nat) (q : Queue) : (s.putQueue vi q).memInv ↔ s.memInv := by
  fun_cases State.putQueue <;> simp
@[simp] theorem State.rejectRecord_memInv (h : s.memInv) (v : Vi) (q : Queue) (bs : List Byte) (breach : Bool) :
    (s.rejectRecord v q bs breach).memInv := by
  fun_cases State.rejectRecord
  case case1 => simp [h]
  all_goals
    next ht _ _ => simp +zetaDelta [State.complete_memInv h ht]
@[simp] theorem State.takeRecord_memInv (h : s.memInv) (v : Vi) (q : Queue) (bs : List Byte) : (s.takeRecord v q bs).memInv := by
  fun_cases State.takeRecord <;> simp [h]
@[simp] theorem State.closeWindows_memInv (s : State) : s.closeWindows.memInv ↔ s.memInv := by simp [State.closeWindows]
@[simp] theorem execSlotRead_canonical (h : s.memInv) (vi n : Nat) : Canonical (execSlotRead vi n s) := by
  fun_cases execSlotRead <;> simp [h]
@[simp] theorem execStaleKickTimeout_canonical (h : s.memInv) (vi n : Nat) : Canonical (execStaleKickTimeout vi n s) := by
  fun_cases execStaleKickTimeout <;> simp [h]

/-! ## Functions of `Machine/Async` -/

@[simp] theorem State.trapRange_canonical (h : s.memInv) (acc : Access) (x : Nat × DWord) : Canonical (s.trapRange acc x) := by
  simp [State.trapRange, h]
@[simp] theorem State.fetchLine_memInv (s : State) (core level policy : Nat) (e : Env) (mode : Mode) (l : Nat) (a : DWord) :
    (State.fetchLine core level policy e mode l s a).memInv ↔ s.memInv := by
  fun_cases State.fetchLine <;> simp
@[simp] theorem State.fetchLines_memInv (s : State) (core : Nat) (p : Prefetch) : (s.fetchLines core p).memInv ↔ s.memInv := by
  simp [State.fetchLines]
@[simp] theorem execPrefetchComplete_canonical (h : s.memInv) (core n : Nat) : Canonical (execPrefetchComplete core n s) := by
  fun_cases execPrefetchComplete <;> simp [h]
@[simp] theorem transfer_rows_canonical (h : s.memInv) :
    (∀ d a b, Canonical (execXcopy d a b s)) ∧ (∀ d a b, Canonical (execXcopyt d a b s)) ∧
    (∀ d a b, Canonical (execXgath d a b s)) ∧ (∀ a b, Canonical (execPft a b s)) ∧ (∀ a b, Canonical (execLook a b s)) := by
  and_intros <;> intros <;> exact State.group_canonical h _ fun _ => by dsimp only; (repeat' split) <;> simp [h]
@[simp] theorem execWaitc_canonical (h : s.memInv) (c : BitVec 2) (n : BitVec 6) : Canonical (execWaitc c n s) := by
  simp [execWaitc, h]
@[simp] theorem execTagwany_canonical (h : s.memInv) (a : BitVec 7) : Canonical (execTagwany a s) := by simp [execTagwany, h]
@[simp] theorem execTagwall_canonical (h : s.memInv) (a : BitVec 7) : Canonical (execTagwall a s) := by simp [execTagwall, h]
@[simp] theorem State.clearTags_memInv (s : State) (m : DWord) : (s.clearTags m).memInv ↔ s.memInv := by simp [State.clearTags]
@[simp] theorem execTagffr_canonical (h : s.memInv) (d a : BitVec 7) : Canonical (execTagffr d a s) := by simp [execTagffr, h]
@[simp] theorem execTagclr_canonical (h : s.memInv) (a : BitVec 7) : Canonical (execTagclr a s) := by simp [execTagclr, h]
@[simp] theorem execTagrd_canonical (h : s.memInv) (d : BitVec 7) : Canonical (execTagrd d s) := by simp [execTagrd, h]

/-! ## Functions of `Machine/Coherence` -/

@[simp] theorem State.setLine_memInv (h : s.memInv) (line : Nat) (bytes : List Byte) (bad : Bool) :
    (s.setLine line bytes bad).memInv := by
  simp [State.setLine, h]
@[simp] theorem State.installCopy_memInv (h : s.memInv) (line : Nat) (st : Moesi) (bytes : Option (List Byte)) (bad : Bool) :
    (s.installCopy line st bytes bad).memInv := by
  unfold State.installCopy
  split <;> simp [h]
@[simp] theorem State.dropCopy_memInv (h : s.memInv) (line : Nat) : (s.dropCopy line).memInv := by
  simp only [State.dropCopy, State.dropLine_memInv, State.memInv_mk, State.wf_mem]
  split
  · exact State.setLine_memInv h _ _ _
  · exact h
  · exact State.setLine_memInv h _ _ _
@[simp] theorem State.deliverTo_memInv (s : State) (p : FabPacket) : (s.deliverTo p).memInv ↔ s.memInv := by
  fun_cases State.deliverTo <;> simp
@[simp] theorem State.postWant_canonical (h : s.memInv) (line : Nat) : Canonical (s.postWant line) := by
  fun_cases State.postWant <;> simp +zetaDelta [h]
@[simp] theorem State.wantDone_memInv (s : State) (tag : Nat) : (s.wantDone tag).memInv ↔ s.memInv := by simp [State.wantDone]
@[simp] theorem execDataExclusive_canonical (h : s.memInv) (p : FabPacket) : Canonical (execDataExclusive p s) := by
  refine State.receive_canonical h _ _ fun _ h => ?_
  split <;> simp [h]
@[simp] theorem State.atomicDone_memInv (s : State) (tag : Nat) (bytes : List Byte) (bad : Bool) :
    (s.atomicDone tag bytes bad).memInv ↔ s.memInv := by
  fun_cases State.atomicDone <;> simp +zetaDelta
@[simp] theorem heldCopy_rows_canonical (h : s.memInv) (p : FabPacket) :
    Canonical (execDataShared p s) ∧ Canonical (execCompletion p s) ∧ Canonical (execForwardedRead p s) ∧
    Canonical (execInvalidate p s) ∧ Canonical (execMirrorUpdate p s) := by
  and_intros <;> exact State.receive_canonical h _ _ fun _ h => by (repeat' split) <;> simp [h]
@[simp] theorem State.setTxn_memInv (s : State) (t : HomeTxn) : (s.setTxn t).memInv ↔ s.memInv := by simp [State.setTxn]
@[simp] theorem State.endTxn_memInv (s : State) (line : Nat) : (s.endTxn line).memInv ↔ s.memInv := by
  fun_cases State.endTxn <;> simp +zetaDelta
@[simp] theorem State.install_memInv (h : s.memInv) (t : HomeTxn) : (s.install t).memInv := by
  unfold State.install
  split <;> simp [h]
@[simp] theorem State.mirrorTxn_memInv (h : s.memInv) (t : HomeTxn) : (s.mirrorTxn t).memInv := by
  fun_cases State.mirrorTxn <;> simp [h]
@[simp] theorem State.collected_memInv (h : s.memInv) (t : HomeTxn) (bytes : List Byte) (bad : Bool) :
    (s.collected t bytes bad).memInv := by
  simp [State.collected, h]
@[simp] theorem State.advance_memInv (h : s.memInv) (t : HomeTxn) (bytes : List Byte) (bad : Bool) :
    (s.advance t bytes bad).memInv := by
  fun_cases State.advance <;> simp [h]
@[simp] theorem State.beginRecall_memInv (h : s.memInv) (p : FabPacket) (entry : DirEntry) (keep : Option Nat)
    (sends : List FabPacket) :
    (s.beginRecall p entry keep sends).memInv := by
  simp [State.beginRecall, h]
@[simp] theorem State.beginPlain_memInv (h : s.memInv) (p : FabPacket) (entry : DirEntry) (data : Option (List Byte))
    (sends : List FabPacket) :
    (s.beginPlain p entry data sends).memInv := by
  simp [State.beginPlain, h]
@[simp] theorem State.serveControl_canonical (h : s.memInv) (p : FabPacket) (op : Nat) {k : State → State}
    (hk : ∀ s, s.memInv → (k s).memInv) : Canonical (s.serveControl p op k) :=
  State.receive_canonical h p op fun _ h => by simp [h, hk]
@[simp] theorem execReadShared_canonical (h : s.memInv) (p : FabPacket) : Canonical (execReadShared p s) := by
  refine State.serveControl_canonical h _ _ fun _ h => ?_
  dsimp only
  split <;> simp [h]
@[simp] theorem homeRequest_rows_canonical (h : s.memInv) (p : FabPacket) :
    Canonical (execReadOwn p s) ∧ Canonical (execUpgrade p s) ∧ Canonical (execWriteback p s) ∧
    Canonical (execControlAtomic p s) ∧ Canonical (execAcknowledgement p s) ∧ Canonical (execMirrorAcknowledgement p s) := by
  and_intros <;> exact State.receive_canonical h _ _ fun _ h => by (repeat' split) <;> simp [h]
@[simp] theorem execControlRequestTimeout_canonical (h : s.memInv) (tag : Nat) : Canonical (execControlRequestTimeout tag s) := by
  fun_cases execControlRequestTimeout <;> simp +zetaDelta [h]

/-! ## Functions of `Machine/Collective` -/

@[simp] theorem State.issueCollective_canonical (h : s.memInv) (sa x : DWord) (hints : Hints) (bs : List Byte) :
    Canonical (s.issueCollective sa x hints bs) := by
  fun_cases State.issueCollective <;> simp [h]
@[simp] theorem execXcoll_canonical (h : s.memInv) (a b : BitVec 7) : Canonical (execXcoll a b s) := by
  refine State.group_canonical h _ fun _ => ?_
  dsimp only
  (repeat' split) <;> simp [h]
@[simp] theorem State.collBump_memInv (s : State) (vi group ix : Nat) : (s.collBump vi group ix).memInv ↔ s.memInv := by
  simp [State.collBump]
@[simp] theorem State.collSend_memInv (s : State) (o : AsyncOp) (c : Coll) (m : Member) (kind first : Nat) (bytes : List Byte)
    (bad : Bool) :
    (s.collSend o c m kind first bytes bad).memInv ↔ s.memInv := by
  simp [State.collSend]
@[simp] theorem State.collFail_memInv (s : State) (os : List (AsyncOp × Coll)) (more : List (AsyncOp × Coll × Member)) :
    (s.collFail os more).memInv ↔ s.memInv := by
  simp [State.collFail]
@[simp] theorem State.beginCollective_memInv (s : State) (o : AsyncOp) (c : Coll) :
    (s.beginCollective o c).memInv ↔ s.memInv := by
  fun_cases State.beginCollective <;> simp +zetaDelta
@[simp] theorem State.greet_canonical (h : s.memInv) (o : AsyncOp) (c : Coll) : Canonical (s.greet o c) := by
  simp [State.greet, h]
theorem State.collWrite_memInv (h : s.memInv) {o : AsyncOp} {c : Coll} {pos : Nat} {bytes : List Byte} {bad : Bool} {t : State}
    (e : s.collWrite o c pos bytes bad = some t) : t.memInv := by
  revert e
  fun_cases State.collWrite s o c pos bytes bad <;> rintro ⟨⟩ <;> simp [h]
theorem State.collResult_memInv (h : s.memInv) {id : Nat} {c : Coll} {r : Nat × List Byte} {t : State}
    (e : s.collResult id c r = some t) : t.memInv := by
  revert e
  fun_cases State.collResult s id c r <;> rintro ⟨⟩
  case case1 => exact h
  case case2 => exact h
  all_goals simp [State.collWrite_memInv h ‹_›]
/-- Steps that may have to wait, one after another, keep memory canonical when each of them does. -/
theorem memInv_foldl_bind {α : Type} {f : State → α → Option State} (hf : ∀ s x t, s.memInv → f s x = some t → t.memInv) (xs : List α)
    {r : Option State} (hr : ∀ t, r = some t → t.memInv) {t : State}
    (e : xs.foldl (fun r x => r.bind fun s => f s x) r = some t) : t.memInv := by
  induction xs generalizing r with
  | nil => exact hr t e
  | cons x xs ih =>
    refine ih (fun u hu => ?_) e
    obtain ⟨v, hv, hu⟩ := Option.bind_eq_some_iff.1 hu
    exact hf v x u (hr v hv) hu

theorem State.takeIn_memInv (h : s.memInv) {o : AsyncOp} {c : Coll} {rank kind pos : Nat} {bytes : List Byte} {bad : Bool} {t : State}
    (e : s.takeIn o c rank kind pos bytes bad = some t) : t.memInv := by
  unfold State.takeIn at e
  split at e
  · refine memInv_foldl_bind (fun _ _ _ h he => State.collResult_memInv h he) _ (fun u hu => ?_) e
    obtain rfl := Option.some.inj hu
    simp [h]
  · exact State.collWrite_memInv h e
@[simp] theorem State.performCollective_canonical (h : s.memInv) (o : AsyncOp) (off n : Nat) :
    Canonical (s.performCollective o off n) := by
  fun_cases State.performCollective
  case case9 ht =>
    exact State.takeIn_memInv (by simp +zetaDelta [h]) ht
  all_goals simp +zetaDelta [h]
@[simp] theorem State.collAck_memInv (s : State) (p : FabPacket) : (s.collAck p).memInv ↔ s.memInv := by simp [State.collAck]
@[simp] theorem State.collKeep_memInv (s : State) (p : FabPacket) : (s.collKeep p).memInv ↔ s.memInv := by simp [State.collKeep]
@[simp] theorem State.takeWord_memInv (s : State) (p : FabPacket) (m : Member) : (s.takeWord p m).memInv ↔ s.memInv := by
  fun_cases State.takeWord <;> simp
@[simp] theorem State.collRefuse_memInv (s : State) (p : FabPacket) : (s.collRefuse p).memInv ↔ s.memInv := by
  simp [State.collRefuse]
@[simp] theorem State.takeElements_memInv (h : s.memInv) (v : Vi) (p : FabPacket) (m : Member) :
    (s.takeElements v p m).memInv := by
  fun_cases State.takeElements
  case case4 ht => simp [State.takeIn_memInv h ht]
  all_goals simp [h]
@[simp] theorem collective_rows_canonical (h : s.memInv) (p : FabPacket) :
    Canonical (execCollectiveData p s) ∧ Canonical (execCollectiveAcknowledgement p s) := by
  and_intros <;> exact State.receive_canonical h _ _ fun _ h => by (repeat' split) <;> simp [h]
@[simp] theorem execCollectiveComplete_canonical (h : s.memInv) (id : Nat) (st : OpStatus) :
    Canonical (execCollectiveComplete id st s) := by
  fun_cases execCollectiveComplete <;> simp [h]

/-! ## Functions of `Machine/VectorFp` -/

@[simp] theorem State.fp2_canonical (h : s.memInv) (d a b : BitVec 7) (g : ElemOp) : Canonical (s.fp2 d a b g) := by
  simp [State.fp2, h]
@[simp] theorem fp2_rows_canonical (h : s.memInv) (d a b : BitVec 7) :
    Canonical (execVaddF32 d a b s) ∧ Canonical (execVsubF32 d a b s) ∧ Canonical (execVmulF32 d a b s) ∧
    Canonical (execVminF32 d a b s) ∧ Canonical (execVmaxF32 d a b s) := by
  and_intros <;> exact State.fp2_canonical h ..
@[simp] theorem State.fp2h_canonical (h : s.memInv) (d a b : BitVec 7) (f : BitVec 1) (g : ElemOp) :
    Canonical (s.fp2h d a b f g) := by
  simp [State.fp2h, h]
@[simp] theorem fp2h_rows_canonical (h : s.memInv) (d a b : BitVec 7) (f : BitVec 1) :
    Canonical (execVaddF16Bf16 d a b f s) ∧ Canonical (execVsubF16Bf16 d a b f s) ∧ Canonical (execVmulF16Bf16 d a b f s) ∧
    Canonical (execVminF16Bf16 d a b f s) ∧ Canonical (execVmaxF16Bf16 d a b f s) := by
  and_intros <;> exact State.fp2h_canonical h ..
@[simp] theorem State.fpBits_canonical (h : s.memInv) (d a b : BitVec 7) (g : Word → Word → Word) :
    Canonical (s.fpBits d a b g) := by
  simp [State.fpBits, h]
@[simp] theorem fpBits_rows_canonical (h : s.memInv) :
    (∀ d a, Canonical (execVabsF32 d a s)) ∧ (∀ d a, Canonical (execVnegF32 d a s)) ∧ (∀ d a b, Canonical (execVcpysF32 d a b s)) ∧
    (∀ d a, Canonical (execVclassF32 d a s)) ∧ (∀ d a f, Canonical (execVabsF16Bf16 d a f s)) ∧
    (∀ d a f, Canonical (execVnegF16Bf16 d a f s)) := by
  and_intros <;> intros <;> exact State.fpBits_canonical h ..
@[simp] theorem State.fma32_canonical (h : s.memInv) (d a b : BitVec 7) (negP negC : Bool) :
    Canonical (s.fma32 d a b negP negC) := by
  simp [State.fma32, h]
@[simp] theorem fma32_rows_canonical (h : s.memInv) (d a b : BitVec 7) :
    Canonical (execVfmaF32 d a b s) ∧ Canonical (execVfmsF32 d a b s) ∧ Canonical (execVfnmaF32 d a b s) ∧
    Canonical (execVfnmsF32 d a b s) := by
  and_intros <;> exact State.fma32_canonical h ..
@[simp] theorem State.fma16_canonical (h : s.memInv) (d a b : BitVec 7) (f : BitVec 1) (negP negC : Bool) :
    Canonical (s.fma16 d a b f negP negC) := by
  simp [State.fma16, h]
@[simp] theorem fma16_rows_canonical (h : s.memInv) (d a b : BitVec 7) (f : BitVec 1) :
    Canonical (execVfmaF16Bf16 d a b f s) ∧ Canonical (execVfmsF16Bf16 d a b f s) ∧ Canonical (execVfnmaF16Bf16 d a b f s) ∧
    Canonical (execVfnmsF16Bf16 d a b f s) := by
  and_intros <;> exact State.fma16_canonical h ..
@[simp] theorem State.fpFunc_canonical (h : s.memInv) (d : BitVec 7) (srcs : List Nat) (g : ElemOp) :
    Canonical (s.fpFunc d srcs g) := by
  simp [State.fpFunc, h]
@[simp] theorem fpFunc_rows_canonical (h : s.memInv) :
    (∀ d a, Canonical (execVrcpF32 d a s)) ∧ (∀ d a, Canonical (execVrsqrtF32 d a s)) ∧ (∀ d a, Canonical (execVsqrtF32 d a s)) ∧
    (∀ d a, Canonical (execVexp2F32 d a s)) ∧ (∀ d a, Canonical (execVlog2F32 d a s)) ∧ (∀ d a, Canonical (execVsinF32 d a s)) ∧
    (∀ d a, Canonical (execVcosF32 d a s)) ∧ (∀ d a, Canonical (execVtanhF32 d a s)) ∧ (∀ d a b, Canonical (execVdivF32 d a b s)) := by
  and_intros <;> intros <;> exact State.fpFunc_canonical h ..
@[simp] theorem State.fpScalar_canonical (h : s.memInv) (d a b : BitVec 7) (g : ElemOp) (withD : Bool) :
    Canonical (s.fpScalar d a b g withD) := by
  simp [State.fpScalar, h]
@[simp] theorem fpScalar_rows_canonical (h : s.memInv) (d a b : BitVec 7) :
    Canonical (execVaddsF32 d a b s) ∧ Canonical (execVsubsF32 d a b s) ∧ Canonical (execVmulsF32 d a b s) ∧
    Canonical (execVfmasF32 d a b s) ∧ Canonical (execVminsF32 d a b s) ∧ Canonical (execVmaxsF32 d a b s) := by
  and_intros <;> exact State.fpScalar_canonical h ..
@[simp] theorem execVrintF32_canonical (h : s.memInv) (d a : BitVec 7) : Canonical (execVrintF32 d a s) := by
  simp [execVrintF32, h]
@[simp] theorem execVdot2_canonical (h : s.memInv) (d a b : BitVec 7) (f : BitVec 1) : Canonical (execVdot2 d a b f s) := by
  simp [execVdot2, h]

/-! ## Functions of `Machine/Compare` -/

@[simp] theorem State.cmpInt_canonical (h : s.memInv) (d a b : BitVec 7) (r : Word → Word → Bool) :
    Canonical (s.cmpInt d a b r) := by
  simp [State.cmpInt, h]
@[simp] theorem cmpInt_rows_canonical (h : s.memInv) (d a b : BitVec 7) :
    Canonical (execVcmpEqI32 d a b s) ∧ Canonical (execVcmpNeI32 d a b s) ∧ Canonical (execVcmpLtI32 d a b s) ∧
    Canonical (execVcmpLeI32 d a b s) ∧ Canonical (execVcmpLtN32 d a b s) ∧ Canonical (execVcmpLeN32 d a b s) := by
  and_intros <;> exact State.cmpInt_canonical h ..
@[simp] theorem State.cmpFp_canonical (h : s.memInv) (d a b : BitVec 7) (r : FpRel) : Canonical (s.cmpFp d a b r) := by
  simp [State.cmpFp, h]
@[simp] theorem cmpFp_rows_canonical (h : s.memInv) (d a b : BitVec 7) :
    Canonical (execVcmpEqF32 d a b s) ∧ Canonical (execVcmpNeF32 d a b s) ∧ Canonical (execVcmpLtF32 d a b s) ∧
    Canonical (execVcmpLeF32 d a b s) ∧ Canonical (execVcmpUnF32 d a b s) := by
  and_intros <;> exact State.cmpFp_canonical h ..
@[simp] theorem State.predOp_canonical (h : s.memInv) (d a b : BitVec 7) (g : Bool → Bool → Bool) :
    Canonical (s.predOp d a b g) := by
  simp [State.predOp, h]
@[simp] theorem predOp_rows_canonical (h : s.memInv) :
    (∀ d a b, Canonical (execPand d a b s)) ∧ (∀ d a b, Canonical (execPor d a b s)) ∧ (∀ d a b, Canonical (execPxor d a b s)) ∧
    (∀ d a b, Canonical (execPandn d a b s)) ∧ (∀ d a, Canonical (execPnot d a s)) := by
  and_intros <;> intros <;> exact State.predOp_canonical h ..

/-! ## Functions of `Machine/Convert` -/

@[simp] theorem execVcvtWide_canonical (h : s.memInv) (d a : BitVec 7) (t : BitVec 3) (u g : BitVec 1) (src : BitVec 3) :
    Canonical (execVcvtWide d a t u g src s) := by
  simp [execVcvtWide, h]
@[simp] theorem execVcvtNarrowToF32_canonical (h : s.memInv) (d a f : BitVec 7) (i : BitVec 3) :
    Canonical (execVcvtNarrowToF32 d a f i s) := by
  simp [execVcvtNarrowToF32, h]
@[simp] theorem execVcvtF32ToNarrow_canonical (h : s.memInv) (d a f : BitVec 7) (i : BitVec 3) :
    Canonical (execVcvtF32ToNarrow d a f i s) := by
  simp [execVcvtF32ToNarrow, h]

/-! ## Functions of `Machine/CrossLane` -/

@[simp] theorem State.shuffle_canonical (h : s.memInv) (d a : BitVec 7) (vs ss : List Nat) (src : Nat → Nat) :
    Canonical (s.shuffle d a vs ss src) := by
  simp [State.shuffle, h]
@[simp] theorem shuffle_rows_canonical (h : s.memInv) (d a b : BitVec 7) :
    Canonical (execVshfl d a b s) ∧ Canonical (execVprmXor d a b s) ∧ Canonical (execVprmRot d a b s) ∧ Canonical (execVbcst d a b s) := by
  and_intros <;> exact State.shuffle_canonical h ..
@[simp] theorem State.redFp_canonical (h : s.memInv) (d a : BitVec 7) (rounds : Bool) (g : ElemOp) (ident : Word) :
    Canonical (s.redFp d a rounds g ident) := by
  simp [State.redFp, h]
@[simp] theorem redFp_rows_canonical (h : s.memInv) (d a : BitVec 7) :
    Canonical (execVredF32 d a s) ∧ Canonical (execVredminF32 d a s) ∧ Canonical (execVredmaxF32 d a s) := by
  and_intros <;> exact State.redFp_canonical h ..
@[simp] theorem State.redInt_canonical (h : s.memInv) (d a : BitVec 7) (ident : DWord) (g : DWord → Word → DWord) :
    Canonical (s.redInt d a ident g) := by
  simp [State.redInt, h]
@[simp] theorem redInt_rows_canonical (h : s.memInv) (d a : BitVec 7) :
    Canonical (execVredI32 d a s) ∧ Canonical (execVredminI32 d a s) ∧ Canonical (execVredmaxI32 d a s) ∧
    Canonical (execVredandB32 d a s) ∧ Canonical (execVredorB32 d a s) := by
  and_intros <;> exact State.redInt_canonical h ..
@[simp] theorem State.scanFp_canonical (h : s.memInv) (d a : BitVec 7) (incl : Nat) : Canonical (s.scanFp d a incl) := by
  simp [State.scanFp, h]
@[simp] theorem scanFp_rows_canonical (h : s.memInv) (d a : BitVec 7) :
    Canonical (execVscanF32 d a s) ∧ Canonical (execVscanxF32 d a s) := by
  and_intros <;> exact State.scanFp_canonical h ..
@[simp] theorem State.scanInt_canonical (h : s.memInv) (d a : BitVec 7) (incl : Nat) : Canonical (s.scanInt d a incl) := by
  simp [State.scanInt, h]
@[simp] theorem scanInt_rows_canonical (h : s.memInv) (d a : BitVec 7) :
    Canonical (execVscanI32 d a s) ∧ Canonical (execVscanxI32 d a s) := by
  and_intros <;> exact State.scanInt_canonical h ..
@[simp] theorem execVmatch_canonical (h : s.memInv) (d a : BitVec 7) : Canonical (execVmatch d a s) := by simp [execVmatch, h]

/-! ## Functions of `Machine/Matrix` -/

@[simp] theorem execMclose_canonical (h : s.memInv) : Canonical (execMclose s) := by simp [execMclose, h]
theorem State.claim_memInv {t : State} (e : s.claim = some t) : t.memInv ↔ s.memInv := by
  revert e
  fun_cases State.claim s <;> rintro ⟨⟩ <;> simp
@[simp] theorem State.matrixGroup_canonical (h : s.memInv) (f : Form) {k : Hints → Out} (hk : ∀ x, Canonical (k x)) :
    Canonical (s.matrixGroup f k) := by
  unfold State.matrixGroup
  split
  · simp [h]
  · exact State.group_canonical h _ hk
@[simp] theorem State.enqueue_canonical (h : s.memInv) (o : MatrixOp) : Canonical (s.enqueue o) := by simp [State.enqueue, h]
@[simp] theorem State.mmaIssue_canonical (h : s.memInv) (kind : MatrixKind) (a b sreg : Nat) (scales : List DWord) :
    Canonical (s.mmaIssue kind a b sreg scales) := by
  fun_cases State.mmaIssue
  case case4 hc _ _ _ => simp [State.claim_memInv hc, h]
  all_goals simp [h]
@[simp] theorem execMma_canonical (h : s.memInv) (a b : BitVec 4) (sr : BitVec 7) (z t : BitVec 1) :
    Canonical (execMma a b sr z t s) := by
  simp [execMma, h]
@[simp] theorem execMmas_canonical (h : s.memInv) (a b : BitVec 4) (sr : BitVec 7) (z t : BitVec 1) :
    Canonical (execMmas a b sr z t s) := by
  simp [execMmas, h]
@[simp] theorem execMmax_canonical (h : s.memInv) (a b : BitVec 4) (sr : BitVec 7) (z t : BitVec 1) (m : BitVec 4) :
    Canonical (execMmax a b sr z t m s) := by
  simp [execMmax, h]
@[simp] theorem State.tileMove_canonical (h : s.memInv) (acc : Access) (kind : MatrixKind) (ta : Nat) (addr : DWord) :
    Canonical (s.tileMove acc kind ta addr) := by
  fun_cases State.tileMove
  case case5 hc _ _ _ _ => simp [State.claim_memInv hc, h]
  all_goals simp [h]
@[simp] theorem execTld_canonical (h : s.memInv) (a : BitVec 4) (sr : BitVec 7) : Canonical (execTld a sr s) := by
  simp [execTld, h]
@[simp] theorem execTst_canonical (h : s.memInv) (a : BitVec 4) (sr : BitVec 7) : Canonical (execTst a sr s) := by
  simp [execTst, h]
@[simp] theorem State.rectMove_canonical (h : s.memInv) (acc : Access) (kind : MatrixKind) (x : DWord) :
    Canonical (s.rectMove acc kind x) := by
  fun_cases State.rectMove
  case case5 hc _ _ _ _ => simp [State.claim_memInv hc, h]
  all_goals simp [h]
@[simp] theorem execAmcpOut_canonical (h : s.memInv) (sr : BitVec 7) : Canonical (execAmcpOut sr s) := by simp [execAmcpOut, h]
@[simp] theorem execAmcpIn_canonical (h : s.memInv) (sr : BitVec 7) : Canonical (execAmcpIn sr s) := by simp [execAmcpIn, h]
@[simp] theorem claim_rows_canonical (h : s.memInv) :
    (∀ a sr, Canonical (execTcfg a sr s)) ∧ (∀ a, Canonical (execTzero a s)) ∧ (∀ a p, Canonical (execTxfer a p s)) ∧
    (∀ a p, Canonical (execTrecv a p s)) ∧ (∀ sr, Canonical (execAmzero sr s)) := by
  and_intros <;> intros <;> refine State.matrixGroup_canonical h _ fun _ => ?_
  all_goals
    split
    · simp [h]
    · next hc => simp [State.claim_memInv hc, h]
@[simp] theorem State.endMatrixOp_memInv (s : State) (core : Nat) (o : MatrixOp) (f : FpFlags) (st : OpStatus) :
    (s.endMatrixOp core o f st).memInv ↔ s.memInv := by
  simp [State.endMatrixOp]
@[simp] theorem execMatrixOpBegin_canonical (h : s.memInv) (core op : Nat) : Canonical (execMatrixOpBegin core op s) := by
  fun_cases execMatrixOpBegin <;> simp +zetaDelta [h]
@[simp] theorem execMatrixOpComplete_canonical (h : s.memInv) (core op : Nat) : Canonical (execMatrixOpComplete core op s) := by
  unfold execMatrixOpComplete
  dsimp only
  split
  · simp [h]
  · split
    · simp [h]
    · simp only [canonical_next, State.endMatrixOp_memInv, State.memInv_ite, State.soon_memInv, ite_self]
      split
      · split <;> simp [h]
      · simp [h]

/-! ## Functions of `Machine/Placing` -/

@[simp] theorem State.freeCores_memInv (s : State) : s.freeCores.memInv ↔ s.memInv := by simp [State.freeCores]
@[simp] theorem State.placeTeam_memInv (s : State) (g : Grid) (team : Nat) (cores : List Nat) :
    (s.placeTeam g team cores).memInv ↔ s.memInv := by
  simp [State.placeTeam]
@[simp] theorem State.placeReach_memInv (s : State) (g : Grid) (x : Reach) (cores : List (List Nat)) :
    (s.placeReach g x cores).memInv ↔ s.memInv := by
  simp [State.placeReach]
@[simp] theorem State.passOver_memInv (s : State) (cs : List Grid) (placed : Nat) :
    (s.passOver cs placed).memInv ↔ s.memInv := by
  simp [State.passOver]
@[simp] theorem execDispatch_canonical (h : s.memInv) : Canonical (execDispatch s) := by
  fun_cases execDispatch <;> simp +zetaDelta [h]
@[simp] theorem execCandidateReserved_canonical (h : s.memInv) (n : Nat) : Canonical (execCandidateReserved n s) := by
  fun_cases execCandidateReserved <;> simp [h]
@[simp] theorem State.freeBlocks_memInv (s : State) (slotNo : Nat) : (s.freeBlocks slotNo).memInv ↔ s.memInv := by
  simp [State.freeBlocks]
@[simp] theorem State.startWave_memInv (s : State) (g : Grid) (x : Reach) (t : TeamState) (wave : Nat) (st : WaveStatus) :
    (s.startWave g x t wave st).memInv ↔ s.memInv := by simp [State.startWave]
@[simp] theorem State.startTeam_memInv (s : State) (g : Grid) (x : Reach) (t : TeamState) (st : WaveStatus) :
    (s.startTeam g x t st).memInv ↔ s.memInv := by simp [State.startTeam]
@[simp] theorem State.zeroStore_memInv (s : State) (g : Grid) (t : TeamState) : (s.zeroStore g t).memInv ↔ s.memInv := by
  refine foldl_memInv (fun s c => ?_) _ _
  dsimp only
  split <;> simp
@[simp] theorem execReachStart_canonical (h : s.memInv) (grid n : Nat) : Canonical (execReachStart grid n s) := by
  fun_cases execReachStart <;> simp +zetaDelta [h]
theorem State.loadSegments_memInv {v : Vi} {g : Grid} {m : SegmentMap} {ts : List TeamState} {t : State}
    (e : s.loadSegments v g m ts = .ok t) : t.memInv ↔ s.memInv := by
  induction ts generalizing s with
  | nil =>
    obtain rfl := Except.ok.inj e
    rfl
  | cons u us ih =>
    unfold State.loadSegments at e
    split at e
    · exact ih e
    · next seg _ =>
      cases hb : s.segmentBytes v g seg with
      | error r => simp [hb, bind, Except.bind] at e
      | ok bs =>
        rw [hb] at e
        exact (ih e).trans (State.setCore_memInv _ _)
/-- A write of the hub that may have no place keeps memory canonical. -/
@[simp] theorem State.hubWrite_getD_memInv (h : s.memInv) (e : Env) (a : DWord) (bs : List Byte) :
    ((s.hubWrite e a bs).getD s).memInv := by
  cases hw : s.hubWrite e a bs with
  | none => exact h
  | some t => exact State.hubWrite_memInv h hw

@[simp] theorem execFerryGridStart_canonical (h : s.memInv) (grid : Nat) : Canonical (execFerryGridStart grid s) := by
  fun_cases execFerryGridStart
  case case5 hs _ _ _ _ =>
    refine (foldl_memInv (fun _ _ => State.startTeam_memInv _ _ _ _ _) _ _).2 ?_
    refine memInv_foldl (fun _ _ h => State.hubWrite_getD_memInv h _ _ _) ?_ _
    simp +zetaDelta [State.loadSegments_memInv hs, h]
  all_goals simp [h]
@[simp] theorem execSpawnBinTimeout_canonical (h : s.memInv) (core n : Nat) : Canonical (execSpawnBinTimeout core n s) := by
  fun_cases execSpawnBinTimeout <;> simp [h]
@[simp] theorem execBinWaveStart_canonical (h : s.memInv) (core n : Nat) : Canonical (execBinWaveStart core n s) := by
  fun_cases execBinWaveStart <;> simp +zetaDelta [h]

/-! ## Functions of `Machine/Sync` -/

@[simp] theorem State.stallFence_canonical (h : s.memInv) : Canonical s.stallFence := by simp [State.stallFence, h]
@[simp] theorem execFence_canonical (h : s.memInv) (m : BitVec 5) : Canonical (execFence m s) := by simp [execFence, h]
@[simp] theorem execFenceTc_canonical (h : s.memInv) : Canonical (execFenceTc s) := by simp [execFenceTc, h]
@[simp] theorem State.enterAfter_memInv (s : State) : s.enterAfter.memInv ↔ s.memInv := by simp [State.enterAfter]
@[simp] theorem State.arrive_canonical (h : s.memInv) (reach : Bool) (b : Nat) : Canonical (s.arrive reach b) := by
  fun_cases State.arrive <;> simp +zetaDelta [h]
@[simp] theorem execBar_canonical (h : s.memInv) (b : BitVec 4) : Canonical (execBar b s) := by simp [execBar, h]
@[simp] theorem execRbar_canonical (h : s.memInv) (b : BitVec 4) : Canonical (execRbar b s) := by simp [execRbar, h]
@[simp] theorem State.during_memInv (h : s.memInv) (r : WaveRef) {f : State → State} (hf : ∀ s, s.memInv → (f s).memInv) :
    (s.during r f).memInv := by
  fun_cases State.during
  · exact h
  · next hs u =>
    have hu : u.memInv := hf _ ((State.focus_memInv hs).2 h)
    cases hv : u.focus ⟨s.wave.core, s.wave.slot⟩ with
    | none => exact hu
    | some v => exact (State.focus_memInv hv).2 hu
@[simp] theorem State.leaveBarrier_memInv (s : State) (delay : Nat) : (s.leaveBarrier delay).memInv ↔ s.memInv := by
  simp [State.leaveBarrier]
@[simp] theorem execBarrierComplete_canonical (h : s.memInv) (b : BarrierRef) : Canonical (execBarrierComplete b s) := by
  fun_cases execBarrierComplete
  · simp [h]
  · exact memInv_foldl (fun _ w h => State.during_memInv h _ fun _ h => by simp [h]) h _

/-! ## Functions of `Machine/Waves` -/

@[simp] theorem State.fetchFault_canonical (h : s.memInv) (x : Nat × DWord) : Canonical (s.fetchFault x) := by
  simp [State.fetchFault, h]
@[simp] theorem execFetchFillComplete_canonical (h : s.memInv) (r : WaveRef) : Canonical (execFetchFillComplete r s) := by
  refine State.onWave_canonical h _ fun _ h => ?_
  dsimp only
  (repeat' split) <;> simp [h]
@[simp] theorem State.markLookouts_memInv (s : State) : s.markLookouts.memInv ↔ s.memInv := by simp [State.markLookouts]
@[simp] theorem State.startClause_canonical (h : s.memInv) (header : Word) (ws : List Word) :
    Canonical (s.startClause header ws) := by
  fun_cases State.startClause <;> simp [h]
@[simp] theorem State.countUnserved_memInv (s : State) : s.countUnserved.memInv ↔ s.memInv := by simp [State.countUnserved]
@[simp] theorem execLookoutStart_canonical (h : s.memInv) (r : WaveRef) : Canonical (execLookoutStart r s) := by
  refine State.onWave_canonical h _ fun _ h => ?_
  dsimp only
  (repeat' split) <;> simp [h]
@[simp] theorem execLongLatencyComplete_canonical (h : s.memInv) (r : WaveRef) (op : Nat) :
    Canonical (execLongLatencyComplete r op s) := by
  fun_cases execLongLatencyComplete <;> simp [h]
@[simp] theorem State.retryTransfer_canonical (h : s.memInv) (x : Word) : Canonical (s.retryTransfer x) := by
  fun_cases State.retryTransfer <;> simp [h]
@[simp] theorem State.retry_canonical (h : s.memInv) (x : Word) : Canonical (State.retry x s) := by
  fun_cases State.retry <;> simp [h]
@[simp] theorem execTerminalInstructionComplete_canonical (h : s.memInv) (r : WaveRef) :
    Canonical (execTerminalInstructionComplete r s) := by
  refine State.onWave_canonical h _ fun u hu => ?_
  dsimp only
  split
  · simp [hu]
  · split
    · simp [hu]
    · have hr := State.retry_canonical hu (u.wave.pos.words.getD u.wave.pos.ridx 0)
      split
      · next ht => simp [hu, memInv_of_next ht hr]
      · exact hr
@[simp] theorem execTrapEntry_canonical (h : s.memInv) (r : WaveRef) : Canonical (execTrapEntry r s) := by
  refine State.onWave_canonical h _ fun _ h => ?_
  dsimp only
  split <;> simp [h]
@[simp] theorem State.boundaryTrap_memInv (s : State) (code : Word) (w : Wave) : (s.boundaryTrap code w).memInv ↔ s.memInv := by
  simp [State.boundaryTrap]
@[simp] theorem execWatchdogExpiry_canonical (h : s.memInv) (r : WaveRef) : Canonical (execWatchdogExpiry r s) := by
  fun_cases execWatchdogExpiry <;> simp [h]
@[simp] theorem State.startBudget_memInv (s : State) : s.startBudget.memInv ↔ s.memInv := by
  fun_cases State.startBudget <;> simp
@[simp] theorem boundary_rows_canonical (h : s.memInv) (r : WaveRef) :
    Canonical (execClauseStart r s) ∧ Canonical (execWaveBoost r s) ∧ Canonical (execLookoutTimeout r s) ∧
    Canonical (execEngineFailureTrap r s) ∧ Canonical (execWatchdogTrap r s) ∧ Canonical (execSingleStepTrap r s) := by
  and_intros <;> exact State.onWave_canonical h _ fun _ h => by (repeat' split) <;> simp [h]
@[simp] theorem execIllegalInstruction_canonical (h : s.memInv) (x : Word) : Canonical (execIllegalInstruction x s) := by
  simp [execIllegalInstruction, h]
@[simp] theorem State.freeRegisters_memInv (s : State) (grid team : Nat) : (s.freeRegisters grid team).memInv ↔ s.memInv := by
  simp [State.freeRegisters]
@[simp] theorem State.endNow_memInv (s : State) (r : WaveRef) : (s.endNow r).memInv ↔ s.memInv := by
  fun_cases State.endNow <;> simp +zetaDelta
@[simp] theorem execExitTakesEffect_canonical (h : s.memInv) (r : WaveRef) : Canonical (execExitTakesEffect r s) := by
  fun_cases execExitTakesEffect <;> simp [h]

/-! ## Functions of `Machine/Ferry` -/

@[simp] theorem State.writeOverflow_memInv (h : s.memInv) (e : Env) (t : Traveller) : (s.writeOverflow e t).memInv := by
  unfold State.writeOverflow
  dsimp only
  split
  · exact h
  · split
    · exact h
    · next hw => exact State.hubWrite_getD_memInv (State.hubWrite_memInv h hw) _ _ _
@[simp] theorem State.launchTraveller_memInv (s : State) (t : Traveller) (vi dst : Nat) :
    (s.launchTraveller t vi dst).memInv ↔ s.memInv := by
  simp [State.launchTraveller]
@[simp] theorem State.sendTraveller_canonical (h : s.memInv) (c : Core) (n : Nat) (t : Traveller) :
    Canonical (s.sendTraveller c n t) := by
  fun_cases State.sendTraveller <;> simp [h]
@[simp] theorem execTravellerDepart_canonical (h : s.memInv) (core : Nat) : Canonical (execTravellerDepart core s) := by
  fun_cases execTravellerDepart <;> simp [h]
@[simp] theorem execTravellerReoffer_canonical (h : s.memInv) (core n : Nat) : Canonical (execTravellerReoffer core n s) := by
  fun_cases execTravellerReoffer <;> simp [h]
@[simp] theorem execTravellerArrival_canonical (h : s.memInv) (n : Nat) : Canonical (execTravellerArrival n s) := by
  fun_cases execTravellerArrival <;> simp +zetaDelta [h]
@[simp] theorem execOverflowTake_canonical (h : s.memInv) (core : Nat) : Canonical (execOverflowTake core s) := by
  fun_cases execOverflowTake
  case case3 hw _ => simp [State.hubWrite_memInv h hw]
  all_goals simp [h]
@[simp] theorem execLandingQueueAdvance_canonical (h : s.memInv) (core : Nat) : Canonical (execLandingQueueAdvance core s) := by
  fun_cases execLandingQueueAdvance <;> simp [h]
@[simp] theorem execLandingOccupancySample_canonical (h : s.memInv) (core : Nat) :
    Canonical (execLandingOccupancySample core s) := by
  simp [execLandingOccupancySample, h]
@[simp] theorem State.watchSegments_memInv (s : State) : s.watchSegments.memInv ↔ s.memInv := by simp [State.watchSegments]
@[simp] theorem State.setSegment_memInv (s : State) (g : Grid) (m : SegmentMap) (x : SegmentEntry) :
    (s.setSegment g m x).memInv ↔ s.memInv := by
  simp [State.setSegment]
@[simp] theorem execSegmentReplication_canonical (h : s.memInv) (grid seg : Nat) :
    Canonical (execSegmentReplication grid seg s) := by
  fun_cases execSegmentReplication <;> simp [h]
@[simp] theorem execReplicaLoadComplete_canonical (h : s.memInv) (grid seg : Nat) :
    Canonical (execReplicaLoadComplete grid seg s) := by
  fun_cases execReplicaLoadComplete <;> simp [h]

/-! ## Functions of `Machine/Keeper` -/

@[simp] theorem execAmsg_canonical (h : s.memInv) (d a : BitVec 7) (hd : BitVec 6) : Canonical (execAmsg d a hd s) := by
  refine State.group_canonical h _ fun _ => ?_
  dsimp only
  (repeat' split) <;> simp [h]
@[simp] theorem State.setKeeper_memInv (s : State) (k : Keeper) : (s.setKeeper k).memInv ↔ s.memInv := by simp [State.setKeeper]
@[simp] theorem State.focusKeeper_memInv (s : State) (slice : Nat) : (s.focusKeeper slice).memInv ↔ s.memInv := by
  simp [State.focusKeeper]
@[simp] theorem State.carry_memInv (s : State) (vi op src dst : Nat) (payload : List Byte) :
    (s.carry vi op src dst payload).memInv ↔ s.memInv := by
  simp [State.carry]
@[simp] theorem State.deliverMessage_memInv (s : State) (o : AsyncOp) (handler : Nat) (payload : List Byte) :
    (s.deliverMessage o handler payload).memInv ↔ s.memInv := by
  fun_cases State.deliverMessage <;> simp
@[simp] theorem State.keeperAbort_canonical (h : s.memInv) (kind : Nat) : Canonical (s.keeperAbort kind) := by
  fun_cases State.keeperAbort <;> simp [h]
@[simp] theorem State.breached_memInv (s : State) (vi : Nat) (f : LineFault) : (s.breached vi f).memInv ↔ s.memInv := by
  simp [State.breached]
@[simp] theorem State.keeperAsk_memInv (s : State) (m : KeeperMsg) (write : Bool) (key : Nat) :
    (s.keeperAsk m write key).memInv ↔ s.memInv := by
  fun_cases State.keeperAsk <;> simp
@[simp] theorem State.keeperAskAll_memInv (s : State) (m : KeeperMsg) (ps : List Place) :
    (s.keeperAskAll m ps).memInv ↔ s.memInv :=
  foldl_memInv (fun s p => by cases p <;> simp) s ps
@[simp] theorem State.beginHandler_canonical (h : s.memInv) (m : KeeperMsg) (lines : List Nat) :
    Canonical (s.beginHandler m lines) := by
  fun_cases State.beginHandler
  case case6 =>
    rw [canonical_next]
    split <;> simp [h]
  all_goals simp +zetaDelta [h]
@[simp] theorem State.runMessage_canonical (h : s.memInv) (m : KeeperMsg) (lines : List Nat) :
    Canonical (s.runMessage m lines) := by
  fun_cases State.runMessage
  · next ht => simp [memInv_of_next ht (State.beginHandler_canonical h m lines)]
  · exact State.beginHandler_canonical h m lines
@[simp] theorem execKeeperMessage_canonical (h : s.memInv) (slice : Nat) : Canonical (execKeeperMessage slice s) := by
  fun_cases execKeeperMessage <;> simp +zetaDelta [h]
@[simp] theorem State.replyTo_memInv (s : State) (slice : Nat) (r : KeeperHeld) : (s.replyTo slice r).memInv ↔ s.memInv := by
  fun_cases State.replyTo <;> simp
@[simp] theorem State.keeperWrites_memInv (h : s.memInv) (ws : List (Nat × Word)) : (s.keeperWrites ws).memInv :=
  memInv_foldl (fun _ _ h => by simp [State.setBytes_memInv, h]) h ws
@[simp] theorem execKeeperRelease_canonical (h : s.memInv) (slice : Nat) : Canonical (execKeeperRelease slice s) := by
  fun_cases execKeeperRelease <;> simp [h]
@[simp] theorem execKeeperStrike_canonical (h : s.memInv) (slice : Nat) : Canonical (execKeeperStrike slice s) := by
  fun_cases execKeeperStrike <;> simp +zetaDelta [h]
@[simp] theorem State.handler_canonical (h : s.memInv) {k : KeeperRun → Out} (hk : ∀ r, Canonical (k r)) :
    Canonical (s.handler k) := by
  fun_cases State.handler <;> simp [h, hk]
@[simp] theorem State.keeperNext_canonical (h : s.memInv) (r : KeeperRun) : Canonical (s.keeperNext r) := by
  simp [State.keeperNext, h]
@[simp] theorem execKsel_canonical (h : s.memInv) (b a d : BitVec 5) : Canonical (execKsel b a d s) := by
  refine State.handler_canonical h fun _ => ?_
  dsimp only
  split
  · simp [h]
  · simp [h]
  · rw [canonical_next]
    split <;> simp [h]
@[simp] theorem State.keeperReads_memInv (s : State) (r : KeeperRun) (key : Nat) : (s.keeperReads r key).memInv ↔ s.memInv := by
  fun_cases State.keeperReads <;> simp +zetaDelta
@[simp] theorem State.keeperWrite_canonical (h : s.memInv) (r : KeeperRun) (key : Nat) (x : Word) {k : KeeperRun → State → Out}
    (hk : ∀ r s, s.memInv → Canonical (k r s)) : Canonical (s.keeperWrite r key x k) := by
  fun_cases State.keeperWrite <;> simp [h, hk]
@[simp] theorem execKlw_canonical (h : s.memInv) (b a d : BitVec 5) : Canonical (execKlw b a d s) := by
  refine State.handler_canonical h fun _ => ?_
  (repeat' split) <;> simp [h]
@[simp] theorem execKsw_canonical (h : s.memInv) (b a d : BitVec 5) : Canonical (execKsw b a d s) := by
  refine State.handler_canonical h fun _ => ?_
  split
  · simp [h]
  · exact State.keeperWrite_canonical h _ _ _ fun _ _ h => by simp [h]
@[simp] theorem execKfadd_canonical (h : s.memInv) (b a d : BitVec 5) : Canonical (execKfadd b a d s) := by
  refine State.handler_canonical h fun _ => ?_
  split
  · simp [h]
  · exact State.keeperWrite_canonical h _ _ _ fun _ _ h => by simp [h]
@[simp] theorem execKend_canonical (h : s.memInv) (b a d : BitVec 5) : Canonical (execKend b a d s) := by simp [execKend, h]
@[simp] theorem execKeeperBaseInstruction_canonical (h : s.memInv) (w : Word) : Canonical (execKeeperBaseInstruction w s) := by
  refine State.handler_canonical h fun _ => ?_
  (repeat' split) <;> simp [h]
@[simp] theorem execAmsgReply_canonical (h : s.memInv) (id : Nat) : Canonical (execAmsgReply id s) := by
  unfold execAmsgReply
  (repeat' split) <;> simp [h]
  split <;> simp [h]

/-! ## Functions of `Machine/Retire` -/

@[simp] theorem State.clearTeam_memInv (s : State) (grid team : Nat) : (s.clearTeam grid team).memInv ↔ s.memInv := by
  simp [State.clearTeam]
@[simp] theorem execTeamComplete_canonical (h : s.memInv) (grid team : Nat) : Canonical (execTeamComplete grid team s) := by
  fun_cases execTeamComplete <;> simp [h]
@[simp] theorem execGridRetire_canonical (h : s.memInv) (grid : Nat) : Canonical (execGridRetire grid s) := by
  fun_cases execGridRetire
  case case4 ht _ => simp +zetaDelta [State.complete_memInv h ht]
  all_goals simp [h]

/-! ## Functions of `Machine/Recovery` -/

@[simp] theorem State.releaseWrites_memInv (h : s.memInv) (core : Nat) (hs : List Held) : (s.releaseWrites core hs).memInv := by
  fun_cases State.releaseWrites <;> simp +zetaDelta [State.setBytes_memInv, h]
@[simp] theorem State.sendAtomic_memInv (s : State) (core : Nat) (item : Held) (k : Nat) (a : AtomicOp) :
    (s.sendAtomic core item k a).memInv ↔ s.memInv := by
  fun_cases State.sendAtomic <;> simp +zetaDelta
@[simp] theorem State.releaseAtomic_memInv (h : s.memInv) (core : Nat) (item : Held) (p : Place) (a : AtomicOp) (ll : Nat)
    (dst : List RegWrite) :
    (s.releaseAtomic core item p a ll dst).memInv := by
  simp [State.releaseAtomic, h]
@[simp] theorem State.releaseLaunch_memInv (h : s.memInv) (vi q n : Nat) (addr : DWord) (bs : List Byte) :
    (s.releaseLaunch vi q n addr bs).memInv := by
  fun_cases State.releaseLaunch <;> simp +zetaDelta [h]
@[simp] theorem State.beginOp_memInv (s : State) (id : Nat) : (s.beginOp id).memInv ↔ s.memInv := by
  fun_cases State.beginOp <;> simp
@[simp] theorem State.releaseItem_memInv (h : s.memInv) (core : Nat) (item : Held) : (s.releaseItem core item).memInv := by
  fun_cases State.releaseItem <;> simp [h]
@[simp] theorem State.releaseNext_memInv (h : s.memInv) (core : Nat) (c : Core) (x : Held) : (s.releaseNext core c x).memInv := by
  fun_cases State.releaseNext
  case case3 => exact memInv_foldl (fun _ _ h => by simp [h]) (by simp [h]) _
  all_goals simp [h]
theorem State.askHeld_memInv {core : Nat} {c : Core} {t : State} (e : s.askHeld core c = some t) : t.memInv ↔ s.memInv := by
  revert e
  fun_cases State.askHeld s core c <;> rintro ⟨⟩
  simp
@[simp] theorem execQuarantineRelease_canonical (h : s.memInv) (core : Nat) : Canonical (execQuarantineRelease core s) := by
  fun_cases execQuarantineRelease
  case case3 ht => simp [State.askHeld_memInv ht, h]
  all_goals simp [h]
@[simp] theorem execEntryConfirm_canonical (h : s.memInv) (r : WaveRef) : Canonical (execEntryConfirm r s) := by
  fun_cases execEntryConfirm <;> simp [h]
@[simp] theorem execStrike_canonical (h : s.memInv) (core : Nat) : Canonical (execStrike core s) := by simp [execStrike, h]
@[simp] theorem State.discard_memInv (s : State) (core : Nat) (item : Held) : (s.discard core item).memInv ↔ s.memInv := by
  fun_cases State.discard <;> simp +zetaDelta
@[simp] theorem State.report_memInv (s : State) (core : Nat) : (s.report core).memInv ↔ s.memInv := by
  simp [State.report, -List.foldl_reverse]
@[simp] theorem execStrikeReport_canonical (h : s.memInv) (core : Nat) : Canonical (execStrikeReport core s) := by
  simp [execStrikeReport, h]
@[simp] theorem execUncorrectableError_canonical (h : s.memInv) (p : PoisonPlace) : Canonical (execUncorrectableError p s) := by
  unfold execUncorrectableError
  (repeat' split) <;> simp [h]
@[simp] theorem State.killReach_memInv (s : State) (g : Grid) (x : Reach) : (s.killReach g x).memInv ↔ s.memInv := by
  simp [State.killReach]
@[simp] theorem State.failGrid_memInv (s : State) (g : Grid) : (s.failGrid g).memInv ↔ s.memInv := by simp [State.failGrid]
@[simp] theorem execPoisonConsumed_canonical (h : s.memInv) (grid n : Nat) : Canonical (execPoisonConsumed grid n s) := by
  fun_cases execPoisonConsumed <;> simp +zetaDelta [h]

/-! ## Functions of `Machine/Halting` -/

@[simp] theorem State.settleStops_memInv (s : State) : s.settleStops.memInv ↔ s.memInv := by simp [State.settleStops]
@[simp] theorem execDebugHalt_canonical (h : s.memInv) (core : Nat) : Canonical (execDebugHalt core s) := by
  simp [execDebugHalt, h]
@[simp] theorem execDebugRelease_canonical (h : s.memInv) (core : Nat) : Canonical (execDebugRelease core s) := by
  simp [execDebugRelease, h]
@[simp] theorem State.rewriteHalted_canonical (h : s.memInv) (x : WaveRef) (r : WaveRewrite) :
    Canonical (s.rewriteHalted x r) := by
  fun_cases State.rewriteHalted <;> simp [h]
@[simp] theorem execStoppedWaveRestart_canonical (h : s.memInv) (x : WaveRef) (r : Option WaveRewrite) :
    Canonical (execStoppedWaveRestart x r s) := by
  fun_cases execStoppedWaveRestart <;> simp [h]
@[simp] theorem State.dropTranslations_memInv (s : State) (vi : Nat) (x : DWord) :
    (s.dropTranslations vi x).memInv ↔ s.memInv := by
  simp [State.dropTranslations]
@[simp] theorem execTlbinvComplete_canonical (h : s.memInv) (r : WaveRef) : Canonical (execTlbinvComplete r s) := by
  refine State.onWave_canonical h _ fun _ h => ?_
  (repeat' split) <;> simp [h]

/-! ## Functions of `Machine/Hint` -/

@[simp] theorem State.hint_canonical (h : s.memInv) (op6 pl : Nat) : Canonical (s.hint op6 pl) := by simp [State.hint, h]
@[simp] theorem hint_rows_canonical (h : s.memInv) :
    (∀ c x y z, Canonical (execHsrc c x y z s)) ∧ (∀ b m, Canonical (execHlive b m s)) ∧
    (∀ a b c d e, Canonical (execHsch a b c d e s)) ∧ (∀ p, Canonical (execHimm p s)) := by
  and_intros <;> intros <;> exact State.hint_canonical h ..
@[simp] theorem execHmod_canonical (h : s.memInv) (a : BitVec 1) (b : BitVec 2) (c d e : BitVec 1) (f : BitVec 2) (g : BitVec 1)
    (k : BitVec 5) (i : BitVec 1) (j : BitVec 2) :
    Canonical (execHmod a b c d e f g k i j s) := by
  simp [execHmod, h]

/-! ## Functions of `Machine/Preempt` -/

@[simp] theorem State.stopOp_memInv (s : State) (core : Nat) (o : MatrixOp) : (s.stopOp core o).memInv ↔ s.memInv := by
  simp [State.stopOp]
@[simp] theorem State.saveContext_memInv (s : State) (v : Vi) (p : Preemption) : (s.saveContext v p).memInv ↔ s.memInv := by
  simp [State.saveContext]
@[simp] theorem State.collect_memInv (s : State) (v : Vi) (p : Preemption) : (s.collect v p).memInv ↔ s.memInv := by
  simp [State.collect]
@[simp] theorem execPreemptRequest_canonical (h : s.memInv) (vi : Nat) : Canonical (execPreemptRequest vi s) := by
  fun_cases execPreemptRequest <;> simp [h]
@[simp] theorem execPgraceExpiry_canonical (h : s.memInv) (vi : Nat) : Canonical (execPgraceExpiry vi s) := by
  fun_cases execPgraceExpiry <;> simp [h]
@[simp] theorem execEngineStopped_canonical (h : s.memInv) (vi : Nat) (e : Engine) : Canonical (execEngineStopped vi e s) := by
  fun_cases execEngineStopped <;> simp [h]
theorem State.replace_memInv {ctx : SavedContext} {gid : Nat} {x : Reach} {t : State} {ms : List Move}
    (e : s.replace ctx gid x = some (t, ms)) : t.memInv ↔ s.memInv := by
  revert e
  fun_cases State.replace s ctx gid x <;> intro e
  case case4 u =>
    obtain ⟨rfl, -⟩ := Prod.mk.inj (Option.some.inj e)
    simp only [u]
    split <;> simp +zetaDelta
  all_goals cases e
theorem State.replaceAll_memInv {ctx : SavedContext} {xs : List (Nat × Reach)} {t : State} {ms : List Move}
    (e : s.replaceAll ctx xs = some (t, ms)) : t.memInv ↔ s.memInv := by
  induction xs generalizing s t ms with
  | nil =>
    obtain ⟨rfl, -⟩ := Prod.mk.inj (Option.some.inj e)
    rfl
  | cons x xs ih =>
    unfold State.replaceAll at e
    split at e
    · cases e
    · next hu =>
      split at e
      · cases e
      · next hv =>
        obtain ⟨rfl, -⟩ := Prod.mk.inj (Option.some.inj e)
        exact (ih hv).trans (State.replace_memInv hu)
@[simp] theorem State.restoreWave_memInv (s : State) (all : List Move) (w : Wave) : (s.restoreWave all w).memInv ↔ s.memInv := by
  fun_cases State.restoreWave <;> simp
@[simp] theorem State.restore_memInv (s : State) (ctx : SavedContext) (all : List Move) :
    (s.restore ctx all).memInv ↔ s.memInv := by
  simp [State.restore]
@[simp] theorem execPreemptResume_canonical (h : s.memInv) (vi : Nat) : Canonical (execPreemptResume vi s) := by
  fun_cases execPreemptResume
  case case4 ht _ => simp [State.replaceAll_memInv ht, h]
  all_goals simp [h]

/-! ## Functions of `Machine/HostLink` -/

@[simp] theorem State.hostAsk_memInv (s : State) (write : Bool) (k : Nat) : (s.hostAsk write k).memInv ↔ s.memInv := by
  simp [State.hostAsk]
@[simp] theorem State.pageRegister_memInv (s : State) (vi off : Nat) (o : Origin) :
    (s.pageRegister vi off o).1.memInv ↔ s.memInv := by
  fun_cases State.pageRegister <;> simp
@[simp] theorem State.pageRead_memInv (s : State) (vi : Nat) (o : Origin) (offs : List Nat) :
    (s.pageRead vi o offs).1.memInv ↔ s.memInv := by
  fun_induction State.pageRead s vi o offs <;> simp_all +zetaDelta
@[simp] theorem State.pageWrite_memInv (h : s.memInv) (vi off : Nat) (bytes : List Byte) (o : Origin) (ks : List Nat) :
    (s.pageWrite vi off bytes o ks).memInv := by
  induction ks generalizing s with
  | nil => exact h
  | cons k ks ih =>
    unfold State.pageWrite
    apply ih
    split
    · exact h
    · split
      · next ht =>
        refine memInv_of_next ht ?_
        split <;> simp [h]
      · exact h
@[simp] theorem State.faultPageWrite_memInv (h : s.memInv) (vi off : Nat) (bytes : List Byte) :
    (s.faultPageWrite vi off bytes).memInv := by
  fun_cases State.faultPageWrite
  · exact h
  · next ht => exact memInv_of_next ht (State.answerFault_canonical h _ _ _)
  · exact h
@[simp] theorem State.endpointRegister_memInv (h : s.memInv) (ep off : Nat) : (s.endpointRegister ep off).1.memInv := by
  fun_cases State.endpointRegister
  case case4 ht => exact memInv_of_next ht (execCppoll_canonical h ep)
  all_goals simp [h]
@[simp] theorem State.endpointRead_memInv (h : s.memInv) (ep : Nat) (offs : List Nat) : (s.endpointRead ep offs).1.memInv := by
  fun_induction State.endpointRead s ep offs <;> simp_all +zetaDelta
@[simp] theorem State.endpointStore_canonical (h : s.memInv) (ep off : Nat) (x : DWord) :
    Canonical (s.endpointStore ep off x) := by
  simp [State.endpointStore, h]
@[simp] theorem State.endpointWrite_memInv (h : s.memInv) (ep off : Nat) (bytes : List Byte) (ks : List Nat) :
    (s.endpointWrite ep off bytes ks).memInv := by
  induction ks generalizing s with
  | nil => exact h
  | cons k ks ih =>
    unfold State.endpointWrite
    apply ih
    split
    · exact h
    · split
      · next ht => exact memInv_of_next ht (State.endpointStore_canonical h _ _ _)
      · exact h
@[simp] theorem State.answerTo_memInv (s : State) (o : Origin) (a : HostAnswer) : (s.answerTo o a).memInv ↔ s.memInv := by
  fun_cases State.answerTo <;> simp
@[simp] theorem State.hostPerform_memInv (h : s.memInv) (r : HostRequest) (ks : List Nat) : (s.hostPerform r ks).memInv := by
  fun_cases State.hostPerform <;> simp [State.setBytes_memInv, h]
theorem State.hostNow_memInv (h : s.memInv) {r : HostRequest} {t : State} (e : s.hostNow r = some t) : t.memInv := by
  revert e
  fun_cases State.hostNow s r <;> rintro ⟨⟩ <;> simp +zetaDelta [h]
@[simp] theorem State.hostWants_memInv (s : State) (r : HostRequest) : (s.hostWants r).memInv ↔ s.memInv := by
  fun_cases State.hostWants <;> simp
@[simp] theorem State.hostArrives_memInv (h : s.memInv) (r : HostRequest) : (s.hostArrives r).memInv := by
  fun_cases State.hostArrives
  case case2 ht => exact State.hostNow_memInv h ht
  all_goals simp +zetaDelta [h]
@[simp] theorem State.retryHeld_canonical (h : s.memInv) (n : Nat) : Canonical (s.retryHeld n) := by
  fun_cases State.retryHeld
  case case3 ht => exact State.hostNow_memInv ‹_› ht
  all_goals simp [h]
@[simp] theorem execHostPostedWrite_canonical (h : s.memInv) (t : HostTarget) (bytes : List Byte) :
    Canonical (execHostPostedWrite t bytes s) := by
  simp [execHostPostedWrite, h]
@[simp] theorem execHostRead_canonical (h : s.memInv) (t : HostTarget) (len : Nat) : Canonical (execHostRead t len s) := by
  simp [execHostRead, h]
@[simp] theorem State.controlAccess_canonical (h : s.memInv) (r : HostRequest) : Canonical (s.controlAccess r) := by
  simp [State.controlAccess, h]

/-! ## Functions of `Machine/Moves` -/

@[simp] theorem execSrd_canonical (h : s.memInv) (d sel : BitVec 7) : Canonical (execSrd d sel s) := by simp [execSrd, h]
@[simp] theorem execFpcrd_canonical (h : s.memInv) (d : BitVec 7) : Canonical (execFpcrd d s) := by simp [execFpcrd, h]
@[simp] theorem execFpcwr_canonical (h : s.memInv) (a : BitVec 7) : Canonical (execFpcwr a s) := by simp [execFpcwr, h]
@[simp] theorem execVmov_canonical (h : s.memInv) (d a : BitVec 7) : Canonical (execVmov d a s) := by simp [execVmov, h]
@[simp] theorem execVmovs_canonical (h : s.memInv) (d a : BitVec 7) : Canonical (execVmovs d a s) := by simp [execVmovs, h]
@[simp] theorem execSmovv_canonical (h : s.memInv) (d a b : BitVec 7) : Canonical (execSmovv d a b s) := by simp [execSmovv, h]
@[simp] theorem execVins_canonical (h : s.memInv) (d a b : BitVec 7) : Canonical (execVins d a b s) := by simp [execVins, h]
@[simp] theorem execP2s_canonical (h : s.memInv) (d a : BitVec 7) : Canonical (execP2s d a s) := by simp [execP2s, h]
@[simp] theorem execS2p_canonical (h : s.memInv) (d a : BitVec 7) : Canonical (execS2p d a s) := by simp [execS2p, h]

/-! ## Functions of `Machine/Ports` -/

@[simp] theorem State.onPort_canonical (h : s.memInv) (n : Nat) {k : Port → Out} (hk : ∀ x, Canonical (k x)) :
    Canonical (s.onPort n k) := by
  fun_cases State.onPort <;> simp [h, hk]
@[simp] theorem State.beginTraining_memInv (s : State) (x : Port) (tries : Nat) :
    (s.beginTraining x tries).memInv ↔ s.memInv := by
  simp [State.beginTraining]
@[simp] theorem execPortTraining_canonical (h : s.memInv) (n : Nat) : Canonical (execPortTraining n s) := by
  simp [execPortTraining, h]
@[simp] theorem execCapabilityRecordSend_canonical (h : s.memInv) (n : Nat) : Canonical (execCapabilityRecordSend n s) := by
  simp [execCapabilityRecordSend, h]
@[simp] theorem State.attemptFailed_memInv (s : State) (x : Port) : (s.attemptFailed x).memInv ↔ s.memInv := by
  simp [State.attemptFailed]
@[simp] theorem State.sendSpdm_memInv (s : State) (port n : Nat) : (s.sendSpdm port n).memInv ↔ s.memInv := by
  fun_cases State.sendSpdm <;> simp
@[simp] theorem State.startSpdm_memInv (s : State) (x : Port) : (s.startSpdm x).memInv ↔ s.memInv := by simp [State.startSpdm]
@[simp] theorem execCapabilityRecord_canonical (h : s.memInv) (n : Nat) (r : CapRecord) :
    Canonical (execCapabilityRecord n r s) := by
  simp [execCapabilityRecord, h]
@[simp] theorem execLossOfTraining_canonical (h : s.memInv) (n : Nat) : Canonical (execLossOfTraining n s) := by
  refine State.onPort_canonical h _ fun _ => ?_
  (repeat' split) <;> simp [h]
@[simp] theorem execLinkReplay_canonical (h : s.memInv) (n : Nat) : Canonical (execLinkReplay n s) := by simp [execLinkReplay, h]
@[simp] theorem execPortRetrain_canonical (h : s.memInv) (n : Nat) : Canonical (execPortRetrain n s) := by
  simp [execPortRetrain, h]
@[simp] theorem State.spdmNext_memInv (s : State) (n : Nat) (x : Port) : (s.spdmNext n x).memInv ↔ s.memInv := by
  simp [State.spdmNext]
@[simp] theorem State.spdmFinish_memInv (s : State) (n : Nat) (x : Port) : (s.spdmFinish n x).memInv ↔ s.memInv := by
  fun_cases State.spdmFinish <;> simp +zetaDelta
@[simp] theorem State.spdmStep_memInv (s : State) (n : Nat) (x : Port) (m : SpdmStep) : (s.spdmStep n x m).memInv ↔ s.memInv := by
  fun_cases State.spdmStep <;> simp
@[simp] theorem execSpdmMessage_canonical (h : s.memInv) (n : Nat) (p : FabPacket) : Canonical (execSpdmMessage n p s) := by
  refine State.receive_canonical h _ _ fun _ h => ?_
  (repeat' split) <;> simp [h]
@[simp] theorem execMeasurementAccept_canonical (h : s.memInv) (n : Nat) (ok : Bool) :
    Canonical (execMeasurementAccept n ok s) := by
  simp [execMeasurementAccept, h]
@[simp] theorem execPortRunCommand_canonical (h : s.memInv) (n : Nat) : Canonical (execPortRunCommand n s) := by
  simp [execPortRunCommand, h]
@[simp] theorem execKeyUpdate_canonical (h : s.memInv) (n : Nat) : Canonical (execKeyUpdate n s) := by simp [execKeyUpdate, h]
@[simp] theorem execLinkStateSend_canonical (h : s.memInv) : Canonical (execLinkStateSend s) := by simp [execLinkStateSend, h]
@[simp] theorem State.linkReported_memInv (s : State) (x : Port) (l : LinkReport) : (s.linkReported x l).memInv ↔ s.memInv := by
  simp [State.linkReported]
@[simp] theorem execLinkState_canonical (h : s.memInv) (n : Nat) (p : FabPacket) : Canonical (execLinkState n p s) := by
  refine State.receive_canonical h _ _ fun _ h => ?_
  (repeat' split) <;> simp [h]
@[simp] theorem State.each_memInv {α : Type} (h : s.memInv) (xs : List α) {f : State → α → State}
    (hf : ∀ s x, s.memInv → (f s x).memInv) : (s.each xs f).memInv :=
  memInv_foldl hf h xs
@[simp] theorem State.failLost_memInv (h : s.memInv) (pkg : Nat) : (s.failLost pkg).memInv := by
  refine State.each_memInv (State.each_memInv h _ fun _ r h => ?_) _ fun _ o h => ?_
  · split <;> simp [h]
  · split <;> simp [h]
@[simp] theorem State.resendControl_memInv (s : State) (r : Request) : (s.resendControl r).memInv ↔ s.memInv := by
  fun_cases State.resendControl <;> simp
@[simp] theorem State.restoreEntry_memInv (h : s.memInv) (pkg : Nat) (e : DirEntry) : (s.restoreEntry pkg e).memInv := by
  simp [State.restoreEntry, h]
@[simp] theorem State.restoreTxn_memInv (h : s.memInv) (pkg : Nat) (mirrorLost : Bool) (t : HomeTxn) :
    (s.restoreTxn pkg mirrorLost t).memInv := by
  fun_cases State.restoreTxn <;> simp [h]
@[simp] theorem State.adopt_memInv (h : s.memInv) (pkg : Nat) (e : DirEntry) : (s.adopt pkg e).memInv := by simp [State.adopt, h]
@[simp] theorem State.tellLoss_memInv (h : s.memInv) (pkg : Nat) (v : Vi) : (s.tellLoss pkg v).memInv := by
  fun_cases State.tellLoss <;> simp [State.tableWrite_memInv, h]
@[simp] theorem State.tellUntold_memInv (h : s.memInv) : s.tellUntold.memInv := by
  refine memInv_foldl (fun _ x h => ?_) ?_ _
  · split <;> simp [h]
  · exact h
@[simp] theorem State.declareLost_memInv (h : s.memInv) (pkg : Nat) : (s.declareLost pkg).memInv := by
  unfold State.declareLost
  split
  · exact h
  · refine State.each_memInv ?_ _ fun _ v h => State.tellLoss_memInv h _ v
    refine State.each_memInv ?_ _ fun _ r h => (State.resendControl_memInv _ r).2 h
    refine State.each_memInv ?_ _ fun _ e h => State.adopt_memInv h _ e
    refine State.each_memInv ?_ _ fun _ e h => State.restoreEntry_memInv h _ e
    refine State.each_memInv ?_ _ fun _ t h => State.restoreTxn_memInv h _ _ t
    refine State.failLost_memInv ?_ _
    exact h
@[simp] theorem State.mapRecall_memInv (s : State) (pkg : Nat) (f : Recall → Recall) :
    (s.mapRecall pkg f).memInv ↔ s.memInv := by
  simp [State.mapRecall]
@[simp] theorem State.answerRecall_memInv (s : State) (pkg : Nat) : (s.answerRecall pkg).memInv ↔ s.memInv := by
  simp [State.answerRecall]
@[simp] theorem execPeerLost_canonical (h : s.memInv) (pkg : Nat) : Canonical (execPeerLost pkg s) := by
  fun_cases execPeerLost <;> simp +zetaDelta [h]
@[simp] theorem execSharerRecall_canonical (h : s.memInv) (pkg : Nat) (p : FabPacket) : Canonical (execSharerRecall pkg p s) := by
  refine State.receive_canonical h _ _ fun _ h => ?_
  (repeat' split) <;> simp [h]
@[simp] theorem execAdoptionServe_canonical (h : s.memInv) (pkg : Nat) : Canonical (execAdoptionServe pkg s) := by
  fun_cases execAdoptionServe <;> simp [h]

/-! ## Functions of `Machine/ScalarInt` -/

@[simp] theorem State.scalar2_canonical (h : s.memInv) (d a b : BitVec 7) (sat : Bool) (g : Hints → DWord → DWord → DWord) :
    Canonical (s.scalar2 d a b sat g) := by
  simp [State.scalar2, h]
@[simp] theorem scalar2_rows_canonical (h : s.memInv) (d a b : BitVec 7) :
    Canonical (execSadd d a b s) ∧ Canonical (execSsub d a b s) ∧ Canonical (execSmul d a b s) ∧ Canonical (execSmulh d a b s) ∧
    Canonical (execSmulhu d a b s) ∧ Canonical (execSand d a b s) ∧ Canonical (execSor d a b s) ∧ Canonical (execSxor d a b s) ∧
    Canonical (execSshl d a b s) ∧ Canonical (execSshr d a b s) ∧ Canonical (execSsra d a b s) ∧ Canonical (execSmin d a b s) ∧
    Canonical (execSmax d a b s) ∧ Canonical (execSminu d a b s) ∧ Canonical (execSmaxu d a b s) ∧ Canonical (execScmpEq d a b s) ∧
    Canonical (execScmpNe d a b s) ∧ Canonical (execScmpLt d a b s) ∧ Canonical (execScmpLe d a b s) ∧ Canonical (execScmpLtu d a b s) ∧
    Canonical (execScmpLeu d a b s) ∧ Canonical (execSbfx d a b s) ∧ Canonical (execSbfxu d a b s) := by
  and_intros <;> exact State.scalar2_canonical h ..
@[simp] theorem State.scalar1_canonical (h : s.memInv) (d a : BitVec 7) (g : DWord → DWord) : Canonical (s.scalar1 d a g) := by
  simp [State.scalar1, h]
@[simp] theorem scalar1_rows_canonical (h : s.memInv) :
    (∀ d a, Canonical (execSmov d a s)) ∧ (∀ d a, Canonical (execSclz d a s)) ∧ (∀ d a, Canonical (execSctz d a s)) ∧
    (∀ d a, Canonical (execSpopc d a s)) ∧ (∀ d a i, Canonical (execSshli d a i s)) ∧ (∀ d a i, Canonical (execSshri d a i s)) ∧
    (∀ d a i, Canonical (execSsrai d a i s)) := by
  and_intros <;> intros <;> exact State.scalar1_canonical h ..
@[simp] theorem State.scalarImm_canonical (h : s.memInv) (d a : BitVec 7) (i : BitVec 9) (g : DWord → DWord → DWord) :
    Canonical (s.scalarImm d a i g) := by
  simp [State.scalarImm, h]
@[simp] theorem scalarImm_rows_canonical (h : s.memInv) (d a : BitVec 7) (i : BitVec 9) :
    Canonical (execSaddi d a i s) ∧ Canonical (execSandi d a i s) ∧ Canonical (execSori d a i s) ∧ Canonical (execSxori d a i s) := by
  and_intros <;> exact State.scalarImm_canonical h ..
@[simp] theorem execSmovi_canonical (h : s.memInv) (d i : BitVec 7) (j2 : BitVec 9) : Canonical (execSmovi d i j2 s) := by
  simp [execSmovi, h]
@[simp] theorem execSsel_canonical (h : s.memInv) (d a b : BitVec 7) : Canonical (execSsel d a b s) := by simp [execSsel, h]
@[simp] theorem execSbfi_canonical (h : s.memInv) (d a b : BitVec 7) : Canonical (execSbfi d a b s) := by simp [execSbfi, h]

/-! ## Functions of `Machine/VectorInt` -/

@[simp] theorem State.vec2_canonical (h : s.memInv) (d a b : BitVec 7) (sat : Bool) (g : Hints → Word → Word → Word) :
    Canonical (s.vec2 d a b sat g) := by
  simp [State.vec2, h]
@[simp] theorem vec2_rows_canonical (h : s.memInv) (d a b : BitVec 7) :
    Canonical (execVaddI32 d a b s) ∧ Canonical (execVaddN32 d a b s) ∧ Canonical (execVsubI32 d a b s) ∧
    Canonical (execVsubN32 d a b s) ∧ Canonical (execVmulI32 d a b s) ∧ Canonical (execVmulhI32 d a b s) ∧
    Canonical (execVmulhN32 d a b s) ∧ Canonical (execVandB32 d a b s) ∧ Canonical (execVorB32 d a b s) ∧
    Canonical (execVxorB32 d a b s) ∧ Canonical (execVshlB32 d a b s) ∧ Canonical (execVshrN32 d a b s) ∧
    Canonical (execVshrI32 d a b s) ∧ Canonical (execVminI32 d a b s) ∧ Canonical (execVminN32 d a b s) ∧
    Canonical (execVmaxI32 d a b s) ∧ Canonical (execVmaxN32 d a b s) := by
  and_intros <;> exact State.vec2_canonical h ..
@[simp] theorem State.vec1_canonical (h : s.memInv) (d a : BitVec 7) (g : Word → Word) : Canonical (s.vec1 d a g) := by
  simp [State.vec1, h]
@[simp] theorem vec1_rows_canonical (h : s.memInv) :
    (∀ d a, Canonical (execVclzB32 d a s)) ∧ (∀ d a, Canonical (execVpopcB32 d a s)) ∧ (∀ d a, Canonical (execVabsI32 d a s)) ∧
    (∀ d a i, Canonical (execVshli d a i s)) ∧ (∀ d a i, Canonical (execVshri d a i s)) ∧ (∀ d a i, Canonical (execVsrai d a i s)) := by
  and_intros <;> intros <;> exact State.vec1_canonical h ..
@[simp] theorem State.vec3_canonical (h : s.memInv) (d a b : BitVec 7) (g : Word → Word → Word → Word) :
    Canonical (s.vec3 d a b g) := by
  simp [State.vec3, h]
@[simp] theorem vec3_rows_canonical (h : s.memInv) (d a b : BitVec 7) :
    Canonical (execVdot4I32 d a b s) ∧ Canonical (execVdot4N32 d a b s) := by
  and_intros <;> exact State.vec3_canonical h ..
@[simp] theorem State.vecImm_canonical (h : s.memInv) (d a : BitVec 7) (i : BitVec 9) (g : Word → Word → Word) :
    Canonical (s.vecImm d a i g) := by
  simp [State.vecImm, h]
@[simp] theorem vecImm_rows_canonical (h : s.memInv) (d a : BitVec 7) (i : BitVec 9) :
    Canonical (execVaddi d a i s) ∧ Canonical (execVandi d a i s) ∧ Canonical (execVori d a i s) ∧ Canonical (execVxori d a i s) := by
  and_intros <;> exact State.vecImm_canonical h ..
@[simp] theorem State.vec2p_canonical (h : s.memInv) (d a b : BitVec 7) (sat : Bool) (g : Hints → DWord → DWord → DWord) :
    Canonical (s.vec2p d a b sat g) := by
  simp [State.vec2p, h]
@[simp] theorem vec2p_rows_canonical (h : s.memInv) (d a b : BitVec 7) :
    Canonical (execVaddI64 d a b s) ∧ Canonical (execVaddN64 d a b s) ∧ Canonical (execVsubI64 d a b s) ∧
    Canonical (execVsubN64 d a b s) ∧ Canonical (execVmulI64 d a b s) ∧ Canonical (execVandN64 d a b s) ∧
    Canonical (execVorN64 d a b s) ∧ Canonical (execVxorN64 d a b s) ∧ Canonical (execVshlN64 d a b s) ∧
    Canonical (execVshrN64 d a b s) ∧ Canonical (execVshrI64 d a b s) ∧ Canonical (execVminI64 d a b s) ∧
    Canonical (execVminN64 d a b s) ∧ Canonical (execVmaxI64 d a b s) ∧ Canonical (execVmaxN64 d a b s) := by
  and_intros <;> exact State.vec2p_canonical h ..
@[simp] theorem State.vecWide_canonical (h : s.memInv) (d a b : BitVec 7) (g : Word → Word → DWord) :
    Canonical (s.vecWide d a b g) := by
  simp [State.vecWide, h]
@[simp] theorem vecWide_rows_canonical (h : s.memInv) (d a b : BitVec 7) :
    Canonical (execVmulwI32 d a b s) ∧ Canonical (execVmulwN32 d a b s) := by
  and_intros <;> exact State.vecWide_canonical h ..
@[simp] theorem State.vecScalar_canonical (h : s.memInv) (d a b : BitVec 7) (sat : Bool) (g : Hints → Word → Word → Word) :
    Canonical (s.vecScalar d a b sat g) := by
  simp [State.vecScalar, h]
@[simp] theorem vecScalar_rows_canonical (h : s.memInv) (d a b : BitVec 7) :
    Canonical (execVaddsI32 d a b s) ∧ Canonical (execVsubsI32 d a b s) ∧ Canonical (execVmulsI32 d a b s) ∧
    Canonical (execVandsB32 d a b s) ∧ Canonical (execVorsB32 d a b s) ∧ Canonical (execVxorsB32 d a b s) ∧
    Canonical (execVshlsB32 d a b s) ∧ Canonical (execVshrsN32 d a b s) ∧ Canonical (execVshrsI32 d a b s) ∧
    Canonical (execVminsI32 d a b s) ∧ Canonical (execVmaxsI32 d a b s) := by
  and_intros <;> exact State.vecScalar_canonical h ..
@[simp] theorem execVmadI32_canonical (h : s.memInv) (d a b : BitVec 7) : Canonical (execVmadI32 d a b s) := by
  simp [execVmadI32, h]
@[simp] theorem execVselB32_canonical (h : s.memInv) (d a b : BitVec 7) : Canonical (execVselB32 d a b s) := by
  simp [execVselB32, h]
@[simp] theorem execVmovi_canonical (h : s.memInv) (d i : BitVec 7) (j2 : BitVec 9) : Canonical (execVmovi d i j2 s) := by
  simp [execVmovi, h]
@[simp] theorem execVaddsI64_canonical (h : s.memInv) (d a b : BitVec 7) : Canonical (execVaddsI64 d a b s) := by
  simp [execVaddsI64, h]

/-! ## Functions of `Machine/Dispatch` -/

/-- Every row of the opcode table keeps memory canonical: each by its own meaning's lemma. -/
@[simp] theorem exec_canonical (h : s.memInv) (i : Instr) : Canonical (exec i s) := by
  cases i <;> simp [h]

/-! ## Functions of `Machine/Schedule` -/

@[simp] theorem State.enterDue_memInv (s : State) : s.enterDue.memInv ↔ s.memInv := by simp [State.enterDue]
@[simp] theorem State.issueWord_canonical (h : s.memInv) : Canonical s.issueWord := by
  fun_cases State.issueWord <;> simp +zetaDelta [h]
@[simp] theorem State.issueKeeper_canonical (h : s.memInv) : Canonical s.issueKeeper := by
  fun_cases State.issueKeeper <;> simp [h]
@[simp] theorem State.tick_memInv (s : State) (core uncore us : Nat) : (s.tick core uncore us).memInv ↔ s.memInv := by
  simp [State.tick]
@[simp] theorem State.cycle_memInv (s : State) : s.cycle.memInv ↔ s.memInv := by simp [State.cycle]
@[simp] theorem State.perform_canonical (h : s.memInv) (id off n : Nat) : Canonical (s.perform id off n) := by
  fun_cases State.perform <;> simp [h]
@[simp] theorem State.land_canonical (h : s.memInv) (r : WaveRef) (op n : Nat) : Canonical (s.land r op n) := by
  fun_cases State.land <;> simp [h]
@[simp] theorem State.keepPage_canonical (h : s.memInv) (u : TlbUnit) (vi : Nat) (p : Page) (present : Bool) :
    Canonical (s.keepPage u vi p present) := by
  fun_cases State.keepPage <;> simp [h]
@[simp] theorem State.onVi_canonical (h : s.memInv) (vi : Nat) (f : Vi → Vi) : Canonical (s.onVi vi f) := by
  fun_cases State.onVi <;> simp [h]
@[simp] theorem State.ackLink_canonical (h : s.memInv) (port n : Nat) : Canonical (s.ackLink port n) := by
  fun_cases State.ackLink <;> simp [h]
@[simp] theorem State.setMask_canonical (h : s.memInv) (r : WaveRef) (exm : DWord) : Canonical (s.setMask r exm) := by
  fun_cases State.setMask <;> simp [h]
@[simp] theorem State.monitorSets_canonical (h : s.memInv) (m : MonitorAct) : Canonical (s.monitorSets m) := by
  fun_cases State.monitorSets <;> simp [h]
theorem State.happen_canonical (h : s.memInv) (x : Happening) : Canonical (s.happen x) := by
  cases x with
  | op i => exact exec_canonical h i
  | focus r =>
    unfold State.happen
    dsimp only
    split
    · next ht => exact (State.focus_memInv ht).2 h
    · exact h
  | _ => simp [State.happen, h]
/-- What may happen keeps memory canonical, in whichever state it happens. -/
def KeepsMemory (f : State → Out) : Prop := ∀ s : State, s.memInv → Canonical (f s)

/-- Each of the things that may happen keeps memory canonical. -/
def AllKeepMemory (fs : List (State → Out)) : Prop := ∀ f ∈ fs, KeepsMemory f

@[simp] theorem allKeepMemory_nil : AllKeepMemory [] := by simp [AllKeepMemory]
@[simp] theorem allKeepMemory_cons (f : State → Out) (fs : List (State → Out)) :
    AllKeepMemory (f :: fs) ↔ KeepsMemory f ∧ AllKeepMemory fs := List.forall_mem_cons
@[simp] theorem allKeepMemory_append (fs gs : List (State → Out)) :
    AllKeepMemory (fs ++ gs) ↔ AllKeepMemory fs ∧ AllKeepMemory gs := List.forall_mem_append
@[simp] theorem allKeepMemory_map {α : Type} (xs : List α) (f : α → State → Out) :
    AllKeepMemory (xs.map f) ↔ ∀ x ∈ xs, KeepsMemory (f x) := List.forall_mem_map
theorem AllKeepMemory.map {fs : List (State → Out)} (hfs : AllKeepMemory fs) {g : (State → Out) → State → Out}
    (hg : ∀ {f}, KeepsMemory f → KeepsMemory (g f)) : AllKeepMemory (fs.map g) :=
  (allKeepMemory_map ..).2 fun f hf => hg (hfs f hf)
@[simp] theorem allKeepMemory_flatMap {α : Type} (xs : List α) (f : α → List (State → Out)) :
    AllKeepMemory (xs.flatMap f) ↔ ∀ x ∈ xs, AllKeepMemory (f x) := List.forall_mem_flatMap
@[simp] theorem allKeepMemory_ite (c : Prop) [Decidable c] (fs gs : List (State → Out)) :
    AllKeepMemory (if c then fs else gs) ↔ if c then AllKeepMemory fs else AllKeepMemory gs := by split <;> rfl

theorem tryAt_canonical (r : WaveRef) {f : State → Out} (hf : KeepsMemory f) : KeepsMemory (tryAt r f) := by
  intro s h
  fun_cases tryAt r f s
  · exact h
  · next hu t ht =>
    have hc : Canonical _ := hf _ ((State.focus_memInv hu).2 h)
    simp [h, memInv_of_next ht hc]
  · next hu _ => exact hf _ ((State.focus_memInv hu).2 h)
theorem tryKeeper_canonical (slice : Nat) {f : State → Out} (hf : KeepsMemory f) : KeepsMemory (tryKeeper slice f) := by
  intro s h
  have hc : Canonical (f (s.focusKeeper slice)) := hf _ (by simp [h])
  fun_cases tryKeeper slice f s
  · next ht => simp [h, memInv_of_next ht hc]
  · exact hc
theorem Wave.offers_keepMemory (w : Wave) : AllKeepMemory w.offers := by
  unfold Wave.offers
  refine AllKeepMemory.map ?_ (tryAt_canonical _)
  cases w.arrival <;> simp +contextual [KeepsMemory]
theorem Core.offers_keepMemory (c : Core) : AllKeepMemory c.offers := by
  simp +contextual [Core.offers, KeepsMemory]
theorem AsyncOp.offers_keepMemory (o : AsyncOp) : AllKeepMemory o.offers := by
  unfold AsyncOp.offers
  cases o.kind <;> simp +contextual [KeepsMemory, -List.map_take]
theorem Vi.offers_keepMemory (v : Vi) : AllKeepMemory v.offers := by
  cases hp : v.preempt <;> simp +contextual [Vi.offers, hp, KeepsMemory]
theorem Grid.offers_keepMemory (g : Grid) : AllKeepMemory g.offers := by
  cases hm : g.map <;> simp +contextual [Grid.offers, hm, KeepsMemory]
theorem Keeper.offers_keepMemory (k : Keeper) : AllKeepMemory k.offers := by
  refine AllKeepMemory.map ?_ (tryKeeper_canonical _)
  simp +contextual [KeepsMemory]
theorem serveHeld_canonical (p : FabPacket) : KeepsMemory (serveHeld p) := by
  intro s h
  fun_cases serveHeld p s
  · exact h
  · next ht _ => exact memInv_of_next ht (exec_canonical h _)
  · exact h
  · exact exec_canonical h _
theorem Fabric.offers_keepMemory (x : Fabric) : AllKeepMemory x.offers := by
  simp only [Fabric.offers, allKeepMemory_append, allKeepMemory_map, serveHeld_canonical]
  simp +contextual [KeepsMemory]
theorem Ring.offers_keepMemory (r : Ring) : AllKeepMemory r.offers := by
  simp +contextual [Ring.offers, KeepsMemory]
theorem State.offers_keepMemory (s : State) : AllKeepMemory s.offers := by
  simp only [State.offers, allKeepMemory_append, allKeepMemory_flatMap, Grid.offers_keepMemory, Core.offers_keepMemory,
    Wave.offers_keepMemory, AsyncOp.offers_keepMemory, Keeper.offers_keepMemory, Vi.offers_keepMemory, Fabric.offers_keepMemory,
    Ring.offers_keepMemory]
  simp +contextual [KeepsMemory]
theorem State.firstOf_memInv (h : s.memInv) {fs : List (State → Out)} (hfs : AllKeepMemory fs) {t : State}
    (e : s.firstOf fs = some t) : t.memInv := by
  induction fs with
  | nil => cases e
  | cons f fs ih =>
    obtain ⟨hf, hfs⟩ := (allKeepMemory_cons ..).1 hfs
    unfold State.firstOf at e
    split at e
    · next u hu =>
      split at e
      · obtain rfl := Option.some.inj e
        exact memInv_of_next hu (hf s h)
      · exact ih hfs e
    · exact ih hfs e
theorem State.issueAll_memInv {issue : State → Out} (hi : KeepsMemory issue) (h : s.memInv) (ws : List Wave) :
    (State.issueAll issue s ws).memInv := by
  induction ws generalizing s with
  | nil => exact h
  | cons w ws ih =>
    unfold State.issueAll
    apply ih
    split
    · exact h
    · next u hu =>
      have hu : u.memInv := (State.focus_memInv hu).2 h
      split
      · split
        · next hv => exact memInv_of_next hv (hi u hu)
        · exact hu
      · exact h
theorem State.keepAll_memInv {keep : State → Out} (hk : KeepsMemory keep) (h : s.memInv) (ks : List Keeper) :
    (State.keepAll keep s ks).memInv := by
  induction ks generalizing s with
  | nil => exact h
  | cons k ks ih =>
    have hu : (s.focusKeeper k.slice).memInv := by simp [h]
    unfold State.keepAll
    apply ih
    split
    · next hv => exact memInv_of_next hv (hk _ hu)
    · exact hu
/-- The device going on by itself keeps memory canonical. -/
theorem State.goOn_memInv (h : s.memInv) {issue keep : State → Out} (hi : KeepsMemory issue) (hk : KeepsMemory keep) :
    (State.goOn issue keep s).memInv := by
  unfold State.goOn
  split
  · next ht => exact State.firstOf_memInv h s.offers_keepMemory ht
  · simp [State.keepAll_memInv hk (State.issueAll_memInv hi h _)]
@[simp] theorem State.reportStrikes_memInv (h : s.memInv) : s.reportStrikes.memInv := by
  refine memInv_foldl (fun _ c h => ?_) h _
  split
  · next ht => exact memInv_of_next ht (execStrikeReport_canonical h c.id)
  · exact h
@[simp] theorem State.settle_memInv (h : s.memInv) : s.settle.memInv := by simp [State.settle, h]
theorem settled_canonical {x : Out} (hx : Canonical x) : Canonical (settled x) := by
  cases x with
  | next s => exact State.settle_memInv hx
  | fault r => trivial
  | refused r => trivial

/-! ## Functions of `Machine/Step` -/

/-- A step keeps memory canonical: what happens in it does, and so does what every step leaves settled. -/
theorem step_canonical (h : s.memInv) : Canonical (step s) := by
  unfold step
  split
  · refine settled_canonical (State.happen_canonical ?_ _)
    exact h
  · exact settled_canonical (State.goOn_memInv h (fun _ h => State.issueWord_canonical h) fun _ h => State.issueKeeper_canonical h)

end

/-- Settles O44: a step runs what happens, or lets the device go on by itself, and then settles; each keeps the canonical form. -/
theorem memoryStaysCanonical : Obligations.MemoryStaysCanonical :=
  fun _ _ h e => memInv_of_next e (step_canonical h)

end Sys2Proof.Machine
end

/-! # The checks of an access

An access is checked for its alignment first, then byte by byte (R46, R293). A translation fault of any byte decides the cause of the
access, so an address outside its space decides it at the first byte. An access that passes reaches one place for each byte. -/

section
namespace Sys2Proof.Machine

/-- An address whose space bits name no space, or whose offset is past the end of the local, tensor or control space (R46). -/
def OutsideSpaces (a : DWord) : Prop :=
  4 ≤ a.toNat / 2 ^ 61 ∨ (a.toNat / 2 ^ 61 = 1 ∧ 2 ^ 22 ≤ a.toNat % 2 ^ 61) ∨
    (a.toNat / 2 ^ 61 = 2 ∧ 2 ^ 48 ≤ a.toNat % 2 ^ 61) ∨ (a.toNat / 2 ^ 61 = 3 ∧ 2 ^ 44 ≤ a.toNat % 2 ^ 61)

/-- The space bits are the topmost ones, so nothing is cut off above them. -/
theorem spaceOf_eq_div (a : DWord) : spaceOf a = a.toNat / 2 ^ 61 := by
  have h := a.isLt
  unfold spaceOf bitsN
  omega

/-- A byte outside the spaces is refused before any translation or right is looked at. -/
theorem State.place_of_outsideSpaces {a : DWord} (h : OutsideSpaces a) (s : State) (e : Env) (mode : Mode) (acc : Access) (l : Nat) :
    s.place e mode acc l a = .error causeTranslation := by
  unfold OutsideSpaces at h
  unfold State.place
  rw [spaceOf_eq_div]
  dsimp only
  split
  · omega
  · exact if_pos (by omega)
  · exact if_pos (by omega)
  · exact if_pos (by omega)
  · rfl

/-- A translation fault of the first byte decides the cause, whatever the other bytes give. -/
theorem firstCause_translation_cons (xs : List (Except Nat Place)) :
    firstCause (.error causeTranslation :: xs) = some causeTranslation := by
  unfold firstCause
  refine if_pos (List.contains_iff_mem.2 ?_)
  exact List.mem_filterMap.2 ⟨_, List.mem_cons_self, rfl⟩

/-- A byte that fails gives the access a cause. -/
theorem firstCause_ne_none {xs : List (Except Nat Place)} {c : Nat} (h : .error c ∈ xs) : firstCause xs ≠ none := by
  unfold firstCause
  dsimp only
  split
  · exact Option.some_ne_none _
  · rw [ne_eq, List.head?_eq_none_iff]
    exact List.ne_nil_of_mem (List.mem_filterMap.2 ⟨_, h, rfl⟩)

/-- Checks among which none fails are those of a list of places. -/
theorem exists_map_ok {xs : List (Except Nat Place)} (h : ∀ c, .error c ∉ xs) : ∃ ps : List Place, ps.map .ok = xs := by
  induction xs with
  | nil => exact ⟨[], rfl⟩
  | cons x xs ih =>
    obtain ⟨ps, hps⟩ := ih fun c hc => h c (List.mem_cons_of_mem x hc)
    cases x with
    | ok p => exact ⟨p :: ps, congrArg (Except.ok p :: ·) hps⟩
    | error c => exact absurd List.mem_cons_self (h c)

/-- When there is no cause, every byte has passed. -/
theorem exists_map_ok_of_firstCause {xs : List (Except Nat Place)} (h : firstCause xs = none) :
    ∃ ps : List Place, ps.map .ok = xs :=
  exists_map_ok fun _ hc => firstCause_ne_none hc h

theorem State.checks_length (s : State) (e : Env) (mode : Mode) (acc : Access) (l : Nat) (a : DWord) (n : Nat) :
    (s.checks e mode acc l a n).length = n := by
  induction n generalizing a with
  | zero => rfl
  | succ n ih => exact congrArg (· + 1) (ih (a + 1))

/-- An access that passes reaches the places its bytes' checks give. -/
theorem State.checks_of_places {s : State} {e : Env} {mode : Mode} {acc : Access} {l : Nat} {a : DWord} {n : Nat} {ps : List Place}
    (h : s.places e mode acc l a n = .ok ps) : s.checks e mode acc l a n = ps.map .ok := by
  unfold State.places at h
  dsimp only at h
  split at h
  · cases h
  · next hc =>
    obtain ⟨qs, hqs⟩ := exists_map_ok_of_firstCause hc
    rw [← hqs, List.filterMap_map] at h
    have hps : qs = ps := List.filterMap_some.symm.trans (Except.ok.inj h)
    rw [← hqs, hps]

theorem State.places_length {s : State} {e : Env} {mode : Mode} {acc : Access} {l : Nat} {a : DWord} {n : Nat} {ps : List Place}
    (h : s.places e mode acc l a n = .ok ps) : ps.length = n := by
  rw [← s.checks_length e mode acc l a n, State.checks_of_places h, List.length_map]

theorem State.places_of_outsideSpaces {a : DWord} {n : Nat} (h : OutsideSpaces a) (hn : 0 < n) (s : State) (e : Env) (mode : Mode)
    (acc : Access) (l : Nat) : s.places e mode acc l a n = .error causeTranslation := by
  obtain ⟨n, rfl⟩ := Nat.exists_eq_add_one.2 hn
  unfold State.places State.checks
  dsimp only
  rw [State.place_of_outsideSpaces h, firstCause_translation_cons]

theorem State.reach_misaligned {a : DWord} {size : Nat} (h : a.toNat % size ≠ 0) (s : State) (acc : Access) (l : Nat) :
    s.reach acc l a size = .error causeMisaligned := if_pos h

theorem State.reach_aligned {a : DWord} {size : Nat} (h : a.toNat % size = 0) (s : State) (acc : Access) (l : Nat) :
    s.reach acc l a size = s.places s.wave.env s.wave.arch.mode acc l a size := if_neg (not_not_intro h)

theorem State.reach_length {s : State} {acc : Access} {l : Nat} {a : DWord} {size : Nat} {ps : List Place}
    (h : s.reach acc l a size = .ok ps) : ps.length = size := by
  by_cases ha : a.toNat % size = 0
  · rw [State.reach_aligned ha] at h
    exact State.places_length h
  · rw [State.reach_misaligned ha] at h
    cases h

/-- Settles O28: alignment is checked first; then the first byte of an address outside its space gives the cause of the access; and the
places of an access that passes are one for each byte. -/
theorem accessChecks : Obligations.AccessChecks :=
  fun s acc l _ _ hsize =>
    ⟨fun hmis => s.reach_misaligned hmis acc l,
     fun hal hout => (s.reach_aligned hal acc l).trans (State.places_of_outsideSpaces hout hsize s _ _ acc l),
     fun _ h => State.reach_length h⟩

end Sys2Proof.Machine
end

/-! # Numbers: rounding, the flags of the lanes, bit copies and reductions

What chapter 03 and its instructions of chapter 07 settle: which neighbour a rounding takes (R78), what a floating-point instruction
does whose lanes may trap (R83), the rows that copy bits (R65), and the reductions over the active lanes (R217). -/

section
namespace Sys2Proof.Machine
open Sys2Proof.Claims

/-! ## Rounding (R78) -/

/-- Nothing discarded, nothing rounded away from zero. -/
@[simp] theorem roundsUp_zero (rm : Rm) (neg odd : Bool) (k : Nat) : roundsUp rm neg odd 0 k = false := by
  cases rm <;> simp [roundsUp]

/-- RNE rounds away from zero above a half, and at a half when the last bit is odd. -/
theorem roundsUp_rne (neg odd : Bool) (r k : Nat) :
    roundsUp .rne neg odd r k = true ↔ 2 ^ k < 2 * r ∨ (2 * r = 2 ^ k ∧ odd = true) := by
  have hq := Nat.two_pow_pos k
  cases odd <;> simp [roundsUp]
  omega

section
variable {k : Nat}

/-- Counted in units of `2^k`, a magnitude is its quotient, or one more where the remainder rounds up; it is exact when no remainder
is left. -/
theorem roundUnits_coarser (hk : 0 < k) (rm : Rm) (neg : Bool) (m : Nat) (e : Int) :
    roundUnits rm neg m e (e + k) =
      (m / 2 ^ k + (roundsUp rm neg (decide (m / 2 ^ k % 2 = 1)) (m % 2 ^ k) k).toNat, decide (m % 2 ^ k ≠ 0)) := by
  unfold roundUnits
  rw [if_neg (by omega), show (e + k - e).toNat = k by omega]
  dsimp only
  cases roundsUp rm neg (decide (m / 2 ^ k % 2 = 1)) (m % 2 ^ k) k <;> rfl

theorem roundUnits_exact_iff (hk : 0 < k) (rm : Rm) (neg : Bool) (m : Nat) (e : Int) :
    (roundUnits rm neg m e (e + k)).2 = false ↔ m % 2 ^ k = 0 := by
  rw [roundUnits_coarser hk]
  simp

theorem roundUnits_of_exact (hk : 0 < k) (rm : Rm) (neg : Bool) {m : Nat} (e : Int) (h : m % 2 ^ k = 0) :
    (roundUnits rm neg m e (e + k)).1 * 2 ^ k = m := by
  rw [roundUnits_coarser hk, h, roundsUp_zero]
  exact Nat.div_mul_cancel (Nat.dvd_of_mod_eq_zero h)

/-- RNE is within half a unit, and even at a tie. -/
theorem roundUnits_rne (hk : 0 < k) (neg : Bool) (m : Nat) (e : Int) :
    let r := (roundUnits .rne neg m e (e + k)).1
    2 * (r * 2 ^ k) ≤ 2 * m + 2 ^ k ∧ 2 * m ≤ 2 * (r * 2 ^ k) + 2 ^ k ∧ (2 * (m % 2 ^ k) = 2 ^ k → r % 2 = 0) := by
  rw [roundUnits_coarser hk]
  have hup := roundsUp_rne neg (decide (m / 2 ^ k % 2 = 1)) (m % 2 ^ k) k
  have hm := Nat.div_add_mod' m (2 ^ k)
  have hr := Nat.mod_lt m (Nat.two_pow_pos k)
  generalize roundsUp .rne neg (decide (m / 2 ^ k % 2 = 1)) (m % 2 ^ k) k = up at *
  generalize m / 2 ^ k = d at *
  generalize m % 2 ^ k = r at *
  generalize 2 ^ k = q at *
  rw [decide_eq_true_eq] at hup
  cases up
  · simp only [Bool.toNat_false, Nat.add_zero, Bool.false_eq_true, false_iff] at hup ⊢
    omega
  · simp only [Bool.toNat_true, Nat.succ_mul, true_iff] at hup ⊢
    omega

/-- Where the remainder rounds down, the result is the neighbour towards zero. -/
theorem roundUnits_down (hk : 0 < k) {rm : Rm} {neg : Bool} {m : Nat} (e : Int)
    (h : rm = .rtz ∨ (rm = .rup ∧ neg = true) ∨ (rm = .rdn ∧ neg = false)) :
    let r := (roundUnits rm neg m e (e + k)).1
    r * 2 ^ k ≤ m ∧ m < (r + 1) * 2 ^ k := by
  have hdown : ∀ odd r, roundsUp rm neg odd r k = false := by
    rcases h with rfl | ⟨rfl, rfl⟩ | ⟨rfl, rfl⟩ <;> simp [roundsUp]
  rw [roundUnits_coarser hk, hdown]
  exact ⟨Nat.div_mul_le_self m _, (Nat.div_lt_iff_lt_mul (Nat.two_pow_pos k)).1 (Nat.lt_succ_self _)⟩

/-- In the direction away from zero the result is the neighbour there, unless the value is exact. -/
theorem roundUnits_up (hk : 0 < k) {rm : Rm} {neg : Bool} {m : Nat} (e : Int)
    (h : (rm = .rup ∧ neg = false) ∨ (rm = .rdn ∧ neg = true)) :
    let r := (roundUnits rm neg m e (e + k)).1
    m ≤ r * 2 ^ k ∧ r * 2 ^ k < m + 2 ^ k := by
  have hup : ∀ odd r, roundsUp rm neg odd r k = decide (r ≠ 0) := by
    rcases h with ⟨rfl, rfl⟩ | ⟨rfl, rfl⟩ <;> simp [roundsUp]
  rw [roundUnits_coarser hk, hup]
  have hm := Nat.div_add_mod' m (2 ^ k)
  have hr := Nat.mod_lt m (Nat.two_pow_pos k)
  dsimp only
  by_cases h0 : m % 2 ^ k = 0
  · rw [decide_eq_false (not_not_intro h0), Bool.toNat_false, Nat.add_zero]
    omega
  · rw [decide_eq_true h0, Bool.toNat_true, Nat.succ_mul]
    omega

end

/-- Settles O5: the count is the quotient or one more; the mode decides which, and nothing is decided where no remainder is left. -/
theorem roundingFollowsItsMode : Obligations.RoundingFollowsItsMode := by
  intro rm neg m k e hk
  have hx := roundUnits_exact_iff hk rm neg m e
  exact ⟨hx, fun h => roundUnits_of_exact hk rm neg e (hx.1 h), fun h => h ▸ roundUnits_rne hk neg m e, roundUnits_down hk e,
    roundUnits_up hk e⟩

/-! ## The rows that copy bits (R65, R201, R203, R204) -/

/-- The sign of a binary32 code is its bit 31. -/
theorem f32_neg (x : Word) : Fmt.f32.neg x.toNat = x.msb := by
  have := x.isLt
  rw [BitVec.msb_eq_decide]
  exact decide_eq_decide.2 (show x.toNat / 2 ^ 31 % 2 = 1 ↔ _ by omega)

theorem f32_mag (x : Word) : Fmt.f32.mag x.toNat = x.toNat / 2 ^ 23 % 2 ^ 8 * 2 ^ 23 + x.toNat % 2 ^ 23 := by
  show x.toNat % 2 ^ 31 = _
  omega

theorem f32_subnormal (x : Word) :
    Fmt.f32.subnormal x.toNat = decide (x.toNat / 2 ^ 23 % 2 ^ 8 = 0 ∧ x.toNat % 2 ^ 23 ≠ 0) := by
  unfold Fmt.subnormal
  rw [f32_mag, decide_eq_decide]
  show _ ∧ _ < 2 ^ 23 ↔ _
  omega

/-- What a binary32 code stands for, by its exponent field and its fraction (R64). -/
theorem f32_decode (x : Word) :
    Fmt.f32.decode x.toNat =
      let e : Nat := x.toNat / 2 ^ 23 % 2 ^ 8
      let f : Nat := x.toNat % 2 ^ 23
      if e = 255 then (if f ≠ 0 then .nan (!x.getLsbD 22) else .inf x.msb)
      else if e = 0 then .fin x.msb f (-149)
      else .fin x.msb (2 ^ 23 + f) (e - 150) := by
  have hx : x.toNat % 2 ^ Fmt.f32.width = x.toNat := Nat.mod_eq_of_lt x.isLt
  have hq : decide ((x.toNat / 2 ^ 23 % 2 ^ 8 * 2 ^ 23 + x.toNat % 2 ^ 23) / 2 ^ 22 % 2 = 0) = !x.getLsbD 22 := by
    rw [BitVec.getLsbD, Nat.testBit_eq_decide_div_mod_eq, ← decide_not, decide_eq_decide]
    omega
  have hieee : Fmt.f32.ieee = true := rfl
  have hinf : Fmt.f32.inf = some (255 * 2 ^ 23) := rfl
  have ht : Fmt.f32.t = 23 := rfl
  have hbias : Fmt.f32.bias = 127 := rfl
  have hf := Nat.mod_lt x.toNat (show 0 < 2 ^ 23 by decide)
  have he := Nat.mod_lt (x.toNat / 2 ^ 23) (show 0 < 2 ^ 8 by decide)
  simp only [Fmt.decode, Fmt.finite, hx, f32_mag, f32_neg, hieee, hinf, ht, hbias, hq, if_true]
  generalize x.toNat / 2 ^ 23 % 2 ^ 8 = e at *
  generalize x.toNat % 2 ^ 23 = f at *
  have hi : e * 2 ^ 23 + f = 255 * 2 ^ 23 ↔ e = 255 ∧ f = 0 := by omega
  have hn : e * 2 ^ 23 + f > 255 * 2 ^ 23 ↔ e = 255 ∧ f ≠ 0 := by omega
  have hd : (e * 2 ^ 23 + f) / 2 ^ 23 = e := by omega
  have hm : (e * 2 ^ 23 + f) % 2 ^ 23 = f := by omega
  have hs : (e : Int) - 127 - (23 : Nat) = e - 150 := by omega
  simp only [hi, hn, hd, hm, hs]
  by_cases h255 : e = 255 <;> by_cases h0 : f = 0 <;> simp [h255, h0]

/-- The class word by the exponent field and the fraction (R203). -/
theorem classWord_eq (x : Word) :
    BitVec.ofNat 32 (classWord x.toNat) =
      let e := x.toNat / 2 ^ 23 % 2 ^ 8
      let f := x.toNat % 2 ^ 23
      if e = 255 then (if f ≠ 0 then (if x.getLsbD 22 then 2 else 1) else if x.msb then 4 else 0x200)
      else if e = 0 then (if f = 0 then (if x.msb then 0x20 else 0x40) else if x.msb then 0x10 else 0x80)
      else if x.msb then 8 else 0x100 := by
  unfold classWord
  simp only [f32_decode, f32_subnormal]
  generalize x.toNat / 2 ^ 23 % 2 ^ 8 = e
  generalize x.toNat % 2 ^ 23 = f
  by_cases he : e = 255
  · by_cases hf : f = 0
    · cases x.msb <;> simp [he, hf]
    · cases x.getLsbD 22 <;> simp [he, hf]
  · by_cases h0 : e = 0
    · by_cases hf : f = 0 <;> cases x.msb <;> simp [h0, hf]
    · cases x.msb <;> simp [he, h0]

/-- Each row of `fpBitsRow` is the shared operation on copied bits. -/
theorem exec_of_fpBitsRow {i : Instr} {s : State} {d a b : BitVec 7} {f : Word → Word → Word}
    (hr : fpBitsRow i = some (d, a, b, f)) : exec i s = s.fpBits d a b f := by
  unfold fpBitsRow at hr
  split at hr <;> cases hr
  case h_6 => simp only [exec_vclassF32, execVclassF32, classWord_eq]
  all_goals rfl

/-- Settles O8: each row writes the copied bits in the active lanes, with no flag to raise. -/
theorem floatingPointBitCopies : Obligations.FloatingPointBitCopies := by
  intro i s d a b f hr hc
  rw [exec_of_fpBitsRow hr]
  unfold State.fpBits
  rw [State.group_clears hc]
  exact s.vecLanes_ran d.toNat _ s.wave.active fun _ => Wave.active_lt

/-! ## Lanes that may trap (R83) -/

/-- A wave that differs from another in some vectors and predicates only. -/
def Wave.writes (w v : Wave) (vs ps : List Nat) : Prop :=
  v = { w with arch := v.arch } ∧ v.arch.exm = w.arch.exm ∧ w.keeps v [] vs ps false

theorem Wave.keeps_refl (w : Wave) (ss vs ps : List Nat) (fp : Bool) : w.keeps w ss vs ps fp :=
  ⟨rfl, fun _ _ => rfl, fun _ _ _ _ => rfl, fun _ _ => rfl, fun _ => rfl⟩

theorem Wave.keeps_fpc {w v : Wave} {ss vs ps : List Nat} (h : w.keeps v ss vs ps false) : v.arch.fpc = w.arch.fpc := by
  obtain ⟨-, -, -, -, hfpc⟩ := h
  exact hfpc rfl

/-- Flags raised on top of writes keep the other registers. -/
theorem Wave.keeps_raise {w v : Wave} {ss vs ps : List Nat} {fp : Bool} (h : w.keeps v ss vs ps fp) (f : FpFlags) :
    w.keeps (v.raise f) ss vs ps true := by
  obtain ⟨harch, hs, hv, hp, -⟩ := h
  exact ⟨congrArg (fun a : Arch => { a with fpc := v.arch.fpc ||| f.setWidth 64 }) harch, hs, hv, hp, nofun⟩

theorem Wave.writeLanes_writes (w : Wave) (d : Nat) (f : Nat → Word) {ls : List Nat} (hls : ∀ l ∈ ls, l < 64) :
    w.writes (w.writeLanes d f ls) [d] [] := by
  have hf := w.writeLanes_frame d f ls
  refine ⟨by rw [hf], by rw [hf], by rw [hf], fun _ _ => by rw [hf]; rfl, fun r l hl hr => ?_, fun _ _ => by rw [hf]; rfl,
    fun _ => by rw [hf]⟩
  rw [Wave.writeLanes_v w d f ls hls r l hl, if_neg fun h => hr (List.mem_singleton.2 h.1)]

theorem fpCause_eq (f : FpFlags) : fpCause f = 0x20 ||| (f.setWidth 32 <<< 8) := by
  revert f
  decide

/-- The trap that `fpEnd` forms is that of R83. -/
theorem fpTrap_eq (w : Wave) (fl : Nat → FpFlags) :
    laneTrap ((w.fpBad fl).map fun l => (l, fpCause (fl l), none)) = fpTrap w fl := by
  simp only [fpCause_eq]
  rfl

section
variable {s : State} {vs ps : List Nat} {fl : Nat → FpFlags} {put : Wave → List Nat → Wave}
  {Put : Wave → Wave → (Nat → Prop) → Prop}

/-- A wave with the vectors and predicates that `p` holds, and with the flags of the lanes that complete, is as R83 says, when those
registers are as `Put` says. -/
theorem lanesCompleted_of_registers {w p v : Wave} (hput : ∀ v : Wave, v.env = w.env → v.arch.vregs = p.arch.vregs →
      v.arch.preds = p.arch.preds → Put w v (· ∈ w.fpGood fl))
    (henv : v.env = w.env) (hvregs : v.arch.vregs = p.arch.vregs) (hpreds : v.arch.preds = p.arch.preds)
    (hfpc : v.arch.fpc = w.arch.fpc ||| (flagsOf fl (w.fpGood fl)).setWidth 64) : lanesCompleted w v fl Put := by
  have h := hput v henv hvregs hpreds
  simp only [Wave.mem_fpGood] at h
  exact ⟨h, hfpc⟩

/-- What ends with `fpEnd` has the outcome of R83, when `put` writes the registers named and no other, and a wave with the vectors and
predicates that `put` leaves holds what `Put` says. -/
theorem fpOutcome_of_fpEnd {i : Instr} (he : exec i s = s.fpEnd fl put)
    (hw : s.wave.writes (put s.wave (s.wave.fpGood fl)) vs ps)
    (hput : ∀ v : Wave, v.env = s.wave.env → v.arch.vregs = (put s.wave (s.wave.fpGood fl)).arch.vregs →
      v.arch.preds = (put s.wave (s.wave.fpGood fl)).arch.preds → Put s.wave v (· ∈ s.wave.fpGood fl)) :
    fpOutcome i s vs ps fl Put := by
  obtain ⟨hwave, hexm, hkeeps⟩ := hw
  generalize hp : put s.wave (s.wave.fpGood fl) = p at *
  have hk := Wave.keeps_raise hkeeps (flagsOf fl (s.wave.fpGood fl))
  have henv : p.env = s.wave.env := by rw [hwave]
  have hflags : (p.raise (flagsOf fl (s.wave.fpGood fl))).arch.fpc =
      s.wave.arch.fpc ||| (flagsOf fl (s.wave.fpGood fl)).setWidth 64 := by
    rw [← Wave.keeps_fpc hkeeps]
    rfl
  have hraise : p.raise (flagsOf fl (s.wave.fpGood fl)) =
      { s.wave with arch := (p.raise (flagsOf fl (s.wave.fpGood fl))).arch } := by
    rw [hwave]
    rfl
  rw [fpOutcome, he]
  refine ⟨fun hgood => ?_, fun hbad => ?_⟩
  · rw [s.fpEnd_completes fl put hgood, ← Wave.fpGood_eq_active hgood, hp]
    obtain ⟨t, ht, hran, harch, htenv⟩ := s.done_keeps _ [] vs ps true hraise hk hexm
    exact ⟨t, ht, lanesCompleted_of_registers hput (htenv.trans henv) (by rw [harch]; rfl) (by rw [harch]; rfl)
      (by rw [harch]; exact hflags), hran⟩
  · rw [s.fpEnd_traps fl put hbad, fpTrap_eq, hp]
    refine ⟨_, rfl, ?_⟩
    unfold State.partly
    by_cases hm : s.wave.arch.mode = .hypervisor
    · rw [if_pos hm]
      exact ⟨fun _ => rfl, fun h => absurd hm h, s.wave.keeps_refl _ _ _ _, rfl⟩
    · rw [if_neg hm]
      exact ⟨fun h => absurd h hm, fun _ => lanesCompleted_of_registers hput henv rfl rfl hflags, hk,
        congrArg (fun w => { s with wave := w }) hraise⟩

end

/-- The lanes of a vector register, as `fpLanes` writes them. -/
theorem fpOutcome_of_fpLanes {i : Instr} {s : State} {d : Nat} {res : Nat → LaneRes} (he : exec i s = s.fpLanes d res) :
    fpOutcome i s [d] [] (fun l => (res l).flags) (putLanes d fun l => (res l).out) := by
  refine fpOutcome_of_fpEnd he (Wave.writeLanes_writes _ _ _ fun _ => Wave.fpGood_lt) fun v _ hv _ l hl => ?_
  have h : v.v d l = (s.wave.writeLanes d (fun l => (res l).out) (s.wave.fpGood fun l => (res l).flags)).v d l := by
    rw [Wave.v, hv, Wave.v]
  rw [h, Wave.writeLanes_v _ _ _ _ (fun _ => Wave.fpGood_lt) d l hl]
  exact ⟨fun hg => if_pos ⟨rfl, hg⟩, fun hg => if_neg fun hc => hg hc.2⟩

/-- Each row of `fpRow` is a group that ends with the row's lanes, whatever its hints say. -/
theorem exec_of_fpRow {i : Instr} {s : State} {f : Form} {d : BitVec 7} {res : Nat → LaneRes}
    (hr : fpRow s.wave s.wave.group i = some (f, d, res)) (hc : s.clears f) : exec i s = s.fpLanes d.toNat res := by
  have hg : exec i s = s.group f fun h => (fpRow s.wave h i).elim s.skip fun r => s.fpLanes r.2.1.toNat r.2.2 := by
    unfold fpRow at hr
    dsimp only at hr
    split at hr <;> cases hr <;> rfl
  rw [hg, State.group_clears hc, hr]
  rfl

/-- Settles O6: each row ends with its lanes' results, and that end has the outcome of R83. -/
theorem floatingPointLanes : Obligations.FloatingPointLanes :=
  fun _ _ _ _ _ hr hc => fpOutcome_of_fpLanes (exec_of_fpRow hr hc)

/-! ## Reductions (R217) -/

/-- A sum modulo 2^32, sign-extended at each step. -/
theorem foldl_signedSum (xs : List Word) (z : Word) :
    xs.foldl (fun (r : DWord) y => (r.setWidth 32 + y).signExtend 64) (z.signExtend 64) = (xs.foldl (· + ·) z).signExtend 64 := by
  induction xs generalizing z with
  | nil => rfl
  | cons y ys ih =>
    have hz : (z.signExtend 64).setWidth 32 = z := by
      ext k hk
      simp [BitVec.getElem_signExtend, show k < 64 by omega, hk]
    rw [List.foldl_cons, List.foldl_cons, ← ih, hz]

/-- Of what a reduction holds and the next value, the one that comes first in an order. -/
def pickBy (R : Int → Int → Prop) [DecidableRel R] (x : DWord) (y : Word) : DWord := if R x.toInt y.toInt then x else y.signExtend 64

section
variable {R : Int → Int → Prop} [DecidableRel R]

theorem pickBy_le (htotal : ∀ m n, R m n ∨ R n m) (x : DWord) (y : Word) :
    R (pickBy R x y).toInt x.toInt ∧ R (pickBy R x y).toInt y.toInt := by
  have hrefl : ∀ n, R n n := fun n => (htotal n n).elim id id
  unfold pickBy
  split
  · exact ⟨hrefl _, ‹_›⟩
  · rw [BitVec.toInt_signExtend_of_le (by decide)]
    exact ⟨(htotal _ _).resolve_left ‹_›, hrefl _⟩

/-- The reduction by an order comes before the start and every value, and is one of them. -/
theorem foldl_pickBy (htotal : ∀ m n, R m n ∨ R n m) (htrans : ∀ {m n o}, R m n → R n o → R m o) (xs : List Word) (z : DWord) :
    (xs.foldl (pickBy R) z = z ∨ ∃ x ∈ xs, xs.foldl (pickBy R) z = x.signExtend 64) ∧
    R (xs.foldl (pickBy R) z).toInt z.toInt ∧ ∀ x ∈ xs, R (xs.foldl (pickBy R) z).toInt x.toInt := by
  induction xs generalizing z with
  | nil => exact ⟨.inl rfl, (htotal _ _).elim id id, nofun⟩
  | cons y ys ih =>
    obtain ⟨hmem, hstart, hall⟩ := ih (pickBy R z y)
    obtain ⟨hz, hy⟩ := pickBy_le htotal z y
    refine ⟨?_, htrans hstart hz, List.forall_mem_cons.2 ⟨htrans hstart hy, hall⟩⟩
    rw [List.foldl_cons]
    rcases hmem with h | ⟨x, hx, h⟩
    · rw [h, pickBy]
      split
      · exact .inl rfl
      · exact .inr ⟨y, List.mem_cons_self, rfl⟩
    · exact .inr ⟨x, List.mem_cons_of_mem y hx, h⟩

/-- From a start that every value comes before, the reduction is the first of the values. -/
theorem foldl_pickBy_of_last (htotal : ∀ m n, R m n ∨ R n m) (htrans : ∀ {m n o}, R m n → R n o → R m o)
    (hanti : ∀ {m n}, R m n → R n m → m = n) {z : DWord} (hz : ∀ y : Word, R y.toInt z.toInt) (xs : List Word) :
    if xs = [] then xs.foldl (pickBy R) z = z
    else (∃ x ∈ xs, xs.foldl (pickBy R) z = x.signExtend 64) ∧ ∀ x ∈ xs, R (xs.foldl (pickBy R) z).toInt x.toInt := by
  obtain ⟨hmem, -, hall⟩ := foldl_pickBy htotal htrans xs z
  cases xs with
  | nil => rfl
  | cons y ys =>
    refine ⟨hmem.elim (fun h => ⟨y, List.mem_cons_self, ?_⟩) id, hall⟩
    have hy := hall y List.mem_cons_self
    rw [h] at hy ⊢
    exact BitVec.eq_of_toInt_eq ((hanti hy (hz y)).trans (BitVec.toInt_signExtend_of_le (by decide)).symm)

end

theorem getLsbD_foldl_and (xs : List Word) (z : DWord) (k : Nat) :
    (xs.foldl (fun (r : DWord) y => r &&& y.setWidth 64) z).getLsbD k = (z.getLsbD k && xs.all fun x => x.getLsbD k) := by
  induction xs generalizing z with
  | nil => simp
  | cons y ys ih =>
    rw [List.foldl_cons, ih]
    by_cases hk : k < 64
    · simp [hk, Bool.and_assoc]
    · simp [BitVec.getLsbD_of_ge z k (by omega)]

theorem getLsbD_foldl_or (xs : List Word) (z : DWord) (k : Nat) :
    (xs.foldl (fun (r : DWord) y => r ||| y.setWidth 64) z).getLsbD k = (z.getLsbD k || xs.any fun x => x.getLsbD k) := by
  induction xs generalizing z with
  | nil => simp
  | cons y ys ih =>
    rw [List.foldl_cons, ih]
    by_cases hk : k < 64
    · simp [hk, Bool.or_assoc]
    · simp [BitVec.getLsbD_of_ge y k (by omega), hk]

/-- Each row of `intReduceRow` is a reduction of the active lanes whose result is as R217 says. -/
theorem exec_of_intReduceRow {i : Instr} {d a : BitVec 7} {P : List Word → DWord → Prop} (hr : intReduceRow i = some (d, a, P)) :
    ∃ (z : DWord) (g : DWord → Word → DWord), (∀ s, exec i s = s.redInt d a z g) ∧ ∀ xs : List Word, P xs (xs.foldl g z) := by
  unfold intReduceRow at hr
  split at hr <;> simp only [Option.some.injEq, Prod.mk.injEq, reduceCtorEq] at hr <;> obtain ⟨rfl, rfl, rfl⟩ := hr
  · exact ⟨0, fun x y => (x.setWidth 32 + y).signExtend 64, fun _ => rfl, fun xs => foldl_signedSum xs 0⟩
  · refine ⟨0x7FFFFFFF, pickBy (· ≤ ·), fun _ => rfl, foldl_pickBy_of_last Int.le_total Int.le_trans Int.le_antisymm fun y => ?_⟩
    have hy : y.toInt < 2 ^ 31 := BitVec.toInt_lt
    rw [show (0x7FFFFFFF : DWord).toInt = 2 ^ 31 - 1 by decide]
    omega
  · refine ⟨0xFFFFFFFF80000000, pickBy (· ≥ ·), fun _ => rfl,
      foldl_pickBy_of_last (fun m n => Int.le_total n m) (fun h g => Int.le_trans g h) (fun h g => Int.le_antisymm g h) fun y => ?_⟩
    rw [show (0xFFFFFFFF80000000 : DWord).toInt = -2 ^ 31 by decide]
    exact BitVec.le_toInt y
  · refine ⟨0xFFFFFFFF, fun x y => x &&& y.setWidth 64, fun _ => rfl, fun xs k => ?_⟩
    have hz : (0xFFFFFFFF : DWord).getLsbD k = decide (k < 32) := by
      rw [show (0xFFFFFFFF : DWord) = BitVec.ofNat 64 (2 ^ 32 - 1) from rfl, BitVec.getLsbD_ofNat, Nat.testBit_two_pow_sub_one,
        ← Bool.decide_and]
      exact decide_eq_decide.2 (by omega)
    rw [← hz]
    exact getLsbD_foldl_and xs _ k
  · refine ⟨0, fun x y => x ||| y.setWidth 64, fun _ => rfl, fun xs k => ?_⟩
    simpa using getLsbD_foldl_or xs 0 k

/-- An exact reduction completes with the reduction of the active lanes' values in sd. -/
theorem State.redInt_ran {s : State} {d a : BitVec 7} (hc : s.clears { vs := [a.toNat], ss := [d.toNat] }) (z : DWord)
    (g : DWord → Word → DWord) :
    ∃ t, s.redInt d a z g = .next t ∧ t.wave.s d.toNat = (s.wave.active.map fun l => s.wave.v a.toNat l).foldl g z ∧
      s.ran t [d.toNat] [] [] false := by
  unfold State.redInt
  rw [State.group_clears hc, List.foldl_map]
  exact s.scalarResult_ran _ _

/-- Each row of `fpReduceRow` is a reduction over the tree. -/
theorem exec_of_fpReduceRow {i : Instr} {d a : BitVec 7} {m : Bool} {g : ElemOp} {z : Word}
    (hr : fpReduceRow i = some (d, a, m, g, z)) (s : State) : exec i s = s.redFp d a m g z := by
  unfold fpReduceRow at hr
  split at hr <;> cases hr <;> rfl

/-- A scalar result that raises flags completes: `sd` and FLAGS have changed and nothing else has. -/
theorem State.scalarRaise_ran (s : State) (d : Nat) (x : DWord) (f : FpFlags) :
    ∃ t, ({ s with wave := (s.wave.setS d x).raise f } : State).done = .next t ∧ t.wave.s d = x ∧
      t.wave.arch.fpc = s.wave.arch.fpc ||| f.setWidth 64 ∧ s.ran t [d] [] [] true := by
  have hk : s.wave.keeps (s.wave.setS d x) [d] [] [] false :=
    ⟨rfl, fun r hr => (s.wave.setS_s d r x).trans (if_neg (by simpa using hr)), fun _ _ _ _ => rfl, fun _ _ => rfl, fun _ => rfl⟩
  obtain ⟨t, ht, hran, harch, -⟩ := s.done_keeps _ [d] [] [] true rfl (Wave.keeps_raise hk f) rfl
  have hd := s.wave.setS_s d d x
  rw [if_pos rfl] at hd
  exact ⟨t, ht, by rw [← hd, Wave.s, harch]; rfl, by rw [harch]; rfl, hran⟩

/-- Settles O12: an exact reduction folds the active lanes' values; a floating-point one is the root of the tree, with the flags below it
raised or, when one of them is enabled, trapped on. -/
theorem reductions : Obligations.Reductions := by
  refine ⟨fun i s d a P hr hc => ?_, fun i s d a m g z hr hc => ?_⟩
  · obtain ⟨z, g, hexec, hP⟩ := exec_of_intReduceRow hr
    obtain ⟨t, ht, hd, hran⟩ := State.redInt_ran hc z g
    exact ⟨t, (hexec s).trans ht, hd ▸ hP _, hran⟩
  · rw [exec_of_fpReduceRow hr, State.redFp, State.group_clears hc]
    refine ⟨fun hgood => ?_, fun hbad => ?_⟩
    · rw [if_neg (not_not_intro hgood)]
      exact s.scalarRaise_ran _ _ _
    · rw [if_pos hbad, fpCause_eq]
      rfl

end Sys2Proof.Machine
end
